-- ==== Sys2Proof/Word.lean ====
section
/-! DEFINITION. The word types of the device (R9) and the exact real values its arithmetic works on (R41, R42). -/

namespace Sys2Proof

/-- A byte, the unit in which memory is addressed (R9). -/
abbrev Byte := BitVec 8

/-- A 32-bit word: an FP32 element, a draw word, an identifier word. -/
abbrev W32 := BitVec 32

/-- A 64-bit word: a fence word, a register word. -/
abbrev W64 := BitVec 64

/-- A 128-bit word: a seed, an MSI-X entry, a link address. -/
abbrev W128 := BitVec 128

/-- The exact value of a number the device computes with: `fin neg m e` is `m * 2^e`, negated when `neg` is set
(so both zeros are kept, R57); an infinity; or NaN, whose payload the device never keeps (R54). -/
inductive FV where
  | nan
  | inf (neg : Bool)
  | fin (neg : Bool) (m : Nat) (e : Int)
  deriving DecidableEq, Repr

/-- The eleven tensor formats of Table 2-2, in the order of their codes (R38). -/
inductive Fmt where
  | fp32 | bf16 | fp16 | e4m3 | e5m2 | int8 | mxE4M3 | mxE5M2 | mxE2M3 | mxE3M2 | mxE2M1
  deriving DecidableEq, Repr

/-- A format byte taken apart (R38, Table 2-2). `fmt` and `rmode` are raw: a reserved value is refused by R39. -/
structure FmtByte where
  reserved : Nat
  sat : Bool
  rmode : Nat
  fmt : Option Fmt
  deriving DecidableEq, Repr

/-- What narrowing one output element reports for R59. -/
inductive NumEvent where
  | none | saturated | inf | nan
  deriving DecidableEq, Repr

end Sys2Proof
end

