-- ==== Sys2Proof/Profile.lean ====
section
/-! DEFINITION. What the commands of the device carry besides numbers: who writes, the field profile and firmware image as
they are fetched, configuration registers, failing units, and what a sensor or a test finds. -/

namespace Sys2Proof

/-- Who writes a doorbell (R66): a function, or the planner program of a furrow's tender. -/
inductive Sender where
  | function (fn : Nat)
  | tender (furrow : Nat)
  deriving DecidableEq, Repr

/-! ### Microprograms (R169 to R182) -/

/-- Kind of a seam (R172). -/
inductive SeamKind where
  | increasing | decreasing | turning
  deriving DecidableEq, Repr

/-- A seam table entry (R172): a point with its value, or a family over `[lo, hi)` in the pattern BINADE m or REDUCE c.
Inputs and values are FP32 words. -/
inductive Seam where
  | point (s v : Nat) (kind : SeamKind)
  | binade (kind : SeamKind) (lo hi m : Nat)
  | reduce (kind : SeamKind) (lo hi c : Nat)
  deriving DecidableEq, Repr

/-- A microprogram of the profile (R169, R179): micro-operations, seams, the special-value row for NaN, -inf, +inf, -0
and +0, its coefficient rows with the number of its first row, its declared error bound in ulps and monotone intervals as (lowest
input, highest input, rising), and its bytes, which measurement 4 covers. -/
structure Micro where
  ident : Nat
  ops : List Nat
  seams : List Seam
  special : List Nat
  firstRow : Nat
  rows : List (List Nat)
  bound : Nat
  monotone : List (Nat × Nat × Bool)
  raw : List Byte
  deriving DecidableEq, Repr

/-! ### Signed objects (R481, R482) -/

/-- A signed object as fetched (Table 22-2): the fields of its header, `reserved` being nonzero when any reserved byte is,
its length, whether its HSS signature verifies under the root that `root` names, and its SHA-384 digest. -/
structure Signed where
  magic : Nat
  kind : Nat
  root : Nat
  reserved : Nat
  svn : Nat
  bodyLen : Nat
  boundKey : Nat
  length : Nat
  signed : Bool
  digest : List Byte
  deriving DecidableEq, Repr

/-- A field profile (R2, R22, R447, R472, R485): enabled units, MAC addresses by link, operating voltages as (MHz, mV),
microprograms and the part's certificate chain. -/
structure Profile where
  head : Signed
  furrows : Nat
  firstCol : Nat
  ports : Nat
  hbmStacks : Nat
  macs : List Nat
  volts : List (Nat × Nat)
  micros : List Micro
  chain : List Byte
  deriving DecidableEq, Repr

/-- A firmware image (R504): entry point, segments as (offset, length) in the bank, and the handoff versions that it writes
and reads; `reserved` is nonzero when bytes 16 to 63 of the descriptor are. -/
structure Image where
  head : Signed
  entry : Nat
  segments : List (Nat × Nat)
  handoff : Nat
  handoffMin : Nat
  handoffMax : Nat
  reserved : Nat
  deriving DecidableEq, Repr

/-- How the fetch of a new image ends (R510). -/
inductive Fetched where
  | image (i : Image)
  | busError
  | timeout
  deriving DecidableEq, Repr

/-! ### PCI Express -/

/-- A capability or option of Table 19-2 (R427): those of its left column, then those of its right column. -/
inductive PciFeature where
  | tags14 | relaxedOrdering | idOrdering | aer | ecrc | msix | sriov | flr | doe | ide | aspmL1 | l0p | drs | frs
  | powerManagement
  | intx | msi | ats | pri | pasid | hints | atomicOp | aspmL0s | l1Substates | d1 | d2 | resizableBar | expansionRom
  | ioSpace | bar32 | tdisp | ptm | multicast | cxl
  deriving DecidableEq, Repr

/-- A register of configuration space, by name (R427 to R430, R436, R443): the spec gives no offsets. `supported` is the field that
tells of a feature, `enable` the one that turns it on; the `ide` ones are the four ranges of a Selective IDE stream: first function,
last function, first and last address; `other` is a field of a listed capability that the PCI Express specification defines. -/
inductive CfgReg where
  | vendorDevice
  | classCode
  | command
  | bar0
  | totalVfs
  | initialVfs
  | firstVfOffset
  | vfStride
  | numVfs
  | vfEnable
  | ideFirstFn (stream : Nat)
  | ideLastFn (stream : Nat)
  | ideFirstAddr (stream : Nat)
  | ideLastAddr (stream : Nat)
  | supported (f : PciFeature)
  | enable (f : PciFeature)
  | maxPayload
  | maxReadRequest
  | other (reg : Nat)
  deriving DecidableEq, Repr

/-- An operation of IDE_KM on an IDE stream (R443): program a key, start, or stop. -/
inductive IdeOp where
  | program (key : Nat)
  | go
  | stop
  deriving DecidableEq, Repr

/-! ### Faults and tests -/

/-- A unit with a detector (Tables 24-1, 24-2), by its number: `block` is a headland node or link, or a block of the I/O region,
`buffer` the buffers of a drill channel. -/
inductive FailUnit where
  | engine (e : Nat)
  | furrow (f : Nat)
  | link (l : Nat)
  | frame (n : Nat)
  | slice (n : Nat)
  | channel (h : Nat)
  | block (b : Nat)
  | buffer (n : Nat)
  deriving DecidableEq, Repr

/-- What the margining procedure finds on a channel (R350, Table 14-3): smallest eye widths and heights, per round the
failing rows and how many of them still have a spare, distinct failing rows, spares left, and whether training or the link
was lost. -/
structure Margin where
  width0 : Nat
  width1 : Nat
  height0 : Nat
  height1 : Nat
  rounds : List (Nat × Nat)
  failed : Nat
  spares : Nat
  lost : Bool
  deriving DecidableEq, Repr

/-! ### Management and pins -/

/-- A sensor of Table 25-5. -/
inductive Sensor where
  | power | furrow | stack | aclk
  | port (n : Nat)
  | device
  deriving DecidableEq, Repr

/-- The JTAG instructions of R555. -/
inductive JtagOp where
  | bypass | idcode | samplePreload | extest | extestPulse | extestTrain
  deriving DecidableEq, Repr

end Sys2Proof
end

