-- ==== Sys2Proof/Syntax.lean ====
section
/-! DEFINITION. The commands that the device takes: one constructor per row of the table, with the operands that the row's
rule gives it. What a command carries from outside (bytes on a wire, a fetched image, what a test finds) is an operand. -/

namespace Sys2Proof

/-- A command of the device. -/
inductive Instr where
  -- Commands of a hardware queue (Table 3-5), by the queue at whose head they stand
  | nop (q : Nat)
  | fenceSignal (q : Nat)
  | fenceReset (q : Nat)
  | timestamp (q : Nat)
  | mxGemm (q : Nat)
  | conv2d (q : Nat)
  | pool (q : Nat)
  | scanLinear (q : Nat)
  | recurCell (q : Nat)
  | attend (q : Nat)
  | eltwise (q : Nat)
  | normRow (q : Nat)
  | softmaxRow (q : Nat)
  | sample (q : Nat)
  | seedSet (q : Nat)
  | drillCopy (q : Nat)
  | drillChain (q : Nat)
  | drillVisible (q : Nat)
  | windowFill (q : Nat)
  | plotMove (q : Nat)
  | streamCreate (q : Nat)
  | streamFork (q : Nat)
  | streamPark (q : Nat)
  | streamResume (q : Nat)
  | streamExport (q : Nat)
  | streamImport (q : Nat)
  | streamRetire (q : Nat)
  | swathStep (q : Nat)
  | pagePin (q : Nat)
  | netSend (q : Nat)
  | netRecv (q : Nat)
  | netBarrier (q : Nat)
  | netMigrate (q : Nat)
  -- The steps by which commands come to a queue head, are worked on and commit
  | queueFetch (q : Nat)
  | commandCommit (q : Nat)
  | workItemTake (harrow : Bool) (i : Nat)
  | tileDrain (e : Nat)
  | splitkArrival (e : Nat)
  | splitkReduce (q t : Nat)
  | scanPhase2 (q pair : Nat)
  | streamTransitDone (id : Nat)
  | windowFenceRelease (q : Nat)
  | plotMoveCommit (p k : Nat)
  | migrationEpoch
  | wcbIdleTimeout (line : Nat)
  | patrolScrub (addr found : Nat)
  | farFieldTimeout (q : Nat)
  | drillBusError (n d off : Nat)
  | drillChannelGrant (n : Nat)
  -- Writes to the device's window (chapters 3, 15, 16, 19, 20, 23)
  | doorbellWrite (sender : Sender) (q size val : Nat)
  | fenceWrite (fn off size val : Nat)
  | queAbort (fn val : Nat)
  | queDispatchClear (fn : Nat)
  | queErrorsClear (fn : Nat)
  | drillChannelDisable (fn n : Nat)
  | drillChannelEnable (fn n : Nat)
  | drillChannelResume (fn n : Nat)
  | drillClrCounts (fn n : Nat)
  | qpCreate (fn : Nat)
  | qpDestroy (fn qp : Nat)
  | qpReset (fn qp : Nat)
  | netLinkAddrWrite (fn n high : Nat)
  | netPortCfgWrite (fn n val : Nat)
  | bootGo (fn : Nat)
  | msixUnmask (fn entry : Nat)
  | mbxPost (fn m : Nat)
  | mbxRelease (fn m : Nat)
  | registerWrite (fn off size val : Nat) (poisoned : Bool)
  | shadowPageUpdate (fn page : Nat)
  -- Mailbox requests (chapter 16), by function and mailbox, and what follows them
  | fwInfo (fn m : Nat)
  | fwUpdate (fn m : Nat) (found : Fetched)
  | updateQuiesced
  | updateSwitch
  | updateRestored
  | partitionConfig (fn m : Nat)
  | partitionRemove (fn m : Nat)
  | queueEnable (fn m : Nat)
  | queueDisable (fn m : Nat)
  | queueResume (fn m : Nat)
  | queueAbort (fn m : Nat)
  | layoutSet (fn m : Nat)
  | streamQuery (fn m : Nat)
  | kvPoolSet (fn m : Nat)
  | kvQuery (fn m : Nat)
  | plotMap (fn m : Nat)
  | plotUnmap (fn m : Nat)
  | plotQuery (fn m : Nat)
  | windowSet (fn m : Nat)
  | hbmRepairMargin (fn m : Nat) (found : Margin)
  | tickConfig (fn m : Nat)
  | blobKeySet (fn m : Nat)
  | pwrConfig (fn m : Nat)
  | inject (fn m : Nat)
  | bistRun (fn m : Nat) (failing : List FailUnit)
  | injectArm (slot : Nat)
  -- Ticks, power, faults, tests and watchdogs (chapters 18, 21, 23, 24)
  | syncInEdge (rising : Bool)
  | ptpBoundary (port k : Nat)
  | localTick
  | tickWindowClose
  | estimationInterval (est : Nat)
  | slewWindow
  | droopTrip (f : Nat)
  | droopRelease (f : Nat)
  | vrAlertAssert (ns : Nat)
  | vrAlertDeassert
  | vrAlertHoldEnd
  | thermalSample (furrow stack : Nat)
  | faultLatch (unit : FailUnit) (det : Nat)
  | faultSettleDone
  | faultRelease
  | bistSlice
  | bistTargetTest (col : Nat) (passed : Bool)
  | watchdogExpiry (reeve : Nat) (hashOk : Bool) (held : Option (Nat × Nat))
  | watchdogRecoveryDone (reeve : Nat) (finish : Bool)
  -- Start-up (chapter 25)
  | perstAssert
  | perstRelease (strap : Nat)
  | clockLock
  | mgmtFrontEndReady
  | loamZeroDone
  | pcieLinkUp (speed width : Nat) (flit : Bool)
  | bootFetchDone (profile : Profile) (image : Image)
  | startupTestDone (failing : List FailUnit)
  | fwAliveSet
  | fwReadySet
  | railFault
  -- PCI Express (chapter 19)
  | configRequest (fn : Nat) (reg : CfgReg) (write : Option Nat)
  | functionLevelReset (fn : Nat)
  | hotReset
  | d3hotEntry (fn : Nat)
  | hostCompletionError (q : Nat)
  | ideKm (session stream : Nat) (op : IdeOp)
  -- Ethernet (chapter 20)
  | ethLinkUp (n : Nat)
  | ethLinkDown (n : Nat)
  | rdmaWriteInbound (n key addr : Nat) (bytes : List Byte)
  | rdmaReadInbound (n key addr len : Nat)
  | sendInbound (n : Nat) (bytes : List Byte)
  | writeImmInbound (n key addr imm : Nat) (bytes : List Byte)
  | barrierTokenInbound (n imm epoch : Nat)
  | ackReceived (n : Nat)
  | nakReceived (n : Nat)
  | ackTimeout (n : Nat)
  | ptpSyncMessage (port : Nat) (offset : Int)
  | announceTimeout (port : Nat)
  | mkaFrame (n : Nat) (valid : Bool) (sak : Nat)
  -- Management (chapter 25): MCTP control and PLDM requests, over I3C or SMBus
  | setEndpointId (i3c : Bool) (eid : Nat)
  | getEndpointId (i3c : Bool)
  | getEndpointUuid (i3c : Bool)
  | getMctpVersionSupport (i3c : Bool)
  | getMessageTypeSupport (i3c : Bool)
  | i3cDynamicAddress (addr : Nat)
  | getTid (i3c : Bool)
  | setTid (i3c : Bool) (tid : Nat)
  | getPldmVersion (i3c : Bool) (kind : Nat)
  | getPldmTypes (i3c : Bool)
  | getPldmCommands (i3c : Bool) (kind : Nat)
  | getPdrRepositoryInfo (i3c : Bool)
  | getPdr (i3c : Bool) (record : Nat)
  | getSensorReading (i3c : Bool) (sensor : Nat)
  | getStateSensorReadings (i3c : Bool) (sensor : Nat)
  | setEventReceiver (i3c : Bool) (eid : Nat)
  | getFruRecordTableMetadata (i3c : Bool)
  | getFruRecordTable (i3c : Bool)
  -- SPDM and the owner (chapter 22), over DOE or MCTP
  | getVersion (doe : Bool)
  | getCapabilities (doe : Bool) (xfer : Nat)
  | negotiateAlgorithms (doe mldsa : Bool)
  | getDigests (doe : Bool)
  | getCertificate (doe : Bool) (slot off len : Nat)
  | challenge (doe : Bool) (slot : Nat) (nonce : List Byte)
  | getMeasurements (doe : Bool) (session : Option Nat) (index : Nat) (nonce : Option (List Byte))
  | keyExchange (doe : Bool) (root : Option Nat)
  | finish (doe : Bool) (session : Nat) (root : Option Nat) (valid : Bool)
  | endSession (doe : Bool) (session : Nat)
  | heartbeat (doe : Bool) (session : Nat)
  | keyUpdate (doe : Bool) (session : Nat)
  | chunkSend (doe : Bool) (seq : Nat) (last : Bool) (bytes : List Byte)
  | chunkGet (doe : Bool) (seq : Nat)
  | ownerBind (session : Nat)
  | wrapKeySet (session p key : Nat)
  | policySet (session ide macsec svn : Nat)
  | cakSet (session link ckn cak : Nat)
  -- The remaining events
  | jtagInstruction (op : JtagOp) (data : Nat)
  | returnToD0 (fn : Nat)
  | functionReadinessStatus (fn : Nat)
  | ideCheckFail (stream : Nat)
  | doeDiscovery (index : Nat)
  | randomSourceHealthTestsDone (ok : Bool)
  | bootFetchTimeout
  | unsupportedPacketDrop (n : Nat)
  | macsecVerifyFail (n : Nat)
  | congestionNotification (n : Nat)
  | priorityFlowControl (port : Nat) (pause : Bool)
  deriving DecidableEq, Repr

end Sys2Proof
end

