-- ==== Sys2Proof/Decode.lean ====
section
/-! DEFINITION. Words of commands: the table gives no row any bits, so no word spells a command (log entry 6). -/

namespace Sys2Proof

/-- The command that a word spells by the table's bits: none, for the table gives none. DESIGN CHOICE, log entry 6. -/
def decodeTableWord (_nbits _w : Nat) : Option Instr := none

end Sys2Proof
end

