-- ==== Sys2Proof/Config.lean ====
section
/-! DEFINITION. What the spec leaves open: free values without a body, and the ciphers, hashes and signatures whose
definitions lie in standards the spec only names (R232, R243, R346, R482, R491, R494, R495). Nothing can be proved about a value of them. -/

namespace Sys2Proof

/-- Free byte number `n`: a byte of an output the spec leaves undefined (Table 0-5, R368, R389). Log entry 2. -/
opaque Config.freeByte : Nat → Byte

/-- Free 32-bit word number `n`: a number the spec leaves open (R175, R184, R243, R450, R553). Log entry 2. -/
opaque Config.freeWord : Nat → W32

/-- Free 128-bit word number `n`: a key or a seed from the random source (R243, R347, R495). Log entry 2. -/
opaque Config.freeKey : Nat → Nat

/-- A native special function with no loaded microprogram, of an FP32 word (R175). Log entry 8. -/
opaque Config.unloadedFunction : Nat → Nat → W32

/-- A ZG40 special function of an FP32 word: the earlier part's results, which the spec does not list (R184). Log entry 8. -/
opaque Config.zg40Function : Nat → Nat → W32

/-- A candidate for DIV of two FP32 words, kept where R175 allows it (Table 7-4). Log entry 8. -/
opaque Config.divCandidate : Nat → Nat → W32

/-- SHA-256 as 32 bytes. Log entry 9. -/
opaque Config.sha256 : List Byte → List Byte

/-- SHA-384 as 48 bytes. Log entry 9. -/
opaque Config.sha384 : List Byte → List Byte

/-- AES-256-GCM seal: key, nonce, additional data, plaintext to ciphertext and tag (R243). DESIGN CHOICE, log entry 9. -/
opaque Config.gcmSeal : Nat → Nat → List Byte → List Byte → List Byte × List Byte

/-- AES-256-GCM open: key, nonce, additional data, ciphertext, tag to plaintext when the tag holds (R244). Log entry 9. -/
opaque Config.gcmOpen : Nat → Nat → List Byte → List Byte → List Byte → Option (List Byte)

/-- AES-256-XTS encryption of a 64-byte subsoil line: key, tweak, plaintext to what the stack holds (R346). Log entry 9. -/
opaque Config.xtsSeal : Nat → Nat → List Byte → List Byte

/-- AES-256-XTS decryption: key, tweak, what the stack holds (R346). Under the key and the tweak of the encryption it gives the
plaintext back. Log entry 9. -/
opaque Config.xtsOpen : Nat → Nat → List Byte → List Byte

/-- The round trip in ns of the PCI Express link, 0, and of Ethernet link `n`, `n + 1`, which estimates of far-field moves count
(Table 13-6). DESIGN CHOICE, log entry 162. -/
opaque Config.roundTrip : Nat → Nat

/-- AES key unwrap (R495): wrap key and wrapped bytes to the key when the integrity check holds. Log entry 9. -/
opaque Config.keyUnwrap : Nat → List Byte → Option Nat

/-- A hedged signature over a message (R484, R491): identity key, randomness, message. Log entry 9. -/
opaque Config.sign : Nat → Nat → List Byte → List Byte

/-- Whether a signature over a message holds under a public key (R482, R490). Log entry 9. -/
opaque Config.verify : List Byte → List Byte → List Byte → Bool

/-- The SHA-256 of the identity public key that the part derives from its PUF and a profile's helper data, by the profile's
digest; none when the correction fails (R483 to R485). Log entry 9. -/
opaque Config.pufIdentity : List Byte → Option Nat

/-- The SHA-384 of the boot ROM (R480, Table 22-4). Log entry 9. -/
opaque Config.romDigest : List Byte

/-- Burulo's PCI-SIG vendor identifier (R428, R491). DESIGN CHOICE, log entry 10. -/
opaque Config.vendorId : Nat

/-- The JTAG identification code (R555). Log entry 10. -/
opaque Config.idcode : Nat

/-- Version bytes of a management protocol, by its MCTP message type or PLDM type (R542). Log entry 10. -/
opaque Config.versionBytes : Nat → List Byte

/-- What a configuration register of another capability reads, which the PCI Express specification defines, by register and the
value last written to it, 0 before (R427, R428). Log entry 10. -/
opaque Config.configValue : Nat → Nat → Nat

end Sys2Proof
end

