-- ==== Sys2Proof/Machine/Bits.lean ====
section
/-! DEFINITION. Bit fields, byte order and saturating counts (R9, R146): the helpers every layout is read through. -/

namespace Sys2Proof.Machine

/-- The field of `len` bits whose lowest bit is bit `lo` of `x` (R9: bit 0 is the least significant). -/
def fld (x lo len : Nat) : Nat := x / 2 ^ lo % 2 ^ len

/-- Bit `i` of `x`. -/
def bitOf (x i : Nat) : Bool := fld x i 1 == 1

/-- Place `v` in the field of `len` bits at `lo`; the caller adds fields that do not overlap. -/
def putFld (v lo len : Nat) : Nat := v % 2 ^ len * 2 ^ lo

/-- A word with a field replaced (R376: the other bits keep their values). -/
def setFld (x lo len v : Nat) : Nat := x - fld x lo len * 2 ^ lo + putFld v lo len

/-- The number a run of bytes spells, little-endian (R9). -/
def ofLe : List Byte → Nat
  | [] => 0
  | b :: bs => b.toNat + 256 * ofLe bs

/-- The `n` bytes of a number, little-endian (R9). -/
def toLe : Nat → Nat → List Byte
  | 0, _ => []
  | n + 1, x => BitVec.ofNat 8 x :: toLe n (x / 256)

/-- A counter of `w` bits that saturates at its all-ones value (R146, R369, R479, R530). -/
def satAdd (w x n : Nat) : Nat := min (x + n) (2 ^ w - 1)

/-- Ceiling division. -/
def ceilDiv (a b : Nat) : Nat := (a + b - 1) / b

/-- A two's complement reading of `w` bits. -/
def signed (w x : Nat) : Int := if x < 2 ^ (w - 1) then (x : Int) else (x : Int) - 2 ^ w

/-- The numbers whose bits are set in a mask of `n` bits, ascending. -/
def bitsOf (n mask : Nat) : List Nat := (List.range n).filter fun i => bitOf mask i

/-- The mask with the bits of a list set. -/
def maskOf (xs : List Nat) : Nat := xs.eraseDups.foldl (fun a i => a + 2 ^ i) 0

/-- The numbers from `a` to `a + n - 1`. -/
def rangeFrom (a n : Nat) : List Nat := (List.range n).map (a + ·)

/-- Set a bit of a mask. -/
def setBit (mask i : Nat) : Nat := if bitOf mask i then mask else mask + 2 ^ i

/-- Clear a bit of a mask. -/
def clearBit (mask i : Nat) : Nat := if bitOf mask i then mask - 2 ^ i else mask

/-- An association list's value at a key. -/
def lookupKey {α : Type} (k : Nat) : List (Nat × α) → Option α
  | [] => none
  | (i, v) :: xs => if i = k then some v else lookupKey k xs

/-- An association list with a key set, its keys kept ascending. -/
def insertKey {α : Type} (k : Nat) (v : α) : List (Nat × α) → List (Nat × α)
  | [] => [(k, v)]
  | (i, w) :: xs => if k < i then (k, v) :: (i, w) :: xs else if i = k then (k, v) :: xs else (i, w) :: insertKey k v xs

/-- An association list without a key. -/
def eraseKey {α : Type} (k : Nat) (xs : List (Nat × α)) : List (Nat × α) := xs.filter fun p => p.1 ≠ k

/-- An element placed in a sorted list, before those that do not come before it. -/
def insertBy {α : Type} (le : α → α → Bool) (x : α) : List α → List α
  | [] => [x]
  | y :: ys => if le x y then x :: y :: ys else y :: insertBy le x ys

/-- A list sorted by an order, equal elements in the order in which they came. -/
def sortBy {α : Type} (xs : List α) (le : α → α → Bool) : List α :=
  match xs with
  | [] => []
  | x :: rest => insertBy le x (sortBy rest le)

/-- A list with its element at `i` changed. -/
def modifyAt {α : Type} (i : Nat) (f : α → α) : List α → List α
  | [] => []
  | x :: xs => match i with
    | 0 => f x :: xs
    | j + 1 => x :: modifyAt j f xs

end Sys2Proof.Machine
end

