-- ==== Sys2Proof/Machine/Numeric.lean ====
section
/-! DEFINITION. The number formats and the arithmetic rules of the device: encodings (R35, R36), exact products (R41),
one rounding to FP32 (R42), narrowing (R49 to R53), special values (R54 to R57) and the basic harrow arithmetic (R58). -/

namespace Sys2Proof.Machine

/-! ### Formats -/

/-- The format a code of Table 2-2 names; 0xB to 0xF are reserved. -/
def fmtOfCode : Nat → Option Fmt
  | 0 => some .fp32 | 1 => some .bf16 | 2 => some .fp16 | 3 => some .e4m3 | 4 => some .e5m2 | 5 => some .int8
  | 6 => some .mxE4M3 | 7 => some .mxE5M2 | 8 => some .mxE2M3 | 9 => some .mxE3M2 | 10 => some .mxE2M1
  | _ => none

/-- The format byte taken apart (R38). -/
def fmtByte (b : Nat) : FmtByte :=
  { reserved := fld b 7 1, sat := bitOf b 6, rmode := fld b 4 2, fmt := fmtOfCode (fld b 0 4) }

/-- The microscaling formats (R36). -/
def isMx : Fmt → Bool
  | .mxE4M3 | .mxE5M2 | .mxE2M3 | .mxE3M2 | .mxE2M1 => true
  | _ => false

/-- Exponent bits of an element (Table 2-1). -/
def expBits : Fmt → Nat
  | .fp32 | .bf16 => 8
  | .fp16 | .e5m2 | .mxE5M2 => 5
  | .e4m3 | .mxE4M3 => 4
  | .mxE3M2 => 3
  | .mxE2M3 | .mxE2M1 => 2
  | .int8 => 0

/-- Mantissa bits of an element (Table 2-1). -/
def manBits : Fmt → Nat
  | .fp32 => 23 | .bf16 => 7 | .fp16 => 10
  | .e4m3 | .mxE4M3 => 3
  | .e5m2 | .mxE5M2 => 2
  | .mxE2M3 => 3 | .mxE3M2 => 2 | .mxE2M1 => 1
  | .int8 => 7

/-- Exponent bias (Table 2-1). -/
def expBias : Fmt → Int
  | .fp32 | .bf16 => 127
  | .fp16 | .e5m2 | .mxE5M2 => 15
  | .e4m3 | .mxE4M3 => 7
  | .mxE3M2 => 3
  | .mxE2M3 | .mxE2M1 => 1
  | .int8 => 0

/-- Width of an element in bits. -/
def elemBits : Fmt → Nat
  | .fp32 => 32
  | .bf16 | .fp16 => 16
  | .e4m3 | .e5m2 | .int8 | .mxE4M3 | .mxE5M2 => 8
  | .mxE2M3 | .mxE3M2 => 6
  | .mxE2M1 => 4

/-- The largest exponent of a largest finite element in R53: emax. -/
def mxEmax : Fmt → Int
  | .mxE4M3 => 8 | .mxE5M2 => 15 | .mxE2M3 => 2 | .mxE3M2 => 4 | .mxE2M1 => 2
  | _ => 0

/-- Largest finite magnitude as `(m, e)`, value `m * 2^e` (Table 2-1). INT8's negative bound is `int8Max`. -/
def maxFinite : Fmt → Nat × Int
  | .fp32 => (2 ^ 24 - 1, 104)
  | .bf16 => (255, 120)
  | .fp16 => (2047, 5)
  | .e4m3 | .mxE4M3 => (14, 5)
  | .e5m2 | .mxE5M2 => (7, 13)
  | .mxE2M3 => (15, -1)
  | .mxE3M2 => (7, 2)
  | .mxE2M1 => (3, 1)
  | .int8 => (127, 0)

/-- The value an element's bits encode (R35, R36): an exponent field of zero encodes zero and subnormals. -/
def elemFV (f : Fmt) (bits : Nat) : FV :=
  match f with
  | .int8 =>
    let v := signed 8 (bits % 256)
    .fin (decide (v < 0)) v.natAbs 0
  | _ =>
    let mb := manBits f
    let eb := expBits f
    let neg := bitOf bits (mb + eb)
    let ex := fld bits mb eb
    let man := fld bits 0 mb
    let normal : FV := if ex = 0 then .fin neg man (1 - expBias f - mb) else .fin neg (man + 2 ^ mb) (ex - expBias f - mb)
    if ex = 2 ^ eb - 1 then
      match f with
      | .fp32 | .bf16 | .fp16 | .e5m2 => if man = 0 then .inf neg else .nan
      | .mxE5M2 => if man = 0 then .inf neg else .nan
      | .e4m3 | .mxE4M3 => if man = 2 ^ mb - 1 then .nan else normal
      | _ => normal
    else normal

/-- An FP32 word as a value (R35). -/
def f32 (w : Nat) : FV := elemFV .fp32 w

/-! ### Exact arithmetic -/

/-- The signed integer `m * 2^(e - q)` of a finite value at a quantum `q` not above `e`. -/
def atQuantum (neg : Bool) (m : Nat) (e q : Int) : Int :=
  let n : Int := m * 2 ^ (e - q).toNat
  if neg then -n else n

/-- Compare two finite magnitudes: `m1 * 2^e1 < m2 * 2^e2`. -/
def magLt (m1 : Nat) (e1 : Int) (m2 : Nat) (e2 : Int) : Bool :=
  let q := min e1 e2
  m1 * 2 ^ (e1 - q).toNat < m2 * 2 ^ (e2 - q).toNat

/-- The exact sum of two values (R42, R55, R57): an exact zero sum is +0 unless both addends are -0. -/
def exactAdd : FV → FV → FV
  | .nan, _ | _, .nan => .nan
  | .inf a, .inf b => if a = b then .inf a else .nan
  | .inf a, .fin .. => .inf a
  | .fin .., .inf b => .inf b
  | .fin na ma ea, .fin nb mb eb =>
    if ma = 0 ∧ mb = 0 then .fin (na && nb) 0 0
    else
      let q := min ea eb
      let s := atQuantum na ma ea q + atQuantum nb mb eb q
      .fin (decide (s < 0)) s.natAbs q

/-- The exact product of two values (R41, R54). -/
def exactMul : FV → FV → FV
  | .nan, _ | _, .nan => .nan
  | .inf a, .inf b => .inf (a != b)
  | .inf a, .fin n m _ => if m = 0 then .nan else .inf (a != n)
  | .fin n m _, .inf b => if m = 0 then .nan else .inf (n != b)
  | .fin na ma ea, .fin nb mb eb => .fin (na != nb) (ma * mb) (ea + eb)

/-- The value with its sign turned. -/
def fneg : FV → FV
  | .nan => .nan
  | .inf a => .inf (!a)
  | .fin n m e => .fin (!n) m e

/-- The magnitude. -/
def fabs : FV → FV
  | .nan => .nan
  | .inf _ => .inf false
  | .fin _ m e => .fin false m e

def isNan : FV → Bool
  | .nan => true
  | _ => false

def isInf : FV → Bool
  | .inf _ => true
  | _ => false

def isZero : FV → Bool
  | .fin _ 0 _ => true
  | _ => false

def fsign : FV → Bool
  | .nan => false
  | .inf n => n
  | .fin n _ _ => n

/-- Multiply by `2^k`, exactly. -/
def scale2 (k : Int) : FV → FV
  | .fin n m e => .fin n m (e + k)
  | x => x

/-- Numeric less-than of IEEE 754 (R58): false when either side is NaN; both zeros compare equal. -/
def flt : FV → FV → Bool
  | .nan, _ | _, .nan => false
  | .inf a, .inf b => a && !b
  | .inf a, .fin .. => a
  | .fin .., .inf b => !b
  | .fin na ma ea, .fin nb mb eb =>
    if ma = 0 ∧ mb = 0 then false
    else
      let q := min ea eb
      decide (atQuantum na ma ea q < atQuantum nb mb eb q)

/-- Numeric equality of IEEE 754. -/
def feq (a b : FV) : Bool := !isNan a && !isNan b && !flt a b && !flt b a

def fle (a b : FV) : Bool := flt a b || feq a b

/-! ### Rounding -/

/-- The three rounding modes of a format byte (R38); `stoch r` carries the 16 bits of R50. -/
inductive RMode where
  | nearest | zero | stoch (r : Nat)
  deriving DecidableEq, Repr

/-- Round `m * 2^e` to a multiple of `2^q` (R49, R50). `src` is the quantum of the FP32 value being narrowed, from
which stochastic rounding counts the discarded bits. Answers the integer multiple. -/
def roundTo (mode : RMode) (m : Nat) (e q src : Int) : Nat :=
  match mode with
  | .nearest =>
    if q ≤ e then m * 2 ^ (e - q).toNat
    else
      let d := (q - e).toNat
      let k := m / 2 ^ d
      let r := m % 2 ^ d
      if 2 ^ d < 2 * r ∨ (2 * r = 2 ^ d ∧ k % 2 = 1) then k + 1 else k
  | .zero => if q ≤ e then m * 2 ^ (e - q).toNat else m / 2 ^ (q - e).toNat
  | .stoch r =>
    if q ≤ e then m * 2 ^ (e - q).toNat
    else
      let d := (q - src).toNat
      let n := if src ≤ e then m * 2 ^ (e - src).toNat else m / 2 ^ (src - e).toNat
      let add := if d ≤ 16 then r % 2 ^ 16 / 2 ^ (16 - d) else r % 2 ^ 16 * 2 ^ (d - 16)
      (n + add) / 2 ^ d

/-- The exponent of the leading bit of a non-zero magnitude: ⌊log2 (m * 2^e)⌋. -/
def leadExp (m : Nat) (e : Int) : Int := (Nat.log2 m : Int) + e

/-- The quantum of format `f` at the binade of a non-zero magnitude, the subnormal range honoured (R42, R56). -/
def quantum (f : Fmt) (m : Nat) (e : Int) : Int :=
  match f with
  | .int8 => 0
  | _ => max (leadExp m e - manBits f) (1 - expBias f - manBits f)

/-- The quantum of the FP32 format at a magnitude. -/
def quantum32 (m : Nat) (e : Int) : Int := quantum .fp32 m e

/-- One rounding of an exact value to FP32, nearest with ties to even, overflowing to an infinity (R42). -/
def round32 : FV → FV
  | .nan => .nan
  | .inf n => .inf n
  | .fin n m e =>
    if m = 0 then .fin n 0 0
    else
      let q := quantum32 m e
      let k := roundTo .nearest m e q q
      let (mm, me) := maxFinite .fp32
      if magLt mm me k q then .inf n else .fin n k q

/-- The bits of a finite multiple `k * 2^q` in format `f`, for a value the format represents. -/
def encodeFin (f : Fmt) (neg : Bool) (k : Nat) (q : Int) : Nat :=
  match f with
  | .int8 => if neg then (256 - k % 256) % 256 else k % 256
  | _ =>
    let mb := manBits f
    let s := (if neg then 1 else 0) * 2 ^ (mb + expBits f)
    if k = 0 then s
    else
      let lead := leadExp k q
      let emin : Int := 1 - expBias f
      if lead < emin then
        let sub := emin - mb
        s + (if sub ≤ q then k * 2 ^ (q - sub).toNat else k / 2 ^ (sub - q).toNat)
      else
        let qq := lead - mb
        let man := if qq ≤ q then k * 2 ^ (q - qq).toNat else k / 2 ^ (qq - q).toNat
        s + (lead + expBias f).toNat * 2 ^ mb + (man - 2 ^ mb)

/-- The canonical NaN of a format (Table 2-1, R54); INT8 writes 0 (R52). -/
def canonNan : Fmt → Nat
  | .fp32 => 0x7FC00000
  | .bf16 => 0x7FC0
  | .fp16 => 0x7E00
  | .e4m3 => 0x7F
  | .e5m2 => 0x7E
  | _ => 0

/-- Positive infinity of a format that has one. -/
def infBits (f : Fmt) (neg : Bool) : Nat :=
  (if neg then 2 ^ (manBits f + expBits f) else 0) + (2 ^ expBits f - 1) * 2 ^ manBits f

/-- The largest finite element of a sign. INT8 reaches -128 (Table 2-1). -/
def maxBits (f : Fmt) (neg : Bool) : Nat :=
  match f with
  | .int8 => if neg then 128 else 127
  | _ => let (m, e) := maxFinite f; encodeFin f neg m e

/-- Table 2-5: what an overflow or an infinite input becomes. -/
def overflowBits (f : Fmt) (sat : Bool) (neg : Bool) : Nat × NumEvent :=
  if sat then (maxBits f neg, .saturated)
  else
    match f with
    | .fp32 | .bf16 | .fp16 | .e5m2 => (infBits f neg, .inf)
    | .e4m3 => (canonNan .e4m3, .nan)
    | _ => (maxBits f neg, .saturated)

/-- Whether a rounded magnitude exceeds the largest finite value of the format (R51). -/
def exceeds (f : Fmt) (neg : Bool) (k : Nat) (q : Int) : Bool :=
  match f with
  | .int8 => magLt (if neg then 128 else 127) 0 k q
  | _ => let (m, e) := maxFinite f; magLt m e k q

/-- Narrow a value to a format (R49 to R52). `src` is the quantum of the value before any block scaling (R50). -/
def narrowAt (f : Fmt) (mode : RMode) (sat : Bool) (src : Int) : FV → Nat × NumEvent
  | .nan => match f with
    | .fp32 | .bf16 | .fp16 | .e4m3 | .e5m2 => (canonNan f, .nan)
    | _ => (canonNan f, .none)
  | .inf n => match f with
    | .fp32 => (infBits .fp32 n, .inf)
    | _ => overflowBits f sat n
  | .fin n m e =>
    if m = 0 then (encodeFin f (n && f != .int8) 0 0, .none)
    else
      let q := quantum f m e
      let k := roundTo mode m e q src
      if exceeds f n k q then
        match mode with
        | .zero => (maxBits f n, .none)
        | _ => match f with
          | .fp32 => (infBits .fp32 n, .inf)
          | _ => overflowBits f sat n
      else (encodeFin f n k q, .none)

/-- The FP32 quantum of a value, 0 where it has none. -/
def srcQuantum : FV → Int
  | .fin _ m e => if m = 0 then 0 else quantum32 m e
  | _ => 0

/-- Narrow an FP32 value to a scalar format (R49 to R52). -/
def narrow (f : Fmt) (mode : RMode) (sat : Bool) (x : FV) : Nat × NumEvent := narrowAt f mode sat (srcQuantum x) x

/-- The FP32 bits of an FP32 value; NaN is written canonical (R54). -/
def bits32 (x : FV) : Nat := (narrow .fp32 .nearest false x).1

/-- The block scale of R53 for the magnitudes of a block. -/
def mxScale (f : Fmt) (xs : List FV) : Nat :=
  if xs.any fun x => isNan x || isInf x then 0xFF
  else
    let amax := xs.foldl (fun a x => if flt a (fabs x) then fabs x else a) (.fin false 0 0)
    match amax with
    | .fin _ m e =>
      if m = 0 then 0
      else (max (-127) (min 127 (leadExp m e - mxEmax f)) + 127).toNat
    | _ => 0xFF

/-- Write a block of up to 32 values: the scale and each element's bits and event (R53). `modes` gives each element's
rounding. With scale 0xFF every element field is 0 and counts as NaN (R59). -/
def narrowMx (f : Fmt) (xs : List (RMode × FV)) : Nat × List (Nat × NumEvent) :=
  let s := mxScale f (xs.map Prod.snd)
  if s = 0xFF then (s, xs.map fun _ => (0, .nan))
  else
    let e : Int := s - 127
    (s, xs.map fun (md, x) => narrowAt f md true (srcQuantum x - e) (scale2 (-e) x))

/-- The value of an MX element under its block scale; scale 0xFF makes it NaN (R36). -/
def mxFV (f : Fmt) (s bits : Nat) : FV := if s = 0xFF then .nan else scale2 (s - 127) (elemFV f bits)

/-! ### Basic harrow arithmetic (R58) -/

def fadd (a b : FV) : FV := round32 (exactAdd a b)
def fsub (a b : FV) : FV := round32 (exactAdd a (fneg b))
def fmul (a b : FV) : FV := round32 (exactMul a b)
def ffma (a b c : FV) : FV := round32 (exactAdd (exactMul a b) c)

/-- Maximum: NaN when either operand is NaN; +0 ranks above -0 (R58, R164, R193). DEDUCED, log entry 15. -/
def fmax (a b : FV) : FV :=
  if isNan a || isNan b then .nan
  else if flt a b then b
  else if flt b a then a
  else if fsign a then b else a

/-- Minimum: NaN when either operand is NaN; -0 ranks below +0. -/
def fmin (a b : FV) : FV :=
  if isNan a || isNan b then .nan
  else if flt a b then a
  else if flt b a then b
  else if fsign a then a else b

def pzero : FV := .fin false 0 0
def fone : FV := .fin false 1 0
def ninf : FV := .inf true

/-- An accumulation step: the exact addend, one rounding (R42). -/
def accStep (c p : FV) : FV := round32 (exactAdd c p)

/-- The fixed binary tree of R48 over partials, with `op` at each node; an odd last element passes up unchanged. -/
def pairUp (op : FV → FV → FV) : List FV → List FV
  | a :: b :: rest => op a b :: pairUp op rest
  | xs => xs

/-- The levels of the tree, `fuel` of them. -/
def treeFuel (op : FV → FV → FV) : Nat → List FV → FV
  | 0, xs => xs.headD pzero
  | n + 1, xs => match xs with
    | [] => pzero
    | [x] => x
    | _ => treeFuel op n (pairUp op xs)

/-- R48: the tree of additions over the partials in chunk order. -/
def tree (op : FV → FV → FV) (xs : List FV) : FV := treeFuel op xs.length xs

/-- The FP32 value nearest to `1/n` (R165, R195). -/
def recipNat (n : Nat) : FV :=
  if n = 0 then .inf false
  else
    -- 1/n with 64 more bits than FP32 holds and a sticky bit, then one rounding.
    let k := Nat.log2 n + 90
    let q := 2 ^ k / n
    let r := 2 ^ k % n
    round32 (.fin false (2 * q + (if r = 0 then 0 else 1)) (-(k : Int) - 1))

/-- The FP32 value nearest to `a/b` of two finite non-zero magnitudes, with the sign given. -/
def quotNearest (neg : Bool) (ma : Nat) (ea : Int) (mb : Nat) (eb : Int) : FV :=
  let k := Nat.log2 mb + 400
  let n := ma * 2 ^ k
  let q := n / mb
  let r := n % mb
  round32 (.fin neg (2 * q + (if r = 0 then 0 else 1)) (ea - eb - k - 1))

/-! ### Loader rules on formats (R39, R40) -/

/-- R39 for an operand the command writes. -/
def fmtLegalOut (b : Nat) : Bool :=
  let f := fmtByte b
  match f.fmt with
  | none => false
  | some t =>
    f.rmode != 3
      && (f.sat || !(t == .int8 || isMx t))
      && !(t == .fp32 && (f.rmode != 0 || f.sat))

/-- R39 for an operand the command only reads. -/
def fmtLegalIn (b : Nat) : Bool :=
  let f := fmtByte b
  f.fmt.isSome && f.rmode == 0 && !f.sat

/-- R40, Table 2-3: the operand pairs of a matrix product. -/
def legalPair (a b : Fmt) : Bool :=
  let fp8 (x : Fmt) := x == .e4m3 || x == .e5m2
  (fp8 a && fp8 b) || (isMx a && isMx b) || (a == b && (a == .int8 || a == .bf16 || a == .fp16))

/-- The worse of two events under R59: NaN first, then infinity, then saturation. -/
def worse : NumEvent → NumEvent → NumEvent
  | .nan, _ | _, .nan => .nan
  | .inf, _ | _, .inf => .inf
  | .saturated, _ | _, .saturated => .saturated
  | .none, .none => .none

end Sys2Proof.Machine
end

