-- ==== Sys2Proof/Machine/Seedline.lean ====
section
/-! DEFINITION. Seedline (R286 to R292) and CRC-32C (R360). -/

namespace Sys2Proof.Machine

/-- Rotate a 32-bit word left. -/
def rotl32 (v : W32) (n : Nat) : W32 := v.rotateLeft n

/-- The round constants A and M of R287. -/
def seedA : W32 := 0x51D28E93
def seedM : Nat := 0xA4F13C6B

/-- A key word of a seed: word `i` is bits [32i+31:32i] (R286). -/
def keyWord (seed : W128) (i : Nat) : W32 := BitVec.ofNat 32 (seed.toNat / 2 ^ (32 * (i % 4)))

/-- Round `n` of R287 on the four words. -/
def seedRound (seed : W128) (n : Nat) (x : W32 × W32 × W32 × W32) : W32 × W32 × W32 × W32 :=
  let (x0, x1, x2, x3) := x
  let a := x0 + keyWord seed n + BitVec.ofNat 32 n * seedA
  let p := a.toNat * seedM
  let b := x1 ^^^ BitVec.ofNat 32 (p / 2 ^ 32)
  let c := x2 + BitVec.ofNat 32 p
  let d := x3 ^^^ rotl32 c 13 ^^^ keyWord seed (n + 2)
  (d, a, b, c)

/-- The 128-bit draw of R287 for a counter of four words, as its four lanes. -/
def seedDraw (seed : W128) (c0 c1 c2 c3 : W32) : W32 × W32 × W32 × W32 :=
  let (x0, x1, x2, x3) := (List.range 12).foldl (fun x n => seedRound seed n x) (c0, c1, c2, c3)
  (x0 + keyWord seed 0, x1 + keyWord seed 1, x2 + keyWord seed 2, x3 + keyWord seed 3)

/-- The lane of the element at coordinate `(x2, x1, x0)` under draw stream number `s` (R286). -/
def seedLane (seed : W128) (s x2 x1 x0 : Nat) : W32 :=
  let (d0, d1, d2, d3) :=
    seedDraw seed (BitVec.ofNat 32 (x0 % 2 ^ 32 / 4)) (BitVec.ofNat 32 x1) (BitVec.ofNat 32 x2) (BitVec.ofNat 32 s)
  match x0 % 4 with
  | 0 => d0
  | 1 => d1
  | 2 => d2
  | _ => d3

/-- R292: the 16 bits of stochastic rounding, L[31:16]. -/
def stochBits (lane : W32) : Nat := lane.toNat / 2 ^ 16

/-- R292: the uniform value L[31:8] * 2^-24. -/
def uniform (lane : W32) : FV := .fin false (lane.toNat / 2 ^ 8) (-24)

/-- The rounding mode of a format byte with its draw (R38, R50). -/
def rmodeOf (b : Nat) (draw : Unit → W32) : RMode :=
  match (fmtByte b).rmode with
  | 1 => .zero
  | 2 => .stoch (stochBits (draw ()))
  | _ => .nearest

/-- One bit of the reflected Castagnoli division (R360): the reflected form of 0x1EDC_6F41. -/
def crcBit (c : W32) : W32 := if c.getLsbD 0 then (c >>> 1) ^^^ 0x82F63B78 else c >>> 1

/-- The running CRC register after one more byte. -/
def crcByte (c : W32) (b : Byte) : W32 :=
  (List.range 8).foldl (fun x _ => crcBit x) (c ^^^ BitVec.ofNat 32 b.toNat)

/-- The running CRC register after more bytes (R360). -/
def crcBytes (c : W32) (bs : List Byte) : W32 := bs.foldl crcByte c

/-- CRC-32C of a byte string: preset to ones, result complemented (R243, R360). -/
def crc32c (bs : List Byte) : W32 := crcBytes 0xFFFFFFFF bs ^^^ 0xFFFFFFFF

end Sys2Proof.Machine
end

