-- ==== Sys2Proof/Machine/State.lean ====
section
/-! DEFINITION. The device's state as plain data, grouped as the spec's chapters group it, and the state right after
reset. Registers are numbers below two to their width; fields are read with the helpers of Bits.lean. -/

namespace Sys2Proof.Machine

/-! ### Statuses (Table 3-6) -/

/-- The status codes, by the names of Table 3-6 (R93). `statusCode` gives their numbers. -/
inductive Status where
  | completed | completedWindowStall | completedRecompute | completedLate
  | loadBadOpcode | loadWrongEngine | loadBadLength | loadReservedNonzero | loadClassMismatch | loadBadFence
  | loadBadRecord | loadBadStream | loadSeedUnset | loadBadFormat | loadUnitDisabled | loadBadShape
  | loadModeForbidden | loadAlign | loadBounds | loadTileCount | loadAccCapacity | loadTilthCapacity | loadQuota
  | loadBeTooLong
  | memUncorrectable | memFarTimeout | memUnbacked | memUnmapped | memBusError | memRecomputeFailed | memRemoteRefused
  | numNanOut | numInfOut | numSaturated
  | streamBadState | streamTableFull | streamForkLimit | streamNoRoom | streamBlobCorrupt | streamBlobMismatch
  | secBlobAuth | secPartition | secKeyAbsent | secSignature
  | pwrThermal | pwrRefused
  | faultUnrecovered | faultLink | faultWatchdog
  | aborted | abortTooLate | abortUpstream | abortTick | abortReset
  deriving DecidableEq, Repr

/-- A status with its two details (R566): how a check or an execution ends. -/
structure Fail where
  status : Status
  a : Nat
  b : Nat
  deriving DecidableEq, Repr

/-- The result a command leaves for its commit: status, details and finished work (Table 3-3). -/
structure Result where
  status : Status
  a : Nat
  b : Nat
  work : Nat
  deriving DecidableEq, Repr

/-! ### Memory (Table 13-2) -/

/-- Sparse bytes by address: addresses strictly rising, no byte equal to 0, which is what an unlisted address reads as
(loam is zeroed at start, R533; other memory: log entry 5). -/
abbrev Memory := List Host.Cell

/-- Where the bytes of a plot live (R308, Table 13-4 home). -/
inductive Home where
  | loam (frame : Nat)
  | subsoil (frame : Nat)
  | host
  | remote
  | unbacked (frame : Nat)
  | window (w : Nat)
  deriving DecidableEq, Repr

/-- A far-field anchor of a partition (R309, R435, R436): a host bus address with the function whose requester ID its
requests carry, or a queue pair with a remote key and address. -/
inductive Anchor where
  | host (addr fn : Nat)
  | remote (qp key addr : Nat)
  deriving DecidableEq, Repr

/-- A plot entry (Table 13-4). -/
structure Plot where
  home : Home
  anchor : Option Nat
  read : Bool
  write : Bool
  auto : Bool
  moving : Bool
  uses : Nat
  lastUse : Nat
  deriving DecidableEq, Repr

/-- Why a plot is being moved: by a command (R315), by fault handling (R517), or by automatic migration (R317), a demotion with the
plot whose promotion waits for its frame; the place in the plot's order of an unmap that waits behind it (R313); or a page of a pool
that a PAGE_PIN moves to a loam slot (R269), its identifier and slot in the fields of the plot and the destination. -/
inductive MoveCause where
  | command (q : Nat)
  | page (q pool : Nat)
  | unmap (fn box : Nat)
  | rehome
  | promote
  | demote (next : Option Nat)
  deriving DecidableEq, Repr

/-- A write that waits for a plot move to end (R312): when it came, its queue (256 for a write of no queue), and its bytes at an
offset in the plot. -/
structure Held where
  time : Nat
  q : Nat
  off : Nat
  bytes : List Byte
  deriving DecidableEq, Repr

/-- A plot move: its destination is reserved (R311, Table 13-5); `active` when it has one of the mover's 16 slots,
with the writes that wait for it, oldest first (R312). -/
structure Move where
  part : Nat
  plot : Nat
  dest : Home
  cause : MoveCause
  index : Nat
  active : Bool
  writes : List Held
  deriving DecidableEq, Repr

/-- An entry of the write-combining buffer (R337): line address, enabled bytes by offset, owner, contributing queues. -/
structure WcbEntry where
  line : Nat
  bytes : List (Nat × Byte)
  part : Nat
  queues : List Nat
  lastMerge : Nat
  deriving DecidableEq, Repr

/-- Counts and condition of one subsoil channel (Table 14-4). -/
structure SubChannel where
  corrected : Nat
  onDie : Nat
  uncorrectable : Nat
  scrubPasses : Nat
  failed : Bool
  recent : List Nat
  deriving DecidableEq, Repr

/-- The memories behind the address map (R301 to R305). `phys` has the bytes of loam and, as plaintext under the key with which each
line was written, those of subsoil (R346): `keys` gives the key of a subsoil line written by itself, `frameKeys` that of the lines of
a frame written whole; `devKey` encrypts lines that no partition owns; `lcRun` counts the grants to LC moves since the last one to a
BE move (R323). -/
structure MemSys where
  phys : Memory
  keys : List (Nat × Nat)
  frameKeys : List (Nat × Nat)
  devKey : Nat
  host : Memory
  remote : Memory
  poison : List Nat
  wcb : List WcbEntry
  moves : List Move
  lcRun : Nat
  channels : List SubChannel
  epoch : Nat
  deriving DecidableEq, Repr

/-! ### Streams (R229 to R242) -/

/-- Stream states (Table 10-1); an entry that is absent from the table is FREE. -/
inductive StreamSt where
  | idle | resident | parked | exported | retired
  deriving DecidableEq, Repr

/-- A directory entry of a stream's KV (Table 11-2). -/
structure DirEntry where
  page : Nat
  pin : Bool
  deriving DecidableEq, Repr

/-- A stream's KV root (R257): its pool, the directory unit holding the root, token counts by layer, directory units by
layer, and directory entries by `layer * 4096 + page index`. -/
structure KvRoot where
  pool : Nat
  unit : Nat
  tokens : List (Nat × Nat)
  units : List (Nat × List Nat)
  dir : List (Nat × DirEntry)
  deriving DecidableEq, Repr

/-- A stream descriptor (Table 10-1). `image` lists the loam frames of a fallow image. -/
structure Stream where
  part : Nat
  st : StreamSt
  layout : Nat
  model : Nat
  parent : Nat
  tag : Nat
  step : Nat
  cohort : Nat
  row : Nat
  image : List Nat
  imageAddr : Nat
  blobUnits : Nat
  kv : Option KvRoot
  kvTokens : Nat
  lastStatus : Nat
  dirty : Bool
  transit : Bool
  undef : Bool
  lost : Bool
  deriving DecidableEq, Repr

/-! ### Queues (R64 to R82) -/

/-- Queue states (Table 3-1). -/
inductive QState where
  | disabled | empty | fetch | wait | check | run | halted
  deriving DecidableEq, Repr

/-- What firmware gives an enabled queue (R64, R401, Table 17-3), and the function that enabled it (R429, R444). -/
structure QueueCfg where
  kind : Nat
  part : Nat
  be : Bool
  halt : Bool
  ringLog2 : Nat
  channel : Nat
  vector : Nat
  base : Nat
  owner : Nat
  deriving DecidableEq, Repr

/-- A taker of work items: a matrix engine or a furrow's harrow (R129, R404). -/
inductive Taker where
  | engine (e : Nat)
  | harrow (f : Nat)
  deriving DecidableEq, Repr

/-- A work item held by a taker (R129, R130): its queue, its number below W, its tiles that have not drained yet,
ascending, and whether an abort found its first output past stage 12, so that it finishes (R88). -/
structure Item where
  q : Nat
  index : Nat
  tiles : List Nat
  out : Bool
  deriving DecidableEq, Repr

/-- The shape in which a command's work is handed out (R127, R128, R135, R216, R224): how many items there are, the grid
of tiles and groups, the number of chunks (of a split; `scan` for a chunked scan, else 0), the passes over k and those of the last
chunk, the extents and those of a tile (R114) or, where items are groups of cohorts, the rows of each item's tiles (R216), the passes
of the harrow over a tile (R167) and the tiles whose words it holds together (R186), the slots
and the spill mode with the tilth banks left over (R140), and whether furrows or engines take it. -/
structure Grid where
  items : Nat
  tiles : Nat
  tm : Nat
  tn : Nat
  gm : Nat
  gn : Nat
  byColumn : Bool
  chunks : Nat
  passes : Nat
  lastPasses : Nat
  m : Nat
  n : Nat
  mt : Nat
  nt : Nat
  itemRows : List Nat
  harrowPasses : Nat
  gates : Nat
  slots : Nat
  live : Nat
  spill : Nat
  spare : Nat
  harrowOnly : Bool
  overlap : Bool
  split : Bool
  holds : Bool
  haloWidth : Nat
  halo : List Bool
  scan : Nat
  deriving DecidableEq, Repr

/-- Progress of a command whose work the takers share (R130 to R136, R224, R404): the grant, tiles written, split-K
arrivals and ready positions by tile, the values drawn by (item, tile), the reducers by tile, tiles bound to an engine
(R110, R216), the furrows' last staged tiles (R143), the scan's finished phases with the furrows that finished phase 1 last and that
ran phase 2 (R224), the words of each item's tiles that wait to be combined and the split scratch by tile and position with the
partial's chunk (R134, R135), the tiles in a spill area, by engine, with whether each lies in loam (R140), and the items that must
finish before an item is handed out (R265). -/
structure Work where
  grid : Grid
  closed : Bool
  grantEngines : List Nat
  grantHarrows : List Nat
  written : Nat
  arrivals : List (Nat × Nat)
  ready : List (Nat × Nat)
  drawn : List (Nat × Nat)
  reducers : List (Nat × Nat)
  bound : List (Nat × Nat)
  staged : List (Nat × Nat)
  phase1 : List Nat
  phase2 : List Nat
  finisher : List (Nat × Nat)
  scanner : List (Nat × Nat)
  partials : List (Nat × List Nat)
  scratch : List (Nat × Nat × List Nat)
  spilled : List (Nat × Nat × Bool)
  after : List (Nat × List Nat)
  deriving DecidableEq, Repr

/-- What an ATTEND appends to a stream's layer: new tokens, and the new pages by page index (R264). -/
structure Append where
  stream : Nat
  pool : Nat
  layer : Nat
  count : Nat
  pages : List (Nat × Nat)
  deriving DecidableEq, Repr

/-- The command at the head of a queue: its header and body bits; the time its execution began; its stage-B order (R405) and the seed
taken there (R284); the output spans that become undefined when it ends early (Table 0-5); the window positions it reads and since
when it waits for them (R321); the streams it names; the frames, quota units and page slots (pool, count) it gives back at commit; the
extents it reads; what it appends (R264); the descriptors it changed as they were before it (R252); the blob key it has taken (R495);
the number of a window fill, and whether it has begun to write its slot (R320); whether it has put page moves in motion (R269); the
tile descriptor or the stream list as the loader has read it (R82); why a write of its own failed later, in the write-combining buffer
(R340) or behind a plot move (R312); the result already fixed while plot moves in slots or a started message finish (R88, R315, R459);
plots it has moved (R315); and its work. -/
structure Cmd where
  hdr : Nat
  body : Nat
  start : Option Nat
  order : Nat
  seed : Option W128
  outs : List (Nat × Nat)
  reads : List (Nat × Nat)
  windows : List (Nat × Nat)
  waiting : Option Nat
  stall : Option Nat
  streams : List Nat
  resFrames : List Nat
  chargeLoam : Nat
  chargeSub : Nat
  reserved : List (Nat × Nat)
  appends : List Append
  undo : List (Nat × Option Stream)
  key : Option Nat
  fill : Option (Nat × Bool)
  paging : Bool
  late : Option Fail
  loaded : List Nat
  ending : Option Result
  done : Nat
  work : Option Work
  deriving DecidableEq, Repr

/-- First failed command of a queue (R81). -/
structure ErrCapture where
  count : Nat
  status : Nat
  seq : Nat
  opcode : Nat
  deriving DecidableEq, Repr

/-- The dispatch and event counters of a queue (R146, Table 5-5, Table 27-6). -/
structure QueueCounts where
  itemsTaken : Nat
  redispatched : Nat
  windowStalls : Nat
  splitReduce : Nat
  spillSwaps : Nat
  haloLink : Nat
  haloMem : Nat
  normClamp : Nat
  scatterDrop : Nat
  deriving DecidableEq, Repr

/-- A hardware queue (R64, R65). `counter` is its tile counter (R28), `redispatch` its redispatch list (R133), `held` the
problem M, N, Mt, Nt and tile count of the tiles it holds, empty when it holds none (R110); `doomed` the sequence numbers
not fetched yet whose status an abort has fixed (R88); `since` the time at which the queue came to FETCH, or left WAIT (R327). -/
structure Queue where
  cfg : QueueCfg
  state : QState
  head : Nat
  tail : Nat
  seq : Nat
  since : Nat
  cmd : Option Cmd
  result : Option Result
  counter : Nat
  redispatch : List Nat
  held : List Nat
  doomed : List (Nat × Status)
  err : ErrCapture
  counts : QueueCounts
  deriving DecidableEq, Repr

/-! ### Partitions (R394 to R400) -/

/-- A fence word: value bits [62:0] and error bit [63] (R73). -/
structure Fence where
  value : Nat
  err : Bool
  deriving DecidableEq, Repr

/-- A state record's entry in a layout slot (R205, R231). -/
structure Record where
  n : Nat
  fmt : Nat
  carry : Bool
  deriving DecidableEq, Repr

/-- A layout slot (R231). -/
structure Layout where
  model : Nat
  records : List Record
  deriving DecidableEq, Repr

/-- State of a weight-window slot (Table 13-9); a READY slot keeps its decoded length for reads beyond it (R321). -/
inductive WinState where
  | empty
  | filling (pos len : Nat)
  | ready (pos len : Nat)
  | failed (pos : Nat) (why : Fail)
  deriving DecidableEq, Repr

/-- A weight-window slot: its loam frames, its state and the queues whose command reads it (R320). -/
structure WinSlot where
  frames : List Nat
  st : WinState
  readers : List Nat
  deriving DecidableEq, Repr

/-- A weight window (R319): base plot, positions, slot size in plots, and its slots; `fills` counts WINDOW_FILLs (R320). -/
structure Window where
  base : Nat
  positions : Nat
  slotPlots : Nat
  slots : List WinSlot
  fills : Nat
  deriving DecidableEq, Repr

/-- Where a KV page is (Table 11-3 home); a free page has no record. -/
inductive PageHome where
  | loam (slot : Nat)
  | subsoil (slot : Nat)
  | dropped
  deriving DecidableEq, Repr

/-- A KV page record (Table 11-3). -/
structure Page where
  home : PageHome
  wTag : Nat
  lastUse : Nat
  refs : Nat
  pins : Nat
  fill : Nat
  layer : Nat
  busy : Bool
  srcLost : Bool
  deriving DecidableEq, Repr

/-- KV pool counts (Table 11-8). -/
structure PoolCounts where
  appended : Nat
  copied : Nat
  demoted : Nat
  fetched : Nat
  dropped : Nat
  recomputed : Nat
  recomputeNs : Nat
  failed : Nat
  deriving DecidableEq, Repr

/-- A configured KV pool (Table 11-1) with the frames it took, its allocated pages and directory units (R256, R257). -/
structure Pool where
  fmtKv : Nat
  fmtX : Nat
  hkv : Nat
  dh : Nat
  inDim : Nat
  layers : Nat
  pages : Nat
  loamSlots : Nat
  subSlots : Nat
  dirUnits : Nat
  loamFrames : List Nat
  subFrames : List Nat
  recs : List (Nat × Page)
  unitsUsed : List Nat
  counts : PoolCounts
  deriving DecidableEq, Repr

/-- A blob-key slot's content: the key and how it came (R495): 1 unwrapped, 2 generated. -/
structure BlobKey where
  key : Nat
  origin : Nat
  deriving DecidableEq, Repr

/-- An abandon entry of a SWATH_STEP (R250). -/
structure Abandon where
  q : Nat
  last : Nat
  deriving DecidableEq, Repr

/-- A boundary move (R249): stream, operation, and the units and frames reserved for its image (R241). -/
structure BMove where
  id : Nat
  op : Nat
  units : Nat
  frames : List Nat
  deriving DecidableEq, Repr

/-- An open SWATH_STEP (R247): its queue and sequence, streams, boundary moves, fences, tick, the address of its
publication record, its abandon entries and when it overran. -/
structure Swath where
  q : Nat
  seq : Nat
  streams : List Nat
  moves : List BMove
  doneFence : Nat
  doneValue : Nat
  tick : Nat
  pub : Nat
  abandon : List Abandon
  doneAt : Option Nat
  overrunAt : Option Nat
  deriving DecidableEq, Repr

/-- An executing NET_BARRIER (R456): its queue, identifier, epoch and queue pairs, when its tokens were sent, the list
indices whose token has arrived, the last of them, and whether every token was held when it sent its own (R458). -/
structure Barrier where
  q : Nat
  ident : Nat
  epoch : Nat
  qps : List Nat
  sent : Nat
  arrived : List Nat
  last : Nat
  paced : Bool
  deriving DecidableEq, Repr

/-- The configuration of a partition (Table 17-2). -/
structure PartCfg where
  repeatable : Bool
  zg40 : Bool
  abandon : Bool
  bindPf : Bool
  firstCol : Nat
  cols : Nat
  vfMask : Nat
  drillMask : Nat
  groupMask : Nat
  extraWays : Nat
  firstQueue : Nat
  queues : Nat
  firstStream : Nat
  streams : Nat
  quotaLoam : Nat
  quotaSub : Nat
  quotaFar : Nat
  regRate : Nat
  regBurst : Nat
  hostTimeout : Nat
  remoteTimeout : Nat
  promote : Nat
  demote : Nat
  moveLimit : Nat
  beBound : Nat
  deriving DecidableEq, Repr

/-- The memory and subsoil counts of a partition (Tables 13-14 and 14-4). -/
structure MemCounts where
  plotMoves : Nat
  promoted : Nat
  demoted : Nat
  moveFailed : Nat
  writeWaitNs : Nat
  windowFills : Nat
  windowFailed : Nat
  windowStalls : Nat
  windowStallNs : Nat
  uncorrectable : Nat
  farTimeouts : Nat
  subRead : Nat
  subWrite : Nat
  throttleNs : Nat
  wcbMerges : Nat
  wcbRmw : Nat
  wcbFullWaitNs : Nat
  deriving DecidableEq, Repr

/-- The other counts of a partition (Tables 10-12, 27-15, R66, R425, R458). -/
structure PartCounts where
  dbReject : Nat
  movesFailed : Nat
  tickLate : Nat
  tickLateNs : Nat
  tickAbandoned : Nat
  tickCommits : Nat
  netBarriers : Nat
  barrierWaitNs : Nat
  barrierLast : Nat
  deriving DecidableEq, Repr

/-- A barrier token held for a NET_BARRIER that has not come yet (R456): queue pair, tag and epoch it carries. -/
structure Token where
  qp : Nat
  tag : Nat
  epoch : Nat
  deriving DecidableEq, Repr

/-- A partition (R394, Table 17-1): configuration and everything it owns. The used words are its quota charges (R318). -/
structure Partition where
  configured : Bool
  cfg : PartCfg
  digest : List Byte
  fences : List (Nat × Fence)
  seeds : List (Nat × W128)
  layouts : List (Nat × Layout)
  pools : List (Nat × Pool)
  windows : List (Nat × Window)
  plots : List (Nat × Plot)
  anchors : List (Nat × Anchor)
  usedLoam : Nat
  usedSub : Nat
  tokens : Nat
  tokenTime : Nat
  key : Option Nat
  wrapKey : Option Nat
  blobKeys : List (Nat × BlobKey)
  swaths : List Swath
  deferred : List BMove
  barriers : List Barrier
  barrierTokens : List Token
  barrierEpochs : List (Nat × Nat)
  mem : MemCounts
  counts : PartCounts
  deriving DecidableEq, Repr

/-- A cohort of resident streams (R206, R239): members by row, and per record slot its list of granules, numbered
`engine * 64 + granule`. -/
structure Cohort where
  part : Nat
  layout : Nat
  members : List (Nat × Nat)
  granules : List (List Nat)
  deriving DecidableEq, Repr

/-! ### Engines and furrows (R18, R105, Table 4-4) -/

/-- Accumulator slot states (Table 4-4). -/
inductive SlotSt where
  | free | accum | drain | held | state
  deriving DecidableEq, Repr

/-- An accumulator slot: state, the queue and tile it belongs to, and whether a held tile was lost (R109, R112). -/
structure Slot where
  st : SlotSt
  q : Nat
  tile : Nat
  lost : Bool
  deriving DecidableEq, Repr

/-- A matrix engine: its 16 slots, the items it holds (R105, R129), the command it serves as its queue and whether it
was taken under the fallback rule (R405), and its two sets of stationary operand registers, the last one loaded first, each by the
number of the free value that gives its first word (R95). -/
structure Engine where
  slots : List Slot
  items : List Item
  cur : Option (Nat × Bool)
  operands : List Nat
  deriving DecidableEq, Repr

/-- A tile in a harrow's intake buffer, or the gate tiles of one block, which leave it together (R168, R186): engine and queue, when
the first drain started, words, tiles that have arrived and tiles that the set needs, the passes of the harrow over an element, and
the thousandths of an ACLK that the harrow still needs for them. -/
structure Drained where
  engine : Nat
  q : Nat
  start : Nat
  words : Nat
  gates : Nat
  need : Nat
  passes : Nat
  left : Nat
  deriving DecidableEq, Repr

/-- A harrow: the items it holds, the tiles in its intake buffer in the order in which their drains started (R168), and the command
it serves as for an engine. -/
structure Harrow where
  items : List Item
  intake : List Drained
  cur : Option (Nat × Bool)
  deriving DecidableEq, Repr

/-- A tender (R17): the RV32IMFC core's program counter, integer and floating-point registers, floating-point control and status
register, and privilege mode. Its code is not stepped. DESIGN CHOICE, log entry 153. -/
structure Tender where
  pc : Nat
  x : List Nat
  f : List Nat
  fcsr : Nat
  user : Bool
  deriving DecidableEq, Repr

/-- The field: engines, harrows, tenders (T0 and T1 of furrow f are `2f` and `2f + 1`), accumulator words, tilth and tender SRAM (R17,
R18, R105, R301). `accum` is addressed by `engine * 0x40000 + slot * 0x4000 + row * 0x100 + column * 4`, `tilth` by `furrow * 0x300000
+ offset`, `sram` by `tender * 0x10000 + offset`. -/
structure Field where
  engines : List Engine
  harrows : List Harrow
  tenders : List Tender
  accum : Memory
  tilth : Memory
  sram : Memory
  deriving DecidableEq, Repr

/-! ### The tick unit (R412 to R425) -/

/-- Tick unit states (Table 18-2). -/
inductive TickSt where
  | off | acquire | track | holdover
  deriving DecidableEq, Repr

/-- The tick unit: what TICK_CONFIG set (Table 18-1), the tracked period and next edge, whether the next edge is the first
since TICK_CONFIG, the last tick and its edge, the counts of Table 18-5, when the next local candidate arises (R415), and
the ticks latched so far with their edges, latest first (R421). -/
structure Tick where
  st : TickSt
  source : Nat
  falling : Bool
  port : Nat
  holdover : Nat
  pnom : Nat
  slew : Nat
  first : Nat
  phase : Nat
  fresh : Bool
  pn : Nat
  next : Nat
  lastDev : Nat
  misses : Nat
  wasLost : Bool
  accepted : Nat
  refused : Nat
  synth : Nat
  losses : Nat
  localNext : Nat
  latches : List (Nat × Nat)
  deriving DecidableEq, Repr

/-! ### The drill (R354 to R371) -/

/-- Channel states (Table 15-1). -/
inductive ChSt where
  | disabled | idle | run | halted
  deriving DecidableEq, Repr

/-- Counters of a channel (Table 15-4). -/
structure ChCounts where
  cmds : Nat
  desc : Nat
  retries : Nat
  halts : Nat
  disables : Nat
  rdBytes : Nat
  wrBytes : Nat
  curDesc : Nat
  deriving DecidableEq, Repr

/-- A drill channel: its partition, disable bit and state, the queue it serves and the one it served last (R355), its
descriptor store with the addresses of its descriptors, its running CRC, the errors of the lines under retry as (descriptor,
offset, errors) (R365), the last halt status, its counters, and whether a disable has left some of them undefined (R369). -/
structure Channel where
  part : Option Nat
  disable : Bool
  st : ChSt
  cur : Option Nat
  last : Nat
  store : List (Nat × Nat)
  crc : W32
  retry : List (Nat × Nat × Nat)
  haltStatus : Nat
  counts : ChCounts
  loose : Bool
  deriving DecidableEq, Repr

/-! ### The network (R446 to R459) -/

/-- Queue-pair states; FREE queue pairs are absent (Table 20-5). -/
inductive QpSt where
  | ready | error
  deriving DecidableEq, Repr

/-- A queue pair (R450): its partition, state, the status that an ERROR gives those who use it (R451), context (Table 20-3), local
key, packet sequence numbers, transport retries spent, whether writes to remote plots wait for their acknowledgement (R364), and the
queues whose commands wait for an acknowledgement or for a message, oldest first (R455). -/
structure Qp where
  part : Nat
  st : QpSt
  cause : Status
  ctx : Nat
  key : Nat
  sqPsn : Nat
  rqPsn : Nat
  tries : Nat
  unacked : Bool
  sends : List Nat
  recvs : List Nat
  deriving DecidableEq, Repr

/-- An answer or message that the device has put on the wire of a queue pair. -/
inductive Wire where
  | send (qp imm : Nat) (bytes : List Byte)
  | write (qp addr : Nat) (imm : Option Nat) (bytes : List Byte)
  | token (qp imm epoch : Nat)
  | readReply (qp : Nat) (bytes : List Byte)
  | ack (qp : Nat)
  | rnrNak (qp : Nat)
  | nak (qp : Nat)
  deriving DecidableEq, Repr

/-- A link (R446, R447, R453): whether it is up, its IP address, its connectivity key, with the key's 16-byte name above its 256
bits, and secure association, and the
counters of Table 20-8. -/
structure Link where
  up : Bool
  ip : Nat
  mac : Nat
  cak : Option Nat
  sa : Option Nat
  txBytes : Nat
  rxBytes : Nat
  retransmits : Nat
  cnpRx : Nat
  rxDrop : Nat
  macsecDrop : Nat
  deriving DecidableEq, Repr

/-- A port (Table 20-1, R454): its configuration word, PTP synchronisation, consecutive Sync messages within 250 ns, its
last offset in ns, the offset of its clock from device time, and whether PFC pauses its priority. -/
structure Port where
  cfg : Nat
  sync : Bool
  good : Nat
  offset : Int
  clock : Int
  paused : Bool
  deriving DecidableEq, Repr

/-- The network side. -/
structure Net where
  ports : List Port
  links : List Link
  qps : List (Nat × Qp)
  wire : List Wire
  deriving DecidableEq, Repr

/-! ### Functions (R372 to R393, R430 to R444) -/

/-- Mailbox states (Table 16-5). -/
inductive MbxState where
  | free | posted | taken | replied
  deriving DecidableEq, Repr

/-- A mailbox: control register fields and its two buffers (R387, Table 16-4). `order` numbers its post (R390); `held` is
the reeve whose watchdog expired while it served the request (R507); `begun` tells that a taken request has done a part of its
work and goes on (R527, R569). -/
structure Mailbox where
  state : MbxState
  irq : Bool
  lastStatus : Nat
  request : List Byte
  reply : List Byte
  order : Nat
  held : Option Nat
  begun : Bool
  deriving DecidableEq, Repr

/-- A captured trapped write (R380): its window offset, its length in bytes and its data. -/
structure Trap where
  off : Nat
  size : Nat
  val : Nat
  deriving DecidableEq, Repr

/-- A function: the PF (0) or VF 1 to 4. Trap words of Table 16-3, mailboxes, per-function registers (R559), MSI-X table
and pending bits (R439), power state, command register and the host's configuration writes (R428 to R430). -/
structure Function where
  traps : List Trap
  trapAccepted : Nat
  trapDropped : Nat
  trapApplied : Nat
  trapRefused : Nat
  trapRefusedAddr : Nat
  trapOvf : Bool
  mailboxes : List Mailbox
  wrDiscard : Nat
  postIgnored : Nat
  queSel : Nat
  abortFirst : Nat
  abortResult : Nat
  qpCtx : List Nat
  qpResult : Nat
  linkAddrLow : List Nat
  event : Nat
  msix : List W128
  pba : Nat
  deriving DecidableEq, Repr

/-- A function as PCI Express sees it (R428 to R430, R436, R444): power state, Bus Master Enable, configuration words
written by the host, reset in progress, and messages sent by MSI-X entry (R441). -/
structure PciFn where
  enabled : Bool
  bme : Bool
  d3hot : Bool
  resetting : Bool
  config : List (Nat × Nat)
  sent : List Nat
  lastWrite : Option Nat
  deriving DecidableEq, Repr

/-- An IDE stream (R443): its key, whether it is Secure, and its range of functions and addresses. -/
structure IdeStream where
  secure : Bool
  key : Option Nat
  firstFn : Nat
  lastFn : Nat
  firstAddr : Nat
  lastAddr : Nat
  deriving DecidableEq, Repr

/-- The PCI Express link (Table 19-4, R426, R434): rate code, width, flit mode, counters, IDE streams (0 the link's, 1 to 4
the Selective ones), VF Enable and NumVFs (R430), Device and Function Readiness Status messages sent (0 the device, fn + 1 a
function), and IDE check failures reported under AER. -/
structure Pcie where
  linkUp : Bool
  trained : Bool
  speed : Nat
  width : Nat
  flit : Bool
  retrains : Nat
  poisonRx : Nat
  cplTimeout : Nat
  ide : List IdeStream
  fns : List PciFn
  vfEnable : Bool
  numVfs : Nat
  readiness : List Nat
  aer : Nat
  deriving DecidableEq, Repr

/-- A page of a function's register shadow (R377): seq, stamp and the words that firmware last wrote, by offset. -/
structure ShadowPage where
  seq : Nat
  stamp : Nat
  words : List (Nat × Nat)
  deriving DecidableEq, Repr

/-! ### Start-up and firmware (R499 to R513, R531 to R541, R577) -/

/-- Whether the device runs: held in reset by PERST#, running, stopped by the hard trip (R475), or stopped by a rail
(R547). -/
inductive DevSt where
  | held | run | tripped | railStop
  deriving DecidableEq, Repr

/-- SHD_BOOT_CTRL.state (Table 23-4). -/
inductive BootSt where
  | idle | fetch | check | running | failed | fwFailed
  deriving DecidableEq, Repr

/-- How far a live update has come (R511). -/
inductive UpdSt where
  | quiescing | saved | switched
  deriving DecidableEq, Repr

/-- A live update: the mailbox that asked for it, the new and the old image, and its stage. -/
structure Update where
  fn : Nat
  box : Nat
  image : Image
  old : Image
  stage : UpdSt
  deriving DecidableEq, Repr

/-- A reeve (R499, R500): held in reset or running, the RV64IMAC core's program counter in firmware SRAM, integer registers and
privilege mode, and the ranges that its memory protection marks execute-only, as (offset, length). Its code is not stepped. DESIGN CHOICE,
log entry 153. -/
structure Reeve where
  held : Bool
  pc : Nat
  x : List Nat
  user : Bool
  execOnly : List (Nat × Nat)
  deriving DecidableEq, Repr

/-- Start-up and firmware: the device's condition and milestones (Table 25-1), the boot words (Tables 23-3, 23-4), the
random source, profile, identity, running image and bank, measurement 5, microprograms, the firmware bits of SHD_STATUS,
watchdog counts and expiries (R506, R509), reeves that restart, the live update in progress, the reeves, and the firmware SRAM: what
each image bank holds, and the kernel data (Table 23-1). -/
structure Boot where
  dev : DevSt
  clocks : Bool
  loamZeroed : Bool
  rngDone : Bool
  rngOk : Bool
  profileAddr : Nat
  imageAddr : Nat
  len : Nat
  attempts : Nat
  st : BootSt
  fail : Nat
  profile : Option Profile
  identity : Option Nat
  image : Option Image
  bank : Nat
  started : Nat
  updates : Nat
  images : Nat
  chain : List Byte
  loaded : List Micro
  refused : List Nat
  testMode : Bool
  fwAlive : Bool
  fwReady : Bool
  handoff : Bool
  expired : List Nat
  expiries : List (Nat × Nat)
  recovering : List Nat
  update : Option Update
  reeves : List Reeve
  banks : List (Option Image)
  kernel : Memory
  deriving DecidableEq, Repr

/-! ### Security (R480 to R498) -/

/-- An SPDM session (R490): its number, whether it came over DOE, the digest of the root of a mutually authenticated
requester (R492), whether FINISH has completed it, and how many key updates it has seen. -/
structure Session where
  num : Nat
  doe : Bool
  root : Option Nat
  finished : Bool
  keys : Nat
  deriving DecidableEq, Repr

/-- An SPDM connection: over DOE, or over MCTP. Whether ML-DSA-87 was negotiated (R491), the requester's transfer size, a
large request being received with the next chunk's number, and a large response still to be fetched. -/
structure SpdmPath where
  agreed : Bool
  xfer : Nat
  chunkNext : Nat
  chunkIn : List Byte
  request : List Byte
  large : List Byte
  deriving DecidableEq, Repr

/-- The security block: sessions, the DOE and MCTP connections, the owner and its policy (Table 22-6), and counts. -/
structure Security where
  sessions : List Session
  nextNum : Nat
  doe : SpdmPath
  mctp : SpdmPath
  owner : Option Nat
  policySet : Bool
  ideRequired : Nat
  macsecLocked : Nat
  minSvn : Nat
  ideDrop : Nat
  spdmErrors : Nat
  deriving DecidableEq, Repr

/-! ### Management (R538 to R543) -/

/-- The management front end (Table 25-6), the PLDM terminus, the receiver of events, and per numeric sensor the level last
reported and one more than when, 0 before the first report. -/
structure Mgmt where
  ready : Bool
  i3c : Option Nat
  strap : Nat
  eid : Option Nat
  notReady : Nat
  tid : Nat
  receiver : Option Nat
  levels : List (Nat × Nat)
  deriving DecidableEq, Repr

/-- Errors of SPDM that the device answers with. -/
inductive SpdmErr where
  | busy | unsupported | invalidSession | unexpected | invalid | large
  deriving DecidableEq, Repr

/-- Responses of the SPDM responder, by content (Table 22-5). -/
inductive SpdmRsp where
  | version (vs : List Nat)
  | capabilities
  | algorithms (mldsa : Bool)
  | digests (bs : List Byte)
  | certificate (bs : List Byte) (left : Nat)
  | challengeAuth (sig : List Byte)
  | measurements (blocks : List (Nat × List Byte)) (sig : Option (List Byte))
  | keyExchange (session : Nat) (sig : List Byte)
  | finish (session : Nat)
  | ended (session : Nat)
  | heartbeat (session : Nat)
  | keyUpdate (session : Nat)
  | chunkAck (seq : Nat)
  | chunk (seq : Nat) (last : Bool) (bs : List Byte)
  | vendor (session status : Nat)
  | ideKm (stream : Nat) (ok : Bool)
  | error (e : SpdmErr)
  deriving DecidableEq, Repr

/-- Answers of the management endpoint, by content (R538, R542, R543, Tables 25-4 and 25-5). -/
inductive MgmtRsp where
  | notReady
  | setEid (eid : Nat)
  | eid (eid : Nat)
  | uuid (bs : List Byte)
  | version (bs : List Byte)
  | messageTypes (ts : List Nat)
  | tid (t : Nat)
  | done
  | types (ts : List Nat)
  | commands (cs : List String)
  | invalidType
  | invalid
  | pdrInfo (records : Nat)
  | pdr (sensor : Sensor) (thresholds : List Nat)
  | reading (value : Nat)
  | sensorState (n : Nat)
  | fruMetadata (records : Nat)
  | fru (serial furrows ports hbm : Nat)
  | event (receiver : Nat) (sensor : Sensor) (level : Nat)
  deriving DecidableEq, Repr

/-- What the device has sent in answer, latest last: a configuration completion, SPDM over DOE or MCTP, DOE Discovery, or a
management answer on a binding (I3C when `i3c`) to an endpoint ID (R541). -/
inductive Answer where
  | config (fn value : Nat)
  | spdm (doe : Bool) (rsp : SpdmRsp)
  | discovery (index : Nat) (kinds : List String)
  | mgmt (i3c : Bool) (eid : Nat) (rsp : MgmtRsp)
  deriving DecidableEq, Repr

/-! ### Pins (R531, R547, R553, R555) -/

/-- The pins the device drives or latches: THERMTRIP_N low, and the JTAG port's instruction, boundary-scan register and last
shifted-out word. -/
structure Pins where
  thermtrip : Bool
  jtag : JtagOp
  boundary : Nat
  shifted : Nat
  deriving DecidableEq, Repr

/-! ### Faults, BIST and injection (R514 to R530) -/

/-- A fault-log entry (Table 24-7). -/
structure LogEntry where
  time : Nat
  unit : FailUnit
  detector : Nat
  injected : Bool
  span : Nat
  deriving DecidableEq, Repr

/-- A latched failure that is being handled or waits for its turn (R519, R520): its detector and time, and whether its
requests have settled. -/
structure Handling where
  unit : FailUnit
  detector : Nat
  injected : Bool
  time : Nat
  settled : Bool
  deriving DecidableEq, Repr

/-- What an arming slot holds (R529): point, mode, target, matching events left, when it arms, and whether it is armed. -/
structure Inj where
  point : Nat
  mode : Nat
  target : Nat
  count : Nat
  due : Nat
  armed : Bool
  deriving DecidableEq, Repr

/-- A target claimed by periodic BIST in a column (R524): its number in Table 24-4 and when it was claimed. -/
structure Claim where
  col : Nat
  target : Nat
  time : Nat
  deriving DecidableEq, Repr

/-- BIST (Tables 24-6, 24-7): status bits, the next slice's time, each column's next target, the claims, and counters. -/
structure Bist where
  startupDone : Bool
  startupFail : Bool
  periodic : Bool
  paused : Bool
  full : Bool
  reportApplied : Bool
  due : Nat
  next : List Nat
  claims : List Claim
  slices : Nat
  skipped : Nat
  failed : Nat
  waitNs : Nat
  deriving DecidableEq, Repr

/-- Fault handling: fenced furrows, engines, slices and links, retired loam frames, slice groups without parity (R516), the halt,
new_fence, the log with its head, events counted by detector, failures in handling (the first is handled), uncorrectable loam lines by
slice and time (Table 24-2), BIST and injection. -/
structure Faults where
  furrows : List Nat
  engines : List Nat
  slices : List Nat
  links : List Nat
  frames : List Nat
  groups : List Nat
  halted : Bool
  newFence : Bool
  log : List LogEntry
  head : Nat
  events : List (Nat × Nat)
  handling : List Handling
  lines : List (Nat × Nat)
  bist : Bist
  inj : List (Nat × Inj)
  fired : Nat
  lastPoint : Nat
  lastTarget : Nat
  lastTime : Nat
  deriving DecidableEq, Repr

/-- Hard repairs of a subsoil channel, which outlive a reset, and its soft repairs, which do not (R351). -/
structure Repair where
  channel : Nat
  hard : Nat
  soft : Nat
  deriving DecidableEq, Repr

/-! ### Power (R460 to R479) -/

/-- What PWR_CONFIG sets (Table 21-2). -/
structure PwrCfg where
  pl1 : Nat
  pl100 : Nat
  target : Nat
  fixed : Bool
  boostOff : Bool
  deriving DecidableEq, Repr

/-- The counters of Table 21-10; the energies in units of 0.2 uJ and of 10^-15 J, the times in ns. -/
structure PwrCounts where
  energy : Nat
  boostNs : Nat
  nominalNs : Nat
  belowNs : Nat
  floorNs : Nat
  slewWaitNs : Nat
  ballast : Nat
  droopEvents : Nat
  droopCycles : Nat
  vrAlerts : Nat
  holds : Nat
  shed : Nat
  ffBreaks : Nat
  deriving DecidableEq, Repr

/-- A unit in the slew limiter (R468): the taker (engine e, or 192 + furrow for a harrow), its unit current in mA, and since
when it waits or is in ballast. -/
structure SlewUnit where
  taker : Nat
  current : Nat
  since : Nat
  deriving DecidableEq, Repr

/-- Power, droop and thermal control: the configuration in force and the one accepted for the next interval (R462), ACLK in MHz and
since when, VDD_CORE in mV, estimates in 0.1 W with the latest first and their means (R463), the levers (R464: 25 MHz steps of lever 1
and of lever 3, regulator scale in eighths, shedding), the thermal hold, the stack limit and the target limit (Table 21-7), the
hottest sensors, VR_ALERT_N low and the time of its rise (R471), furrows whose ACLK period is doubled with the time (R470), the slew
window's admitted and released current with waiting, drawing and ballast units (R468), whether a start waited in the last interval and
in this one, ff_broken, and whether a protection has acted in this interval (R476). -/
structure Power where
  cfg : PwrCfg
  next : Option PwrCfg
  aclk : Nat
  since : Nat
  vdd : Nat
  est : Nat
  history : List Nat
  mean1 : Nat
  mean100 : Nat
  cut : Nat
  scale : Nat
  low : Nat
  shed : Bool
  hold : Bool
  stackHot : Bool
  tooHot : Bool
  tjMax : Nat
  hbmMax : Nat
  vrLow : Bool
  vrRise : Option Nat
  droop : List (Nat × Nat)
  admitted : Nat
  released : Nat
  waiting : List SlewUnit
  drawing : List SlewUnit
  ballast : List SlewUnit
  slewWait : Bool
  waited : Bool
  ffBroken : Bool
  acted : Bool
  counts : PwrCounts
  deriving DecidableEq, Repr

/-! ### The state -/

/-- The whole device. `pending` is the queue of commands that wait, first in, first out; `free` numbers the free values
taken so far (the model's own fields, log entries 1 and 2); `now` is the device time in ns (R412). `shadow` holds the pages
of the register shadow by `function * 64 + page` (R373, R377); `out` what the device has answered. -/
structure State where
  pending : List Instr
  free : Nat
  now : Nat
  boot : Boot
  queues : List Queue
  parts : List Partition
  streams : List (Nat × Stream)
  cohorts : List (Nat × Cohort)
  field : Field
  mem : MemSys
  tick : Tick
  drill : List Channel
  net : Net
  fns : List Function
  pcie : Pcie
  shadow : List (Nat × ShadowPage)
  flt : Faults
  repairs : List Repair
  pwr : Power
  sec : Security
  mgmt : Mgmt
  pins : Pins
  out : List Answer
  deriving DecidableEq, Repr

/-! ### Units at reset

A register for which the spec gives no reset value is 0 here (log entry 3). -/

def zeroMemCounts : MemCounts := ⟨0,0,0,0,0,0,0,0,0,0,0,0,0,0,0,0,0⟩
def zeroPartCounts : PartCounts := ⟨0,0,0,0,0,0,0,0,0⟩

/-- The configuration of a partition that is not configured. -/
def noPartCfg : PartCfg :=
  { repeatable := false, zg40 := false, abandon := false, bindPf := false, firstCol := 0, cols := 0, vfMask := 0,
    drillMask := 0, groupMask := 0, extraWays := 0, firstQueue := 0, queues := 0, firstStream := 0, streams := 0,
    quotaLoam := 0, quotaSub := 0, quotaFar := 0, regRate := 0, regBurst := 0, hostTimeout := 0, remoteTimeout := 0,
    promote := 0, demote := 0, moveLimit := 0, beBound := 0 }

/-- A partition that owns nothing (R394, R565). -/
def noPartition : Partition :=
  { configured := false, cfg := noPartCfg, digest := [], fences := [], seeds := [], layouts := [], pools := [],
    windows := [], plots := [], anchors := [], usedLoam := 0, usedSub := 0, tokens := 0, tokenTime := 0, key := none,
    wrapKey := none, blobKeys := [], swaths := [], deferred := [], barriers := [], barrierTokens := [], barrierEpochs := [], mem := zeroMemCounts,
    counts := zeroPartCounts }

def noQueueCfg : QueueCfg :=
  { kind := 0, part := 0, be := false, halt := false, ringLog2 := 0, channel := 0, vector := 0, base := 0, owner := 0 }

def zeroQueueCounts : QueueCounts := ⟨0,0,0,0,0,0,0,0,0⟩

/-- A queue that is not configured (Table 3-1). -/
def noQueue : Queue :=
  { cfg := noQueueCfg, state := .disabled, head := 0, tail := 0, seq := 0, since := 0, cmd := none, result := none, counter := 0,
    redispatch := [], held := [], doomed := [], err := ⟨0, 0, 0, 0⟩, counts := zeroQueueCounts }

/-- A slot with no content (Table 4-4). -/
def freeSlot : Slot := { st := .free, q := 0, tile := 0, lost := false }

def noEngine : Engine := { slots := List.replicate 16 freeSlot, items := [], cur := none, operands := [0, 0] }
def noHarrow : Harrow := { items := [], intake := [], cur := none }

/-- A tender at reset. DESIGN CHOICE, log entry 3. -/
def noTender : Tender := { pc := 0, x := List.replicate 32 0, f := List.replicate 32 0, fcsr := 0, user := false }

/-- A reeve held in reset. DESIGN CHOICE, log entry 3. -/
def noReeve : Reeve := { held := true, pc := 0, x := List.replicate 32 0, user := false, execOnly := [] }

/-- The field at reset: nothing resident, every accumulator and tilth word 0. DESIGN CHOICE, log entry 3. -/
def noField : Field :=
  { engines := List.replicate 192 noEngine, harrows := List.replicate 96 noHarrow, tenders := List.replicate 192 noTender, accum := [], tilth := [], sram := [] }

def noSubChannel : SubChannel :=
  { corrected := 0, onDie := 0, uncorrectable := 0, scrubPasses := 0, failed := false, recent := [] }

def noMem : MemSys :=
  { phys := [], keys := [], frameKeys := [], devKey := 0, host := [], remote := [], poison := [], wcb := [], moves := [], lcRun := 0,
    channels := List.replicate 192 noSubChannel, epoch := 0 }

/-- A tick unit that is OFF since PERST# (Table 18-5). -/
def noTick : Tick :=
  { st := .off, source := 0, falling := false, port := 0, holdover := 0, pnom := 0, slew := 0, first := 0, phase := 0,
    fresh := false, pn := 0, next := 0, lastDev := 0, misses := 0, wasLost := false, accepted := 0, refused := 0, synth := 0,
    losses := 0, localNext := 0, latches := [] }

def noChCounts : ChCounts := ⟨0, 0, 0, 0, 0, 0, 0, 0⟩

/-- A channel that belongs to no partition is held disabled (R354). -/
def noChannel : Channel :=
  { part := none, disable := true, st := .disabled, cur := none, last := 0, store := [], crc := 0, retry := [], haltStatus := 0,
    counts := noChCounts, loose := false }

/-- A port at reset: mode 0, no FEC override, path MTU and PFC priority of Table 20-1. -/
def noPort : Port := { cfg := 0x602000, sync := false, good := 0, offset := 0, clock := 0, paused := false }

def noLink : Link :=
  { up := false, ip := 0, mac := 0, cak := none, sa := none, txBytes := 0, rxBytes := 0, retransmits := 0, cnpRx := 0, rxDrop := 0,
    macsecDrop := 0 }

def noNet : Net := { ports := List.replicate 4 noPort, links := List.replicate 8 noLink, qps := [], wire := [] }

/-- A mailbox that is FREE, its buffers reading 0 (R393). -/
def noMailbox : Mailbox :=
  { state := .free, irq := false, lastStatus := 0, request := [], reply := [], order := 0, held := none, begun := false }

/-- A masked MSI-X entry: bit 96 (log entry 4). -/
def maskedEntry : W128 := BitVec.ofNat 128 (2 ^ 96)

def noFunction : Function :=
  { traps := [], trapAccepted := 0, trapDropped := 0, trapApplied := 0, trapRefused := 0, trapRefusedAddr := 0,
    trapOvf := false, mailboxes := List.replicate 8 noMailbox, wrDiscard := 0, postIgnored := 0, queSel := 0, abortFirst := 0,
    abortResult := 0, qpCtx := List.replicate 8 0, qpResult := 0, linkAddrLow := List.replicate 8 0, event := 0,
    msix := List.replicate 64 maskedEntry, pba := 0 }

def noPciFn : PciFn :=
  { enabled := false, bme := false, d3hot := false, resetting := false, config := [], sent := List.replicate 64 0, lastWrite := none }

def noIde : IdeStream := { secure := false, key := none, firstFn := 0, lastFn := 0, firstAddr := 0, lastAddr := 0 }

/-- PCI Express at reset: the physical function alone (R430). -/
def noPcie : Pcie :=
  { linkUp := false, trained := false, speed := 0, width := 0, flit := false, retrains := 0, poisonRx := 0, cplTimeout := 0,
    ide := List.replicate 5 noIde, fns := { noPciFn with enabled := true } :: List.replicate 4 noPciFn, vfEnable := false, numVfs := 0,
    readiness := [], aer := 0 }

/-- The device held by PERST# (R532). -/
def noBoot : Boot :=
  { dev := .held, clocks := false, loamZeroed := false, rngDone := false, rngOk := false, profileAddr := 0, imageAddr := 0, len := 0,
    attempts := 0, st := .idle, fail := 0, profile := none, identity := none, image := none, bank := 0, started := 0, updates := 0,
    images := 0, chain := List.replicate 48 0, loaded := [], refused := [], testMode := false, fwAlive := false, fwReady := false,
    handoff := false, expired := List.replicate 4 0, expiries := [], recovering := [], update := none,
    reeves := List.replicate 4 noReeve, banks := [none, none], kernel := [] }

def noPath : SpdmPath := { agreed := false, xfer := 0, chunkNext := 0, chunkIn := [], request := [], large := [] }

def noSecurity : Security :=
  { sessions := [], nextNum := 1, doe := noPath, mctp := noPath, owner := none, policySet := false, ideRequired := 0,
    macsecLocked := 0, minSvn := 0, ideDrop := 0, spdmErrors := 0 }

def noMgmt : Mgmt :=
  { ready := false, i3c := none, strap := 0, eid := none, notReady := 0, tid := 0, receiver := none, levels := [] }

/-- THERMTRIP_N high (R531); the JTAG instruction is BYPASS (log entry 4). PRESUMED, log entry 4. -/
def noPins : Pins := { thermtrip := false, jtag := .bypass, boundary := 0, shifted := 0 }

def noBist : Bist :=
  { startupDone := false, startupFail := false, periodic := false, paused := false, full := false, reportApplied := false, due := 0,
    next := List.replicate 12 0, claims := [], slices := 0, skipped := 0, failed := 0, waitNs := 0 }

def noFaults : Faults :=
  { furrows := [], engines := [], slices := [], links := [], frames := [], groups := [],
    halted := false, newFence := false, log := [], head := 0, events := [], handling := [], lines := [], bist := noBist, inj := [],
    fired := 0, lastPoint := 0, lastTarget := 0, lastTime := 0 }

/-- PWR_CONFIG's defaults (Table 21-2). -/
def noPwrCfg : PwrCfg := { pl1 := 500, pl100 := 450, target := 95, fixed := false, boostOff := false }

/-- Power at reset: ACLK at the 400 MHz floor (R533), VDD_CORE at its boot value (Table 26-4), the regulators at their full
rate. -/
def noPower : Power :=
  { cfg := noPwrCfg, next := none, aclk := 400, since := 0, vdd := 750, est := 0, history := [], mean1 := 0, mean100 := 0, cut := 0,
    scale := 8, low := 0, shed := false, hold := false, stackHot := false, tooHot := false, tjMax := 0, hbmMax := 0, vrLow := false,
    vrRise := none, droop := [], admitted := 0, released := 0, waiting := [], drawing := [], ballast := [], slewWait := false,
    waited := false, ffBroken := false, acted := false, counts := ⟨0, 0, 0, 0, 0, 0, 0, 0, 0, 0, 0, 0, 0⟩ }

/-- The machine right after reset (R531, R532): PERST# is asserted, nothing is loaded, configured or enabled. -/
def State.reset : State :=
  { pending := [], free := 0, now := 0, boot := noBoot, queues := List.replicate 256 noQueue, parts := List.replicate 4 noPartition,
    streams := [], cohorts := [], field := noField, mem := noMem, tick := noTick, drill := List.replicate 16 noChannel, net := noNet,
    fns := List.replicate 5 noFunction, pcie := noPcie, shadow := [], flt := noFaults, repairs := [], pwr := noPower, sec := noSecurity,
    mgmt := noMgmt, pins := noPins, out := [] }

/-- Why a step stops. No command of this model stops the machine: every failure of the spec is state (a status, an error
flag, an interrupt, a fenced unit). -/
inductive Fault where
  /-- Raised by no command; safe, since a stop that never happens rules nothing out. -/
  | none
  deriving DecidableEq, Repr

/-- Why a command is refused. -/
inductive Refusal where
  /-- The command has no meaning yet; raised by the arms of `exec` that name it. Safe: nothing is claimed of the command. -/
  | notModelled (mnemonic : String)
  deriving DecidableEq, Repr

end Sys2Proof.Machine
end

