-- ==== Sys2Proof/Machine/Flags.lean ====
section
/-! DEFINITION. Status codes and what follows from them: numbers (Table 3-6), classes (R14), which classes count as an
error (R75, R81), the precedence of R92 and the numeric event of R59. -/

namespace Sys2Proof.Machine

/-- The number of a status (Table 3-6). -/
def statusCode : Status → Nat
  | .completed => 0x0000 | .completedWindowStall => 0x0001 | .completedRecompute => 0x0002 | .completedLate => 0x0003
  | .loadBadOpcode => 0x1001 | .loadWrongEngine => 0x1002 | .loadBadLength => 0x1003 | .loadReservedNonzero => 0x1004
  | .loadClassMismatch => 0x1005 | .loadBadFence => 0x1006 | .loadBadRecord => 0x1007 | .loadBadStream => 0x1008
  | .loadSeedUnset => 0x1009 | .loadBadFormat => 0x100A | .loadUnitDisabled => 0x100B | .loadBadShape => 0x100C
  | .loadModeForbidden => 0x100D | .loadAlign => 0x100E | .loadBounds => 0x100F | .loadTileCount => 0x1010
  | .loadAccCapacity => 0x1011 | .loadTilthCapacity => 0x1012 | .loadQuota => 0x1013 | .loadBeTooLong => 0x1014
  | .memUncorrectable => 0x2001 | .memFarTimeout => 0x2002 | .memUnbacked => 0x2003 | .memUnmapped => 0x2004
  | .memBusError => 0x2005 | .memRecomputeFailed => 0x2006 | .memRemoteRefused => 0x2007
  | .numNanOut => 0x3001 | .numInfOut => 0x3002 | .numSaturated => 0x3003
  | .streamBadState => 0x4001 | .streamTableFull => 0x4002 | .streamForkLimit => 0x4003 | .streamNoRoom => 0x4004
  | .streamBlobCorrupt => 0x4005 | .streamBlobMismatch => 0x4006
  | .secBlobAuth => 0x5001 | .secPartition => 0x5002 | .secKeyAbsent => 0x5003 | .secSignature => 0x5004
  | .pwrThermal => 0x6001 | .pwrRefused => 0x6002
  | .faultUnrecovered => 0x7001 | .faultLink => 0x7002 | .faultWatchdog => 0x7003
  | .aborted => 0x8001 | .abortTooLate => 0x8002 | .abortUpstream => 0x8003 | .abortTick => 0x8004 | .abortReset => 0x8005

/-- The class of a status: bits [15:12] of its code (R14). -/
def statusClass (st : Status) : Nat := statusCode st / 0x1000

/-- The statuses that set a fence's error bit, halt a queue and count as an error: every class but 0x0 and 0x3
(R75, R81, Table 3-1). -/
def isError (st : Status) : Bool := statusClass st != 0 && statusClass st != 3

/-- The classes under which a command's outputs are undefined (Table 0-5). -/
def outputsUndefined (st : Status) : Bool :=
  statusClass st == 2 || statusClass st == 6 || statusClass st == 7 || statusClass st == 8

/-- R59: the status that a numeric event gives a command. -/
def eventStatus : NumEvent → Option Status
  | .nan => some .numNanOut
  | .inf => some .numInfOut
  | .saturated => some .numSaturated
  | .none => none

/-- R92: the result of a command whose outputs are valid: a numeric event first, then the class-0x0 event of lowest code. -/
def completedResult (ev : NumEvent) (stall : Option Nat) (recompute : Option (Nat × Nat)) (work : Nat) : Result :=
  match eventStatus ev with
  | some st => { status := st, a := 0, b := 0, work := work }
  | none => match stall with
    | some ns => { status := .completedWindowStall, a := min ns (2 ^ 32 - 1), b := 0, work := work }
    | none => match recompute with
      | some (n, ns) => { status := .completedRecompute, a := n, b := min ns (2 ^ 32 - 1), work := work }
      | none => { status := .completed, a := 0, b := 0, work := work }

/-- A failure with both details. -/
def failAt (st : Status) (a b : Nat) : Fail := { status := st, a := a, b := b }

/-- A failure that concerns no single field (R566). -/
def failNone (st : Status) : Fail := failAt st 0xFFFFFFFF 0

/-- The result a failure leaves. -/
def failResult (f : Fail) (work : Nat) : Result := { status := f.status, a := f.a, b := f.b, work := work }

/-- The first check that fails (R82): each check is a test with the failure it gives. DEDUCED, log entry 19. -/
def firstFail : List (Bool × Fail) → Option Fail
  | [] => none
  | (bad, f) :: rest => if bad then some f else firstFail rest

/-- The first failure of a list of already evaluated checks. -/
def firstSome : List (Option Fail) → Option Fail
  | [] => none
  | some f :: _ => some f
  | none :: rest => firstSome rest

/-- A MEM_UNCORRECTABLE at a physical address (R306). -/
def uncorrectable (addr : Nat) : Fail := failAt .memUncorrectable (fld addr 0 32) (fld addr 32 16)

end Sys2Proof.Machine
end

