-- ==== Sys2Proof/Machine/Memory.lean ====
section
/-! DEFINITION. Bytes: the sparse memories, plots and their homes, reads and writes of a command (R25, R304 to R313,
R326, R334 to R342, R436), frames and quotas (R303, R318). -/

namespace Sys2Proof.Machine

/-! ### Sparse memory -/

/-- The canonical form: addresses strictly rising and no byte 0, which is what an unlisted address reads as. -/
def Memory.wf : Memory → Bool
  | [] => true
  | [c] => c.2 != 0
  | c :: d :: rest => c.2 != 0 && decide (c.1 < d.1) && Memory.wf (d :: rest)

/-- The byte at an address. DESIGN CHOICE, log entry 5. -/
def memGet (m : Memory) (a : Nat) : Byte :=
  match m with
  | [] => 0
  | c :: rest => if c.1 = a then c.2 else memGet rest a

/-- Store a byte, keeping the canonical form. -/
def memSet (m : Memory) (a : Nat) (b : Byte) : Memory :=
  match m with
  | [] => if b = 0 then [] else [(a, b)]
  | c :: rest =>
    if a < c.1 then (if b = 0 then c :: rest else (a, b) :: c :: rest)
    else if c.1 = a then (if b = 0 then rest else (a, b) :: rest)
    else c :: memSet rest a b

/-- Store bytes at consecutive addresses. -/
def memWrite (m : Memory) (a : Nat) : List Byte → Memory
  | [] => m
  | b :: bs => memWrite (memSet m a b) (a + 1) bs

/-- The `n` bytes at an address. -/
def memRead (m : Memory) (a n : Nat) : List Byte := (rangeFrom a n).map (memGet m)

/-- Zero the `n` bytes at an address. -/
def memClear (m : Memory) (a n : Nat) : Memory := m.filter fun c => c.1 < a || a + n ≤ c.1

/-- Zero every byte from an address on. -/
def memBelow (m : Memory) (a : Nat) : Memory := m.filter fun c => c.1 < a

def memFrom (m : Memory) (a : Nat) : Memory := m.filter fun c => a ≤ c.1

/-- Place the bytes `[a, a+n)` of `src` at `dst` of `m`. -/
def memCopy (src m : Memory) (a n dst : Nat) : Memory :=
  let part := (src.filter fun c => a ≤ c.1 && c.1 < a + n).map fun c => (c.1 - a + dst, c.2)
  memBelow m dst ++ (part ++ memFrom m (dst + n))

/-! ### Accessors -/

def plotBytes : Nat := 0x10000
def loamBase : Nat := 0x1_0000_0000
def subBase : Nat := 0x100_0000_0000

/-- Physical address of a loam frame (Table 13-2). -/
def loamAddr (f : Nat) : Nat := loamBase + f * plotBytes

/-- Physical address of a subsoil frame (R305). -/
def subAddr (f : Nat) : Nat := subBase + f * plotBytes

/-- Whether a physical address lies in subsoil. -/
def isSub (a : Nat) : Bool := decide (subBase ≤ a) && decide (a < 0x1C0_0000_0000)

/-- The global channel of a subsoil address (R305, R331). -/
def channelOf (a : Nat) : Nat :=
  let o := a - subBase
  o / 0x8_0000_0000 * 8 + o % 0x8_0000_0000 / 256 % 8

/-- Decided by the profile: the subsoil frames that are backed (R5). -/
def backedFrame (stk f : Nat) : Bool := decide (f * plotBytes < stk * 0x20_0000_0000)

def partOf (s : State) (p : Nat) : Partition := s.parts.getD p noPartition

/-- Change one partition. -/
def setPart (s : State) (p : Nat) (f : Partition → Partition) : State := { s with parts := modifyAt p f s.parts }

def setPartMem (s : State) (p : Nat) (f : MemCounts → MemCounts) : State :=
  setPart s p fun P => { P with mem := f P.mem }

/-- Take the next free value's number. DESIGN CHOICE, log entry 2. -/
def takeFree (s : State) (n : Nat) : Nat × State := (s.free, { s with free := s.free + n })

/-- The furrows of a partition, enabled by the profile (Table 17-1). -/
def partFurrows (P : Partition) : List Nat :=
  (List.range 96).filter fun f => decide (P.cfg.firstCol ≤ f % 12) && decide (f % 12 < P.cfg.firstCol + P.cfg.cols)

/-- The slices of a partition: those beneath its furrows and the extra ways (Table 17-1). -/
def partSlices (s : State) (P : Partition) : List Nat :=
  (List.range 96).filter fun f =>
    ((decide (P.cfg.firstCol ≤ f % 12) && decide (f % 12 < P.cfg.firstCol + P.cfg.cols)) || bitOf P.cfg.extraWays f)
      && !s.flt.slices.contains f

/-! ### Frames and quotas -/

/-- Whether a move is of a page, whose identifier stands in the field of the plot. -/
def pageMove (m : Move) : Bool := match m.cause with | .page _ _ => true | _ => false

/-- The loam frames a plot home, window, pool, image or reservation of partition `p` holds. -/
def usedLoamFrames (s : State) (p : Nat) : List Nat :=
  let P := partOf s p
  (P.plots.filterMap fun (_, pl) => match pl.home with | .loam f => some f | _ => none)
    ++ (P.windows.flatMap fun (_, w) => w.slots.flatMap (·.frames))
    ++ (P.pools.flatMap fun (_, k) => k.loamFrames)
    ++ (s.streams.flatMap fun (_, st) => if st.part = p then st.image else [])
    ++ (s.mem.moves.filterMap fun m => if m.part = p ∧ pageMove m = false then (match m.dest with | .loam f => some f | _ => none) else none)
    ++ (s.queues.flatMap fun q => if q.cfg.part = p then (match q.cmd with | some c => c.resFrames | none => []) else [])
    ++ P.deferred.flatMap (·.frames)

/-- The subsoil frames partition `p` holds; a reservation writes them as `2^32 + frame`. -/
def usedSubFrames (s : State) (p : Nat) : List Nat :=
  let P := partOf s p
  (P.plots.filterMap fun (_, pl) => match pl.home with | .subsoil f => some f | .unbacked f => some f | _ => none)
    ++ (P.pools.flatMap fun (_, k) => k.subFrames)
    ++ (s.mem.moves.filterMap fun m => if m.part = p then (match m.dest with | .subsoil f => some f | _ => none) else none)
    ++ (s.queues.flatMap fun q => if q.cfg.part = p then
        (match q.cmd with | some c => (c.resFrames.filter (2 ^ 32 ≤ ·)).map (· - 2 ^ 32) | none => []) else [])

/-- The free loam frames of one slice, ascending: 752 of its 768 frames are allocatable (R303). Re-homing may have given a
frame to a partition that does not own its slice (R517). -/
def freeInSlice (s : State) (slice : Nat) : List Nat :=
  let used := (List.range 4).flatMap (usedLoamFrames s)
  ((List.range 752).map (slice * 768 + ·)).filter fun f => !used.contains f && !s.flt.frames.contains f

/-- Take up to `n` free frames in a list of slices, lowest first. DESIGN CHOICE, log entry 16. -/
def freeLoam (s : State) (n : Nat) (slices : List Nat) : List Nat :=
  (slices.flatMap (freeInSlice s)).take n

/-- Whether a channel of a group has failed: its frames leave every group and quota (R345, R517). -/
def groupFailed (s : State) (g : Nat) : Bool := (rangeFrom (8 * g) 8).any fun h => (s.mem.channels.getD h noSubChannel).failed

/-- The free frames of a channel group, ascending; a group holds 524,288 of them, and of the first ones no more than `used`
can be taken. -/
def freeInGroup (used : List Nat) (n g : Nat) : List Nat :=
  ((List.range (min 524288 (n + used.length))).map (g * 524288 + ·)).filter fun f => !used.contains f

/-- Take up to `n` free frames in a list of channel groups, lowest first. -/
def freeSubIn (s : State) (n : Nat) (groups : List Nat) : List Nat :=
  ((groups.filter fun g => !groupFailed s g).flatMap (freeInGroup ((List.range 4).flatMap (usedSubFrames s)) n)).take n

/-- The first `n` free subsoil frames of the partition's channel groups, lowest first (R309). -/
def freeSub (s : State) (p n : Nat) : List Nat := freeSubIn s n (bitsOf 24 (partOf s p).cfg.groupMask)

/-- Free loam quota in 4 KiB units (R318). -/
def loamLeft (P : Partition) : Nat := P.cfg.quotaLoam - P.usedLoam

/-- Free subsoil quota in 4 KiB units. -/
def subLeft (P : Partition) : Nat := P.cfg.quotaSub - P.usedSub

/-- Charge or return loam and subsoil units (R318). -/
def charge (s : State) (p loam sub : Nat) : State :=
  setPart s p fun P => { P with usedLoam := P.usedLoam + loam, usedSub := P.usedSub + sub }

def uncharge (s : State) (p loam sub : Nat) : State :=
  setPart s p fun P => { P with usedLoam := P.usedLoam - loam, usedSub := P.usedSub - sub }

/-- Plot-entry pages: one loam unit per 256 mapped plots (Table 13-8). -/
def entryPages (plots : Nat) : Nat := ceilDiv plots 256

/-! ### Addresses -/

/-- Where a byte is: physical memory, host memory with the requesting function, remote memory, or beyond a window
position's decoded length, where it reads as zero without an access (R321). -/
inductive Loc where
  | phys (addr : Nat)
  | host (addr fn : Nat)
  | remote (addr : Nat)
  | zero
  deriving DecidableEq, Repr

/-- The key of a remote byte in the model's remote memory: one address space per queue pair. -/
def remoteKey (qp addr : Nat) : Nat := qp * 2 ^ 64 + addr % 2 ^ 64

/-- The state of PCI Express for a function. -/
def pciFn (s : State) (fn : Nat) : PciFn :=
  s.pcie.fns.getD fn noPciFn

/-- R436: a function may issue requests with Bus Master Enable set, in D0, out of reset and on a link that is up. -/
def mayIssue (s : State) (fn : Nat) : Bool :=
  let f := pciFn s fn
  f.enabled && f.bme && !f.d3hot && !f.resetting && s.pcie.linkUp

/-- Whether a function's requests to an address lie within a Secure IDE stream (R443): the link's, or a selective one whose
ranges hold both. -/
def ideCovers (s : State) (fn addr : Nat) : Bool :=
  (s.pcie.ide.getD 0 noIde).secure
    || ((s.pcie.ide.drop 1).any fun x => x.secure && decide (x.firstFn ≤ fn) && decide (fn ≤ x.lastFn)
      && decide (x.firstAddr ≤ addr) && decide (addr ≤ x.lastAddr))

/-- Whether the device issues a request to a host plot of a partition (R436), inside a Secure stream where the owner's policy
demands one (R496). -/
def hostOpen (s : State) (p fn addr : Nat) : Bool :=
  mayIssue s fn && (!bitOf s.sec.ideRequired p || ideCovers s fn addr)

/-- The slot of a window that holds a position READY, with its decoded length (R321). -/
def readySlot (w : Window) (pos : Nat) : Option (WinSlot × Nat) :=
  w.slots.findSome? fun sl => match sl.st with
    | .ready p len => if p = pos then some (sl, len) else none
    | _ => none

/-- The home of a byte of a partition's virtual range (R308, R311), or why it cannot be reached (R307, R436, R451). -/
def locate (s : State) (p va : Nat) : Except Fail Loc :=
  let P := partOf s p
  let off := va % plotBytes
  match lookupKey (va / plotBytes) P.plots with
  | none => .error (failAt .memUnmapped 0 0)
  | some pl => match pl.home with
    | .loam f => .ok (.phys (loamAddr f + off))
    | .subsoil f => .ok (.phys (subAddr f + off))
    | .unbacked _ => .error (failAt .memUnbacked 0 0)
    | .host => match pl.anchor.bind (lookupKey · P.anchors) with
      | some (.host addr fn) => if hostOpen s p fn (addr + off) then .ok (.host (addr + off) fn) else .error (failAt .memUnmapped 0 0)
      | _ => .error (failAt .memUnmapped 0 0)
    | .remote => match pl.anchor.bind (lookupKey · P.anchors) with
      | some (.remote qp _ addr) => match lookupKey qp s.net.qps with
        | some x => if x.st = .ready then .ok (.remote (remoteKey qp (addr + off))) else .error (failAt x.cause 0 0)
        | none => .error (failAt .memUnmapped 0 0)
      | _ => .error (failAt .memUnmapped 0 0)
    | .window w => match lookupKey w P.windows with
      | none => .error (failAt .memUnmapped 0 0)
      | some win =>
        let rel := va - win.base * plotBytes
        let slotLen := win.slotPlots * plotBytes
        match readySlot win (rel / slotLen) with
        | none => .error (failAt .memUnmapped 0 0)
        | some (sl, len) =>
          let o := rel % slotLen
          if len ≤ o then .ok .zero
          else match sl.frames[o / plotBytes]? with
            | some f => .ok (.phys (loamAddr f + o % plotBytes))
            | none => .error (failAt .memUnmapped 0 0)

/-- The enabled byte of a write-combining entry at an address (R339). -/
def wcbByte (s : State) (a : Nat) : Option Byte :=
  match s.mem.wcb.find? (fun e => e.line == a / 64) with
  | some e => lookupKey (a % 64) e.bytes
  | none => none

/-- Whether a line of device memory cannot be read: it is poisoned (R326), or its channel has failed (R345, R516). DEDUCED, log entry
104. -/
def linePoisoned (s : State) (line : Nat) : Bool :=
  s.mem.poison.contains line || (isSub (line * 64) && (s.mem.channels.getD (channelOf (line * 64)) noSubChannel).failed)

/-! ### Inline encryption (R346 to R348) -/

/-- The channel group of a subsoil line. -/
def groupOfLine (line : Nat) : Nat := (line * 64 - subBase) / 0x8_0000_0000

/-- The subsoil frame of a line. -/
def frameOfLine (line : Nat) : Nat := (line * 64 - subBase) / plotBytes

/-- The key of a channel group: that of the partition that owns it, else the device key (R346). -/
def groupKey (s : State) (g : Nat) : Nat :=
  match s.parts.find? fun P => P.configured && bitOf P.cfg.groupMask g with
  | some P => P.key.getD s.mem.devKey
  | none => s.mem.devKey

/-- The key under which a subsoil line was last written; none for a line that nothing has written since power-up. -/
def lineKey (s : State) (line : Nat) : Option Nat :=
  (lookupKey line s.mem.keys).orElse fun _ => lookupKey (frameOfLine line) s.mem.frameKeys

/-- The bytes of a line as they were written. -/
def plainLine (s : State) (line : Nat) : List Byte := memRead s.mem.phys (line * 64) 64

/-- What the stack holds of a line (R346): the tweak is the line's physical address bits [47:6]. -/
def stackLine (s : State) (line : Nat) : Option (List Byte) :=
  (lineKey s line).map fun k => Config.xtsSeal k line (plainLine s line)

/-- Whether a line was written under a key that its channel group no longer has: its bytes cannot be read as plaintext (R347). -/
def staleLine (s : State) (line : Nat) : Bool :=
  isSub (line * 64) && (match lineKey s line with | some k => k != groupKey s (groupOfLine line) | none => false)

/-- A line as the controllers decrypt it under the key of its channel group. DESIGN CHOICE, log entry 163. -/
def readLine (s : State) (line : Nat) : List Byte :=
  if staleLine s line then Config.xtsOpen (groupKey s (groupOfLine line)) line ((stackLine s line).getD []) else plainLine s line

/-- A byte of device memory under the write-combining buffer. -/
def storedByte (s : State) (a : Nat) : Byte :=
  if staleLine s (a / 64) then (readLine s (a / 64)).getD (a % 64) 0 else memGet s.mem.phys a

/-- A subsoil line is written under the key of its channel group. -/
def keyLine (s : State) (line : Nat) : State :=
  if !isSub (line * 64) || lineKey s line == some (groupKey s (groupOfLine line)) then s
  else { s with mem := { s.mem with keys := insertKey line (groupKey s (groupOfLine line)) s.mem.keys } }

/-- Every line of a subsoil frame is written under the key of its channel group. -/
def keyFrame (s : State) (f : Nat) : State :=
  { s with mem := { s.mem with
      frameKeys := insertKey f (groupKey s (f / 524288)) s.mem.frameKeys
      keys := s.mem.keys.filter fun e => frameOfLine e.1 != f } }

/-- The frame at an address of device memory is written whole. -/
def keyWhole (s : State) (a : Nat) : State := if isSub a then keyFrame s ((a - subBase) / plotBytes) else s

/-- A byte of device memory as a reader sees it (R25, R326, R339). -/
def physByte (s : State) (a : Nat) : Except Fail Byte :=
  if linePoisoned s (a / 64) then .error (uncorrectable (a / 64 * 64))
  else match wcbByte s a with
    | some b => .ok b
    | none => .ok (storedByte s a)

/-- One byte of a partition's range. -/
def loadByte (s : State) (p va : Nat) : Except Fail Byte :=
  match locate s p va with
  | .error f => .error f
  | .ok (.phys a) => physByte s a
  | .ok (.host a _) => .ok (memGet s.mem.host a)
  | .ok (.remote k) => .ok (memGet s.mem.remote k)
  | .ok .zero => .ok 0

/-- `n` bytes of a partition's range. -/
def loadBytes (s : State) (p va n : Nat) : Except Fail (List Byte) := (rangeFrom va n).mapM (loadByte s p)

/-- A little-endian number of `n` bytes. -/
def loadNat (s : State) (p va n : Nat) : Except Fail Nat :=
  match loadBytes s p va n with
  | .error f => .error f
  | .ok bs => .ok (ofLe bs)

/-! ### Writes -/

/-- The eighths of its configured rate at which every regulator runs: lever 2, 50 % while a stack is hot, 25 % in a thermal
hold (R336, R465, Table 21-7, R474). -/
def rateEighths (s : State) : Nat :=
  min s.pwr.scale (if s.pwr.hold then 2 else if s.pwr.stackHot then 4 else 8)

/-- A bucket brought to a time, in eighths of a byte so that no fraction is lost (R333): it refills at the effective rate up to
its burst. A bucket that has served requests ahead of the time stands at a later one. -/
def refilled (P : Partition) (eighths now : Nat) : Nat :=
  min (P.cfg.regBurst * 4096 * 8) (P.tokens + P.cfg.regRate * eighths * (now - P.tokenTime))

/-- Every bucket is brought to the present at the rate in force, before that rate changes. -/
def settleBuckets (s : State) : State :=
  { s with parts := s.parts.map fun P => { P with tokens := refilled P (rateEighths s) s.now, tokenTime := max s.now P.tokenTime } }

/-- Wait of the `i`-th line of a batch, after a bucket of `full` eighths at a rate of `rate` eighths per ns. -/
def lineWait (full rate i : Nat) : Nat := ceilDiv (512 * i - full) (max 1 rate)

/-- R333, R334: charge a partition's bucket for `lines` lines and count the bytes. Each line takes 64 tokens; one that finds too
few waits, and its wait is counted. DEDUCED, log entry 21. -/
def regulate (s : State) (p lines : Nat) (write : Bool) : State :=
  setPart s p fun P =>
    let rate := P.cfg.regRate * rateEighths s
    let full := refilled P (rateEighths s) s.now
    let lag := P.tokenTime - s.now
    let last := lineWait full rate lines
    let short := lines - full / 512
    let waits := ((rangeFrom (full / 512 + 1) short).map (lineWait full rate)).foldl (· + ·) 0
    let need := 64 * lines
    let m := P.mem
    { P with
      tokens := full + rate * last - 512 * lines
      tokenTime := s.now + lag + last
      mem := { m with
        subRead := if write then m.subRead else satAdd 48 m.subRead need
        subWrite := if write then satAdd 48 m.subWrite need else m.subWrite
        throttleNs := satAdd 48 m.throttleNs (lag * lines + waits) } }

/-- Write bytes of one line directly, clearing its poison when the line is whole (R326, R337). -/
def putPhys (s : State) (a : Nat) (bs : List Byte) : State :=
  let whole := a % 64 = 0 && bs.length == 64
  keyLine { s with mem := { s.mem with
      phys := memWrite s.mem.phys a bs
      poison := if whole then s.mem.poison.filter (· != a / 64) else s.mem.poison
      wcb := if whole then s.mem.wcb.filter (·.line != a / 64) else s.mem.wcb } } (a / 64)

/-- A write of queue `q`'s command has failed after the command wrote it: the first such failure ends it (R312, R340). -/
def failLate (s : State) (q : Nat) (f : Fail) : State :=
  { s with queues := modifyAt q (fun Q => { Q with cmd := Q.cmd.map fun c => { c with late := c.late.orElse fun _ => some f } }) s.queues }

/-- R340: the commands that contributed to a poisoned line will end with MEM_UNCORRECTABLE. -/
def poisonCmds (s : State) (e : WcbEntry) : State := e.queues.foldl (fun x q => failLate x q (uncorrectable (e.line * 64))) s

/-- Drain an entry of the write-combining buffer (R338): a whole line is written as such; a partial line is read, merged
and written, and a poisoned line is left unchanged (R340). -/
def drainEntry (s : State) (e : WcbEntry) : State :=
  let s1 := { s with mem := { s.mem with wcb := s.mem.wcb.filter (·.line != e.line) } }
  let whole := e.bytes.length == 64
  if !whole && linePoisoned s e.line then poisonCmds (regulate s1 e.part 1 false) e
  else
    let old := if staleLine s1 e.line then memWrite s1.mem.phys (e.line * 64) (readLine s1 e.line) else s1.mem.phys
    let phys := e.bytes.foldl (fun m (o, b) => memSet m (e.line * 64 + o) b) old
    let s2 := keyLine { s1 with mem := { s1.mem with
      phys := phys
      poison := if whole then s1.mem.poison.filter (· != e.line) else s1.mem.poison } } e.line
    let s3 := if whole then s2 else
      setPartMem (regulate s2 e.part 1 false) e.part fun m => { m with wcbRmw := satAdd 48 m.wcbRmw 1 }
    regulate s3 e.part 1 true

/-- Drain every entry a test selects. -/
def drainWhere (s : State) (sel : WcbEntry → Bool) : State := (s.mem.wcb.filter sel).foldl drainEntry s

/-- The number of configured partitions. -/
def partCount (s : State) : Nat := (s.parts.filter (·.configured)).length

/-- Lay bytes over an entry's bytes, the later ones winning (R337). -/
def layBytes (old new : List (Nat × Byte)) : List (Nat × Byte) := new.foldl (fun m (o, b) => insertKey o b m) old

/-- Entries that a partition may hold (R337). -/
def wcbShare (s : State) : Nat := 512 / max 1 (partCount s)

/-- A write finds no free entry of its partition: the oldest drains, and the wait, which the spec leaves to the channel, is a free
value. DESIGN CHOICE, log entry 164. -/
def drainOldest (s : State) (p : Nat) : State :=
  match s.mem.wcb.find? (·.part == p) with
  | none => s
  | some e =>
    let (k, s1) := takeFree (drainEntry s e) 1
    setPartMem s1 p fun m => { m with wcbFullWaitNs := satAdd 48 m.wcbFullWaitNs (Config.freeWord k).toNat }

/-- Drain the oldest entries of a partition beyond its share. -/
def trimWcb (p : Nat) : Nat → State → State
  | 0, s => s
  | n + 1, s => if wcbShare s < (s.mem.wcb.filter (·.part == p)).length then trimWcb p n (drainOldest s p) else s

/-- When the number of configured partitions changes, no partition keeps more than its share. -/
def trimAll (s : State) : State := (List.range 4).foldl (fun x p => trimWcb p x.mem.wcb.length x) s

/-- Merge a partial line write into the write-combining buffer (R337, R338). -/
def wcbMerge (s : State) (p q a : Nat) (bs : List Byte) : State :=
  let line := a / 64
  let new := (List.range bs.length).map fun i => (a % 64 + i, bs.getD i 0)
  let place (st : State) : State :=
    { st with mem := { st.mem with wcb := st.mem.wcb ++ [⟨line, layBytes [] new, p, [q], st.now⟩] } }
  match s.mem.wcb.find? (·.line == line) with
  | some e =>
    if e.queues.contains q || e.queues.length < 2 then
      let e' : WcbEntry := { e with bytes := layBytes e.bytes new, queues := (e.queues ++ [q]).eraseDups, lastMerge := s.now }
      let s1 := setPartMem { s with mem := { s.mem with wcb := s.mem.wcb.map fun x => if x.line == line then e' else x } } p
        fun m => { m with wcbMerges := satAdd 48 m.wcbMerges 1 }
      if e'.bytes.length == 64 then drainEntry s1 e' else s1
    else place (drainEntry s e)
  | none => place (if wcbShare s ≤ (s.mem.wcb.filter (·.part == p)).length then drainOldest s p else s)

/-- Split a run of bytes into pieces that stay within one 64-byte line. -/
def lineChunks : Nat → Nat → List Byte → List (Nat × List Byte)
  | 0, _, _ => []
  | fuel + 1, va, bs =>
    match bs with
    | [] => []
    | _ =>
      let n := 64 - va % 64
      (va, bs.take n) :: lineChunks fuel (va + n) (bs.drop n)

/-- Write bytes within one line of device memory, for a command of queue `q` (R25, R115, R326, R337). -/
def physStoreLine (s : State) (p q a : Nat) (bs : List Byte) : Except Fail State :=
  let whole := a % 64 == 0 && bs.length == 64
  if isSub a then
    if whole then .ok (regulate (putPhys s a bs) p 1 true) else .ok (wcbMerge s p q a bs)
  else if !whole && linePoisoned s (a / 64) then .error (uncorrectable (a / 64 * 64))
  else .ok (putPhys s a bs)

/-- A write to a remote plot is on its way through a queue pair, not acknowledged yet (R364). -/
def sentRemote (s : State) (qp : Nat) : State :=
  { s with net := { s.net with qps := s.net.qps.map fun (i, x) => (i, if i = qp then { x with unacked := true } else x) } }

/-- Write bytes within one line of a plot's home. -/
def storeHome (s : State) (p q va : Nat) (bs : List Byte) : Except Fail State :=
  match locate s p va with
  | .error f => .error f
  | .ok (.phys a) => physStoreLine s p q a bs
  | .ok (.host a fn) =>
    .ok { s with
      mem := { s.mem with host := memWrite s.mem.host a bs }
      pcie := { s.pcie with fns := modifyAt fn (fun f => { f with lastWrite := some (a + bs.length - 1) }) s.pcie.fns } }
  | .ok (.remote k) => .ok (sentRemote { s with mem := { s.mem with remote := memWrite s.mem.remote k bs } } (k / 2 ^ 64))
  | .ok .zero => .error (failAt .memUnmapped 0 0)

/-- Whether a slot of the mover is moving a plot of a partition. -/
def movesPlot (m : Move) (p n : Nat) : Bool := m.active && !pageMove m && m.part == p && m.plot == n

/-- Whether a slot of the mover is moving the plot of an address. -/
def movingAt (s : State) (p va : Nat) : Bool := s.mem.moves.any fun m => movesPlot m p (va / plotBytes)

/-- A write to a plot that is MOVING waits until the move ends (R312). -/
def holdWrite (s : State) (p q va : Nat) (bs : List Byte) : State :=
  let hold (m : Move) : Move :=
    if movesPlot m p (va / plotBytes) then { m with writes := m.writes ++ [⟨s.now, q, va % plotBytes, bs⟩] } else m
  { s with mem := { s.mem with moves := s.mem.moves.map hold } }

/-- Write bytes within one line of a partition's range. -/
def storeLine (s : State) (p q va : Nat) (bs : List Byte) : Except Fail State :=
  if movingAt s p va then .ok (holdWrite s p q va bs) else storeHome s p q va bs

/-- Write bytes at an address of a partition's range. -/
def storeBytes (s : State) (p q va : Nat) (bs : List Byte) : Except Fail State :=
  (lineChunks (bs.length + 1) va bs).foldlM (fun st (a, c) => storeLine st p q a c) s

/-- Write several runs of bytes in order. -/
def storeAll (s : State) (p q : Nat) (ws : List (Nat × List Byte)) : Except Fail State :=
  ws.foldlM (fun st (a, bs) => storeBytes st p q a bs) s

/-- Write bytes at an address of device memory. -/
def physStore (s : State) (p q a : Nat) (bs : List Byte) : Except Fail State :=
  (lineChunks (bs.length + 1) a bs).foldlM (fun st (x, c) => physStoreLine st p q x c) s

/-- Read bytes of device memory. -/
def physLoad (s : State) (a n : Nat) : Except Fail (List Byte) := (rangeFrom a n).mapM (physByte s)

/-- Free bytes at every place of the given spans that can still be written: outputs left undefined (Table 0-5). -/
def havoc (s : State) (p q : Nat) (spans : List (Nat × Nat)) : State :=
  spans.foldl (fun st (va, n) =>
    let (k, st1) := takeFree st n
    match storeBytes st1 p q va ((rangeFrom k n).map Config.freeByte) with
    | .ok st2 => st2
    | .error _ => st1) s

/-! ### Mapping tests of check 16 -/

/-- Whether every plot from `lo` to `hi` is mapped and passes a test. -/
def plotsOk (P : Partition) (lo hi : Nat) (ok : Plot → Bool) : Bool :=
  (P.plots.filter fun (k, pl) => decide (lo ≤ k) && decide (k ≤ hi) && ok pl).length == hi + 1 - lo

/-- Whether the part of an extent that lies in a window's range lies inside one position (R321). -/
def inOnePosition (P : Partition) (va n : Nat) : Bool :=
  P.windows.all fun (_, w) =>
    let lo := w.base * plotBytes
    let len := w.slotPlots * plotBytes
    let hi := lo + w.positions * len
    if va < hi && lo < va + n then (max va lo - lo) / len == (min (va + n) hi - 1 - lo) / len else true

/-- Check 16 on an extent that a command reads. -/
def mappedRead (s : State) (p va n : Nat) : Bool :=
  n == 0 || (decide (va + n ≤ 2 ^ 48) && plotsOk (partOf s p) (va / plotBytes) ((va + n - 1) / plotBytes) (·.read)
    && inOnePosition (partOf s p) va n)

/-- Check 16 on an extent that a command writes: a window is never writable (R321). -/
def mappedWrite (s : State) (p va n : Nat) : Bool :=
  n == 0 || (decide (va + n ≤ 2 ^ 48) && plotsOk (partOf s p) (va / plotBytes) ((va + n - 1) / plotBytes)
    fun pl => pl.write && (match pl.home with | .window _ => false | _ => true))

/-- Whether a plot's home is in subsoil. -/
def subsoilPlot (P : Partition) (k : Nat) : Bool :=
  match lookupKey k P.plots with
  | some pl => match pl.home with | .subsoil _ => true | _ => false
  | none => false

/-- Lines of a span that lie in subsoil. -/
def subLines (P : Partition) (va n : Nat) : Nat :=
  if n = 0 then 0
  else
    let last := va + n - 1
    (rangeFrom (va / plotBytes) (last / plotBytes + 1 - va / plotBytes)).foldl (fun acc k =>
      if subsoilPlot P k then
        let lo := max va (k * plotBytes)
        let hi := min last (k * plotBytes + plotBytes - 1)
        acc + (hi / 64 - lo / 64 + 1)
      else acc) 0

/-- Charge the lines of the extents that a command reads (R334), each extent once. -/
def chargeReads (s : State) (p : Nat) (spans : List (Nat × Nat)) : State :=
  let lines := spans.foldl (fun acc (va, n) => acc + subLines (partOf s p) va n) 0
  if lines = 0 then s else regulate s p lines false

/-- Whether a span touches a plot. -/
def touches (spans : List (Nat × Nat)) (k : Nat) : Bool :=
  spans.any fun (va, n) => n != 0 && decide (va / plotBytes ≤ k) && decide (k ≤ (va + n - 1) / plotBytes)

/-- A plot entry after one more access at a time in ns (Table 13-4: uses saturates, last_use is in microseconds). -/
def usedPlot (now : Nat) (pl : Plot) : Plot := { pl with uses := satAdd 16 pl.uses 1, lastUse := now / 1000 }

/-- Count a use of every plot that a span touches. DEDUCED, log entry 20. -/
def touchPlots (s : State) (p : Nat) (spans : List (Nat × Nat)) : State :=
  setPart s p fun P =>
    { P with plots := P.plots.map fun e => if touches spans e.1 then (e.1, usedPlot s.now e.2) else e }

/-- A store of its own, a use of the plots it touches. -/
def storeOnce (s : State) (p q va : Nat) (bs : List Byte) : Except Fail State :=
  match storeBytes s p q va bs with
  | .ok s1 => .ok (touchPlots s1 p [(va, bs.length)])
  | .error f => .error f

end Sys2Proof.Machine
end

