-- ==== Sys2Proof/Machine/Records.lean ====
section
/-! DEFINITION. Resident state (R205 to R210): where an element lies in its cohort's granules, how it is read and written,
and what becomes of it when its contents are undefined (R237). -/

namespace Sys2Proof.Machine

/-- The format of a state record. -/
def recFmt (r : Record) : Fmt := (fmtByte r.fmt).fmt.getD .bf16

/-- Elements per word (Table 9-1). -/
def recK (r : Record) : Nat :=
  if elemBits (recFmt r) = 16 then (if r.carry then 1 else 2) else (if r.carry then 2 else 4)

/-- Elements per granule row (Table 9-1). -/
def recE (r : Record) : Nat := 64 * recK r

/-- Granules of a record (R239). -/
def recGranules (r : Record) : Nat := ceilDiv r.n (recE r)

/-- Width of an element's field, residual included. -/
def fieldBits (r : Record) : Nat := 32 / recK r

/-- Bytes of a record in a fallow image or a blob (R241). -/
def recBytes (r : Record) : Nat := ceilDiv (r.n * fieldBits r) 512 * 64

/-- Address in accumulator memory of row `row` of a granule numbered `engine * 64 + granule` (R105). -/
def granuleRow (g row : Nat) : Nat := g / 64 * 0x40000 + g % 64 * 0x1000 + row * 0x100

/-- The fields of the elements of a record in a row of a cohort's granules (R206). -/
def stateFields (s : State) (granules : List Nat) (row : Nat) (r : Record) : List Nat :=
  let w := fieldBits r
  (granules.flatMap fun g =>
    let x := ofLe (memRead s.field.accum (granuleRow g row) 256)
    (List.range (recE r)).map fun i => fld x (w * i) w).take r.n

/-- Cut a list into pieces of `k` elements. -/
def piecesOf {α : Type} (k : Nat) : Nat → List α → List (List α)
  | 0, _ => []
  | fuel + 1, xs => match xs with
    | [] => []
    | _ => xs.take k :: piecesOf k fuel (xs.drop k)

/-- Bytes of fields of `w` bits packed from the low bits up. -/
def packFields (w : Nat) (fs : List Nat) : List Byte :=
  toLe (ceilDiv (fs.length * w) 8) (fs.foldr (fun f acc => f % 2 ^ w + 2 ^ w * acc) 0)

/-- Write the fields of a record in a row of granules; elements at or beyond n are left alone (R206). -/
def setStateFields (s : State) (granules : List Nat) (row : Nat) (r : Record) (fs : List Nat) : State :=
  let parts := piecesOf (recE r) (granules.length + 1) (fs.take r.n)
  { s with field := { s.field with
      accum := (granules.zip parts).foldl (fun m (g, p) => memWrite m (granuleRow g row) (packFields (fieldBits r) p))
        s.field.accum } }

/-- The value of a field (R209, R210). -/
def fieldValue (r : Record) (f : Nat) : FV :=
  let t := recFmt r
  if r.carry then
    let w := elemBits t
    round32 (exactAdd (elemFV t (f / 2 ^ w)) (elemFV t (f % 2 ^ w)))
  else elemFV t f

/-- The state bits of a field, without the residual. -/
def fieldState (r : Record) (f : Nat) : Nat := if r.carry then f / 2 ^ elemBits (recFmt r) else f

/-- Narrow a new state to a field, with its event (R209, R210). -/
def narrowField (r : Record) (mode : RMode) (h : FV) : Nat × NumEvent :=
  let t := recFmt r
  let sat := (fmtByte r.fmt).sat
  let (bits, ev) := narrow t mode sat h
  if r.carry then
    let sv := elemFV t bits
    let ok := ev == .none && !isNan sv && !isInf sv
    let res := if ok then (narrow t .nearest sat (exactAdd h (fneg sv))).1 else 0
    (bits * 2 ^ elemBits t + res, ev)
  else (bits, ev)

/-! ### Streams and their records -/

def streamOf (s : State) (id : Nat) : Option Stream := lookupKey id s.streams

def cohortOf (s : State) (n : Nat) : Option Cohort := lookupKey n s.cohorts

def setStream (s : State) (id : Nat) (f : Stream → Stream) : State :=
  match streamOf s id with
  | none => s
  | some st => { s with streams := insertKey id (f st) s.streams }

/-- The records of a stream's layout. -/
def recordsOf (s : State) (st : Stream) : List Record :=
  match lookupKey st.layout (partOf s st.part).layouts with
  | some l => l.records
  | none => []

/-- The granule list of a resident stream's record (R206). -/
def granulesOf (s : State) (st : Stream) (slot : Nat) : List Nat :=
  match cohortOf s st.cohort with
  | some co => co.granules.getD slot []
  | none => []

/-- The fields of record `slot` of a resident stream. -/
def readState (s : State) (st : Stream) (slot : Nat) (r : Record) : List Nat :=
  stateFields s (granulesOf s st slot) st.row r

def writeState (s : State) (st : Stream) (slot : Nat) (r : Record) (fs : List Nat) : State :=
  setStateFields s (granulesOf s st slot) st.row r fs

/-- Free fields in every record of a resident stream: state contents left undefined (R228, R237). -/
def havocState (s : State) (st : Stream) : State :=
  let rs := recordsOf s st
  ((List.range rs.length).zip rs).foldl (fun x (i, r) =>
    let (k, x1) := takeFree x r.n
    writeState x1 st i r ((rangeFrom k r.n).map fun j => (Config.freeWord j).toNat)) s

/-- R237: a resident stream's state becomes undefined. -/
def markUndef (s : State) (id : Nat) : State :=
  match streamOf s id with
  | some st => if st.st == .resident then setStream (havocState s st) id fun x => { x with undef := true } else s
  | none => s

/-- Whether an open SWATH_STEP of the partition lists a stream (R247). -/
def inSwath (P : Partition) (id : Nat) : Bool := P.swaths.any fun w => w.streams.contains id

/-- R247.3: mark the written streams of open steps dirty. -/
def markDirty (s : State) (p : Nat) (ids : List Nat) : State :=
  ids.foldl (fun x id => if inSwath (partOf x p) id then setStream x id fun st => { st with dirty := true } else x) s

end Sys2Proof.Machine
end

