-- ==== Sys2Proof/Machine/Ops.lean ====
section
/-! DEFINITION. What every command shares: queues and headers (R64 to R72, Table 3-2), the loader check's helpers (R82,
R566), functions and interrupts (R399, R439 to R441), fences (R73 to R76), the grant of engines (R404) and the BE bound
(R408, R409). -/

namespace Sys2Proof.Machine

/-! ### Queues -/

def queueOf (s : State) (q : Nat) : Queue := s.queues.getD q noQueue

/-- Change one queue. -/
def setQueue (s : State) (q : Nat) (f : Queue → Queue) : State := { s with queues := modifyAt q f s.queues }

def setCmd (s : State) (q : Nat) (f : Cmd → Cmd) : State := setQueue s q fun Q => { Q with cmd := Q.cmd.map f }

def setCounts (s : State) (q : Nat) (f : QueueCounts → QueueCounts) : State :=
  setQueue s q fun Q => { Q with counts := f Q.counts }

/-- Queue indices that hold a property. -/
def queuesWhere (s : State) (ok : Queue → Bool) : List Nat := (List.range 256).filter fun q => ok (queueOf s q)

/-! ### The header (Table 3-2) -/

def hOpcode (h : Nat) : Nat := fld h 0 12
def hUnits (h : Nat) : Nat := fld h 16 8
def hBe (h : Nat) : Bool := bitOf h 24
def hWait (h : Nat) : Bool := bitOf h 32
def hSignal (h : Nat) : Bool := bitOf h 33
def hRecord (h : Nat) : Bool := bitOf h 34
def hIrq (h : Nat) : Bool := bitOf h 35
def hStream (h : Nat) : Bool := bitOf h 36
def hSeed (h : Nat) : Bool := bitOf h 37
def hIgnoreErr (h : Nat) : Bool := bitOf h 38
def hWaitValue (h : Nat) : Nat := fld h 64 64
def hSignalValue (h : Nat) : Nat := fld h 128 64
def hWaitFence (h : Nat) : Nat := fld h 192 12
def hSignalFence (h : Nat) : Nat := fld h 208 12
def hStreamId (h : Nat) : Nat := fld h 224 20
def hSeedSel (h : Nat) : Nat := fld h 248 8
def hRecordAddr (h : Nat) : Nat := fld h 256 48
def hUserTag (h : Nat) : Nat := fld h 320 64

/-- Body units of each opcode (Table 3-5). -/
def opUnits (op : Nat) : Option Nat :=
  lookupKey op [(0x000, 0), (0x001, 0), (0x002, 1), (0x003, 0), (0x100, 3), (0x101, 4), (0x102, 2), (0x110, 3),
    (0x111, 3), (0x120, 3), (0x130, 2), (0x131, 2), (0x132, 2), (0x140, 2), (0x141, 1), (0x200, 1), (0x201, 1),
    (0x210, 0), (0x220, 2), (0x230, 1), (0x300, 1), (0x301, 2), (0x302, 1), (0x303, 1), (0x304, 1), (0x305, 1),
    (0x306, 1), (0x310, 2), (0x320, 1), (0x400, 1), (0x401, 1), (0x402, 1), (0x403, 1)]

/-- Opcodes that need a stream (R71, Table 3-5). -/
def opNeedsStream (op : Nat) : Bool :=
  [0x111, 0x120, 0x301, 0x302, 0x303, 0x304, 0x306, 0x320, 0x403].contains op

/-- Engine kind of an opcode: bits [11:8] (R85). -/
def opKind (op : Nat) : Nat := fld op 8 4

/-! ### Checks -/

/-- A body field at a bit that fails a check (R566: byte offset within the command, the body starting at 64). -/
def atBit (st : Status) (bit : Nat) : Fail := failAt st (64 + bit / 8) 0

/-- A field of a structure the command points to: the pointer's offset and the offset in the structure (R566). -/
def inStruct (st : Status) (ptrBit off : Nat) : Fail := failAt st (64 + ptrBit / 8) off

/-- Check 8: the first reserved field, given as (lowest bit, length), that is not 0. -/
def reservedBody (body : Nat) (fields : List (Nat × Nat)) : List (Bool × Fail) :=
  fields.map fun (lo, len) => (fld body lo len != 0, atBit .loadReservedNonzero lo)

/-- Fields that must be 0 while a condition holds (R13). -/
def zeroWhen (body : Nat) (cond : Bool) (fields : List (Nat × Nat)) : List (Bool × Fail) :=
  fields.map fun (lo, len) => (cond && fld body lo len != 0, atBit .loadReservedNonzero lo)

/-- Whether an identifier lies in a partition's range (R229). -/
def inRange (P : Partition) (id : Nat) : Bool :=
  decide (P.cfg.firstStream ≤ id) && decide (id < P.cfg.firstStream + P.cfg.streams)

/-- Check 9 on the header (R71, R229): present where the opcode needs it, and in the partition's range. -/
def streamCheck (_ : State) (P : Partition) (h : Nat) (need : Bool) : List (Bool × Fail) :=
  [(need && !hStream h, failAt .loadBadStream 4 0),
   (hStream h && !inRange P (hStreamId h), failAt .loadBadStream 28 0)]

/-- The seed a drawing command takes at stage B (R284). -/
def seedOf (P : Partition) (h : Nat) : Option W128 := if hSeed h then lookupKey (hSeedSel h) P.seeds else none

/-- Check 10 (R71): a command that draws needs SEED and a loaded slot; detail_a is 31 (R566). -/
def seedCheck (P : Partition) (h : Nat) (draws : Bool) : List (Bool × Fail) :=
  [(draws && (seedOf P h).isNone, failAt .loadSeedUnset 31 0)]

/-- Whether the rounding mode of a format byte draws (R38). -/
def fmtDraws (b : Nat) : Bool := (fmtByte b).rmode == 2

/-- Alignment of an address field. -/
def alignCheck (body lo n : Nat) : Bool × Fail := (fld body lo 48 % n != 0, atBit .loadAlign lo)

/-- Check 16 for reads and writes of an extent named by the address field at `lo`. -/
def readCheck (s : State) (p body lo n : Nat) : Bool × Fail := (!mappedRead s p (fld body lo 48) n, atBit .loadBounds lo)

def writeCheck (s : State) (p body lo n : Nat) : Bool × Fail := (!mappedWrite s p (fld body lo 48) n, atBit .loadBounds lo)

/-! ### The grant (R404) and the BE bound (R408, R409) -/

/-- Whether a furrow is enabled by the profile (R2, R22). -/
def furrowEnabled (s : State) (f : Nat) : Bool :=
  match s.boot.profile with
  | none => false
  | some pr => decide (f < 96) && (pr.furrows == 96 || (decide (pr.firstCol ≤ f % 12) && decide (f % 12 < pr.firstCol + 6)))

/-- Enabled, unfenced furrows of a partition. -/
def grantFurrows (s : State) (p : Nat) : List Nat :=
  (partFurrows (partOf s p)).filter fun f => furrowEnabled s f && !s.flt.furrows.contains f

/-- Enabled, unfenced engines of a partition: engines `2f` and `2f + 1` of each furrow. -/
def grantEngines (s : State) (p : Nat) : List Nat :=
  ((grantFurrows s p).flatMap fun f => [2 * f, 2 * f + 1]).filter fun e => !s.flt.engines.contains e

def engineOf (s : State) (e : Nat) : Engine := s.field.engines.getD e noEngine

/-- Change one engine. -/
def setEngine (s : State) (e : Nat) (f : Engine → Engine) : State :=
  { s with field := { s.field with engines := modifyAt e f s.field.engines } }

def harrowOf (s : State) (f : Nat) : Harrow := s.field.harrows.getD f noHarrow

def setHarrow (s : State) (f : Nat) (g : Harrow → Harrow) : State :=
  { s with field := { s.field with harrows := modifyAt f g s.field.harrows } }

/-- Free slots of an engine, ascending (R106, Table 4-4). -/
def freeSlots (s : State) (e : Nat) : List Nat :=
  let E := engineOf s e
  (List.range 16).filter fun i => match E.slots[i]? with | some sl => sl.st == .free | none => false

/-- R408: check 21 applies to a BE command of a kind when an enabled LC queue competes for the same takers. -/
def beBoundApplies (s : State) (Q : Queue) : Bool :=
  Q.cfg.be && s.queues.any fun R =>
    R.state != .disabled && !R.cfg.be && R.cfg.part == Q.cfg.part && R.cfg.kind == Q.cfg.kind
      && (Q.cfg.kind != 2 || R.cfg.channel == Q.cfg.channel)

/-- Check 21: an estimate in whole microseconds against the partition's bound (R409). DEDUCED, log entry 18. -/
def beCheck (s : State) (Q : Queue) (us : Nat) : Bool × Fail :=
  (beBoundApplies s Q && decide ((partOf s Q.cfg.part).cfg.beBound < us), failAt .loadBeTooLong 0xFFFFFFFF (min us (2 ^ 32 - 1)))

/-- A duration in ACLK at the nominal 1.40 GHz, in whole microseconds rounded up. -/
def aclkUs (cycles : Nat) : Nat := ceilDiv cycles 1400

/-- The share of the busiest of `n` takers when `w` items divide as evenly as whole items allow. -/
def busiest (w n : Nat) : Nat := ceilDiv w (max 1 n)

/-- Check 20 for loam: units of 4 KiB against the free quota. -/
def loamCheck (P : Partition) (units : Nat) : Bool × Fail := (decide (loamLeft P < units), failAt .loadQuota 0xFFFFFFFF 1)

/-- Check 12 for a missing taker (R522): a command whose takers are all fenced has none. -/
def takerCheck (n : Nat) : Bool × Fail := (n == 0, failNone .loadUnitDisabled)

/-! ### Functions and interrupts -/

def fnOf (s : State) (fn : Nat) : Function := s.fns.getD fn noFunction

def setFn (s : State) (fn : Nat) (f : Function → Function) : State := { s with fns := modifyAt fn f s.fns }

def setPci (s : State) (fn : Nat) (f : PciFn → PciFn) : State :=
  { s with pcie := { s.pcie with fns := modifyAt fn f s.pcie.fns } }

/-- The partition a function is bound to (R399): bind_pf for the physical function, vf_mask for VF n. -/
def fnPart (s : State) (fn : Nat) : Option Nat :=
  (List.range 4).find? fun p =>
    let P := partOf s p
    P.configured && (if fn = 0 then P.cfg.bindPf else decide (fn ≤ 4) && bitOf P.cfg.vfMask (fn - 1))

/-- Whether a function reaches a partition's queues, doorbells and fences (R399, R430). -/
def reaches (s : State) (fn p : Nat) : Bool := (pciFn s fn).enabled && fnPart s fn == some p

/-- Whether requests of a function arrive inside a Secure IDE stream: the link's, or a selective one whose range has the
function (R443). DEDUCED, log entry 81. -/
def arrivesSecure (s : State) (fn : Nat) : Bool :=
  (s.pcie.ide.getD 0 noIde).secure
    || ((s.pcie.ide.drop 1).any fun x => x.secure && decide (x.firstFn ≤ fn) && decide (fn ≤ x.lastFn))

/-- Whether the owner's policy demands IDE for a function (R496). -/
def ideDemanded (s : State) (fn : Nat) : Bool :=
  match fnPart s fn with | some p => bitOf s.sec.ideRequired p | none => false

/-- A write to a function's BAR0 (R431): it reaches an enabled function of a running device over a link that is up; one that
arrives outside a Secure stream against the policy is dropped and counted (R496). DEDUCED, log entry 74. PRESUMED, log entry 89. -/
def barWrite (s : State) (fn : Nat) (act : State → State) : State :=
  if !(s.boot.dev == .run && s.pcie.linkUp && (pciFn s fn).enabled && decide (fn < 5)) then s
  else if ideDemanded s fn && !arrivesSecure s fn then { s with sec := { s.sec with ideDrop := satAdd 32 s.sec.ideDrop 1 } }
  else act s

/-- R441: raise an MSI-X entry of a function: one message, or a pending bit when the entry is masked. A function in
D3hot raises none (R429), and a message is a request under Bus Master Enable (R436). DESIGN CHOICE, log entry 22. PRESUMED, log entry 73. -/
def raiseMsix (s : State) (fn entry : Nat) : State :=
  if (pciFn s fn).d3hot then s
  else if ((fnOf s fn).msix.getD entry 0).getLsbD 96 then setFn s fn fun F => { F with pba := setBit F.pba entry }
  else if mayIssue s fn then setPci s fn fun f => { f with sent := modifyAt entry (· + 1) f.sent }
  else s

/-- R440, R562: a cause of the event interrupt: the bit of SHD_EVENT is set as the interrupt is raised. -/
def raiseEventFn (s : State) (bit fn : Nat) : State :=
  raiseMsix (setFn s fn fun F => { F with event := setBit F.event bit }) fn 1

/-- The functions an event of a partition reaches: the physical function and the virtual functions bound to it. -/
def eventFns (s : State) (p : Nat) : List Nat := 0 :: (rangeFrom 1 4).filter fun fn => fnPart s fn == some p

def raiseEvent (s : State) (bit p : Nat) : State := (eventFns s p).foldl (fun st fn => raiseEventFn st bit fn) s

def raiseEventAll (s : State) (bit : Nat) : State := (List.range 5).foldl (fun st fn => raiseEventFn st bit fn) s

/-! ### Injection (R529) -/

/-- The slot in which a point is armed for a target. -/
def armedPoint (s : State) (point target : Nat) : Option (Nat × Inj) :=
  s.flt.inj.find? fun e => e.2.armed && e.2.point == point && e.2.target == target

/-- A point fires: it is counted, and its slot is freed after one event in mode 1 and after the count in mode 2. -/
def fireSlot (s : State) (slot : Nat) (x : Inj) : State :=
  let left := if x.mode = 3 then some x else if x.mode = 2 ∧ 1 < x.count then some { x with count := x.count - 1 } else none
  { s with flt := { s.flt with
      inj := match left with | some y => insertKey slot y s.flt.inj | none => eraseKey slot s.flt.inj
      fired := satAdd 48 s.flt.fired 1
      lastPoint := x.point
      lastTarget := x.target
      lastTime := s.now } }

/-- An event at a target: whether an armed point makes it fire, and the state after. -/
def injected (s : State) (point target : Nat) : Bool × State :=
  match armedPoint s point target with
  | some (i, x) => (true, fireSlot s i x)
  | none => (false, s)

/-- An event at a target that an armed point may have made: a point armed there fires. -/
def noteInjected (s : State) (point target : Nat) : State := (injected s point target).2

/-! ### Fences -/

def fenceOf (P : Partition) (f : Nat) : Fence := (lookupKey f P.fences).getD { value := 0, err := false }

/-- Whether a wait is satisfied (R74). -/
def waitMet (P : Partition) (h : Nat) : Bool := decide (hWaitValue h ≤ (fenceOf P (hWaitFence h)).value)

/-- Leave a result at the head of a queue, for its commit. -/
def setResult (s : State) (q : Nat) (r : Result) : State := setQueue s q fun Q => { Q with result := some r }

/-- The wait of a queue's command has been satisfied: CHECK, or ABORT_UPSTREAM when the fence carries its error bit and
IGNORE_ERR is clear (R76). -/
def leaveWait (P : Partition) (Q : Queue) : Queue :=
  match Q.cmd with
  | none => Q
  | some c =>
    if (fenceOf P (hWaitFence c.hdr)).err && !hIgnoreErr c.hdr then
      { Q with state := .check, result := some ⟨.abortUpstream, 0, 0, 0⟩ }
    else { Q with state := .check }

/-- Every queue of partition `p` whose wait is now met leaves WAIT, but for a command that an abort has ended there (R87, R92). -/
def releaseWaiters (s : State) (p : Nat) : State :=
  let P := partOf s p
  { s with queues := s.queues.map fun Q =>
      if Q.state == .wait && Q.result.isNone && Q.cfg.part == p && (match Q.cmd with | some c => waitMet P c.hdr | none => false)
      then { leaveWait P Q with since := s.now } else Q }

/-- R75: raise a fence's value, set its error bit for an error status, and let satisfied waits go. -/
def signalCore (s : State) (p f v : Nat) (err : Bool) : State :=
  releaseWaiters (setPart s p fun P =>
    let F := fenceOf P f
    { P with fences := insertKey f { value := max F.value v, err := F.err || err } P.fences }) p

/-! ### Starting a command -/

/-- R234: whether the header of a command names a stream of its partition that is in transit. -/
def headerTransit (s : State) (p : Nat) (c : Cmd) : Bool :=
  hStream c.hdr && (match streamOf s (hStreamId c.hdr) with | some st => st.part == p && st.transit | none => false)

/-- The command of queue `q` when it stands in CHECK with an opcode, has no result yet, its owner is not in D3hot and the stream of
its header not in transit (R68, R234, R429); otherwise the step does not occur. -/
def inCheck (s : State) (q op : Nat) : Option (Queue × Cmd) :=
  let Q := queueOf s q
  match Q.state, Q.cmd, Q.result with
  | .check, some c, none =>
    if hOpcode c.hdr = op ∧ (pciFn s Q.cfg.owner).d3hot = false ∧ headerTransit s Q.cfg.part c = false then some (Q, c) else none
  | _, _, _ => none

/-- The next stage-B order number (R405). -/
def nextOrder (s : State) : Nat := (s.queues.foldl (fun m Q => match Q.cmd with | some c => max m c.order | none => m) 0) + 1

/-- The command begins to execute: RUN, start time, stage-B order and seed (Table 3-1, Table 3-3, R284). DESIGN CHOICE, log entry 42. -/
def beginRun (s : State) (q : Nat) : State :=
  let n := nextOrder s
  setQueue s q fun Q => { Q with
    state := .run
    cmd := Q.cmd.map fun c => { c with start := some s.now, order := n, seed := seedOf (partOf s Q.cfg.part) c.hdr } }

/-- R94, R465, R474: why a BE command whose execution would begin is not run. -/
def beHeld (s : State) (Q : Queue) : Option Fail :=
  if Q.cfg.be && s.pwr.hold then some (failAt .pwrThermal 0 0)
  else if Q.cfg.be && s.pwr.shed then some (failAt .pwrRefused 0 0)
  else none

/-- Release every held slot of a queue (R111). -/
def releaseHeld (s : State) (q : Nat) : State :=
  setQueue { s with field := { s.field with engines := s.field.engines.map fun E =>
      { E with slots := E.slots.map fun sl => if sl.st == .held && sl.q == q then freeSlot else sl } } } q
    fun Q => { Q with held := [] }

/-- Whether a command consumes the held tiles of its queue (R110): MX_GEMM with init_sel = 2. -/
def isConsumer (c : Cmd) : Bool := hOpcode c.hdr == 0x100 && fld c.body 544 3 == 2

/-- R111: at stage B of a command that is no consumer the queue's held slots are released. DEDUCED, log entry 14. -/
def enterStageB (s : State) (q : Nat) (c : Cmd) : State :=
  if (queueOf s q).held.isEmpty || isConsumer c then s else releaseHeld s q

/-- The resident streams that a command writes: those named by a RECUR_CELL or SCAN_LINEAR (R207). -/
def writtenStreams (Q : Queue) : List Nat :=
  match Q.cmd with
  | some c => if hOpcode c.hdr == 0x110 || hOpcode c.hdr == 0x111 then c.streams else []
  | none => []

/-- End an execution early with a status: outputs and named resident states become free values where Table 0-5 and R228
leave them undefined. -/
def endEarly (s : State) (q p : Nat) (f : Fail) (outs : List (Nat × Nat)) (work : Nat) : State :=
  if outputsUndefined f.status then
    setResult ((writtenStreams (queueOf s q)).foldl markUndef (havoc s p q outs)) q (failResult f work)
  else setResult s q (failResult f work)

end Sys2Proof.Machine
end

