-- ==== Sys2Proof/Machine/Detectors.lean ====
section
/-! DEFINITION. Detector events of storage (R326, R342, R345, R514 to R516, R522, R529): the owners of a unit, its failure, and what an
armed injection point makes of the lines that the device reads. -/

namespace Sys2Proof.Machine

def setFlt (s : State) (f : Faults → Faults) : State := { s with flt := f s.flt }

def setSub (s : State) (h : Nat) (f : SubChannel → SubChannel) : State :=
  { s with mem := { s.mem with channels := modifyAt h f s.mem.channels } }

/-! ### Units and their owners -/

/-- The slices of a configuration: those beneath its columns, and the extra ways (Table 17-1). -/
def waysOf (c : PartCfg) : List Nat :=
  (List.range 96).filter fun f => (decide (c.firstCol ≤ f % 12) && decide (f % 12 < c.firstCol + c.cols)) || bitOf c.extraWays f

/-- Subsoil stacks that the profile enables. -/
def stackCount (s : State) : Nat := match s.boot.profile with | some pr => pr.hbmStacks | none => 0

/-- The furrows at the ends of a neighbour link: the 88 east links row by row, then the 84 south links (Table 24-7). -/
def linkEnds (l : Nat) : Nat × Nat :=
  if l < 88 then (l / 11 * 12 + l % 11, l / 11 * 12 + l % 11 + 1) else (l - 88, l - 88 + 12)

/-- Neighbour links that are down: those that have failed, and those to a furrow that the profile disables (R22). -/
def linksDown (s : State) : List Nat :=
  (List.range 172).filter fun l => s.flt.links.contains l
    || (s.boot.profile.isSome && !(furrowEnabled s (linkEnds l).1 && furrowEnabled s (linkEnds l).2))

/-- Whether a unit has failed already: a failure persists until the next start (R515). -/
def unitFailed (s : State) : FailUnit → Bool
  | .engine e => s.flt.engines.contains e || s.flt.furrows.contains (e / 2)
  | .furrow f => s.flt.furrows.contains f
  | .link l => s.flt.links.contains l
  | .frame n => s.flt.frames.contains n || s.flt.slices.contains (n / 768)
  | .slice n => s.flt.slices.contains n
  | .channel h => (s.mem.channels.getD h noSubChannel).failed
  | .block _ => s.flt.halted
  | .buffer _ => false

/-- The partitions that own a unit (R522). -/
def ownersOf (s : State) (u : FailUnit) : List Nat :=
  let col (c : PartCfg) (f : Nat) : Bool := decide (c.firstCol ≤ f % 12) && decide (f % 12 < c.firstCol + c.cols)
  (List.range 4).filter fun p =>
    let P := partOf s p
    P.configured && (match u with
      | .engine e => col P.cfg (e / 2)
      | .furrow f => col P.cfg f
      | .link l => col P.cfg (linkEnds l).1 || col P.cfg (linkEnds l).2
      | .frame n => (waysOf P.cfg).contains (n / 768)
      | .slice n => (waysOf P.cfg).contains n
      | .channel h => bitOf P.cfg.groupMask (h / 8)
      | .block _ => true
      | .buffer n => (s.drill.getD n noChannel).part == some p)

/-- R522: the event interrupt of every function of the owning partitions and of the physical function. -/
def raiseFenced (s : State) (u : FailUnit) : State :=
  (((0 :: (ownersOf s u).flatMap (eventFns s)).eraseDups).foldl (fun x fn => raiseEventFn x 4 fn)) s

/-- new_fence and the event interrupt tell of a fence. -/
def tellFence (s : State) (u : FailUnit) : State := raiseFenced (setFlt s fun F => { F with newFence := true }) u

/-- A unit of storage or a link takes no new work (Table 24-2). -/
def markFenced (s : State) (u : FailUnit) : State :=
  match u with
  | .link l => setFlt s fun F => { F with links := F.links ++ [l] }
  | .frame n => setFlt s fun F => { F with frames := F.frames ++ [n] }
  | .slice n => setFlt s fun F => { F with slices := F.slices ++ [n] }
  | .channel h => raiseEventAll (setSub s h fun c => { c with failed := true }) 2
  | .engine _ => s
  | .furrow _ => s
  | .block _ => s
  | .buffer _ => s

/-- Whether a failure of a unit is in handling. -/
def inHandling (s : State) (u : FailUnit) : Bool := s.flt.handling.any fun h => h.unit == u

/-- A failure joins those in handling (stage 1). -/
def joinHandling (s : State) (u : FailUnit) (det : Nat) (inj : Bool) : State :=
  setFlt s fun F => { F with handling := F.handling ++ [⟨u, det, inj, s.now, false⟩] }

/-- The failure of a slice or a channel is latched (R519): it is fenced at once unless another is in handling (R520). -/
def latchStorage (s : State) (u : FailUnit) (det : Nat) (inj : Bool) : State :=
  if unitFailed s u || inHandling s u then s
  else
    let s1 := joinHandling s u det inj
    if s.flt.handling.isEmpty then tellFence (markFenced s1 u) u else s1

/-! ### Detector events -/

/-- A detector event is counted. -/
def countEvent (s : State) (det : Nat) : State :=
  setFlt s fun F => { F with events := insertKey det ((lookupKey det F.events).getD 0 + 1) F.events }

/-- An event under a key in the last second: how many there are now, with this one. -/
def countLine (s : State) (key : Nat) : Nat × State :=
  let kept := (s.flt.lines ++ [(key, s.now)]).filter fun e => decide (s.now < e.2 + 1000000000)
  ((kept.filter (·.1 == key)).length, setFlt s fun F => { F with lines := kept })

/-- The second one within a second fails; a new count follows. -/
def secondLine (s : State) (key n : Nat) : Bool × State :=
  let (k, s1) := countLine s key
  if n ≤ k then (true, setFlt s1 fun F => { F with lines := F.lines.filter (·.1 != key) }) else (false, s1)

/-- An uncorrectable loam line of a slice (R515): 16 within 1 s fail the slice. -/
def countLoamLine (s : State) (n : Nat) (inj : Bool) : State :=
  let (bad, s1) := secondLine s n 16
  if bad then latchStorage s1 (.slice n) 0x09 inj else s1

/-- A subsoil line of a channel is uncorrectable (R345): 16 within 1 s fail the channel. -/
def countSubLine (s : State) (h : Nat) (inj : Bool) : State :=
  let s1 := setSub s h fun c => { c with
    uncorrectable := satAdd 32 c.uncorrectable 1
    recent := (c.recent ++ [s.now]).filter fun t => decide (s.now < t + 1000000000) }
  if 16 ≤ (s1.mem.channels.getD h noSubChannel).recent.length then latchStorage s1 (.channel h) 0x0D inj else s1

def countSubCorrected (s : State) (h : Nat) : State := setSub s h fun c => { c with corrected := satAdd 32 c.corrected 1 }

/-- A line that is found uncorrectable stays so until it is written whole (R326, R342). -/
def poisonLine (s : State) (line : Nat) : State := { s with mem := { s.mem with poison := (s.mem.poison ++ [line]).eraseDups } }

/-! ### Reads of lines (R334, R529) -/

/-- The slice of a loam address. -/
def sliceOfAddr (a : Nat) : Nat := (a - loamBase) / plotBytes / 768

/-- Whether a line lies in the target of a point of the loam or the subsoil code (Table 24-5). -/
def pointCovers (point target line : Nat) : Bool :=
  let a := line * 64
  if point = 0x08 ∨ point = 0x09 then !isSub a && decide (loamBase ≤ a) && sliceOfAddr a == target
  else if point = 0x0C ∨ point = 0x0D then isSub a && channelOf a == target
  else false

/-- What an armed point makes of a read of a line: a correction, or an uncorrectable line. -/
def readFires (s : State) (point target line : Nat) : State :=
  let s1 := (injected s point target).2
  if point = 0x08 then countEvent s1 0x08
  else if point = 0x09 then countLoamLine (countEvent (poisonLine s1 line) 0x09) target true
  else if point = 0x0C then countSubCorrected (countEvent s1 0x0C) target
  else countSubLine (countEvent (poisonLine s1 line) 0x0D) target true

/-- Every armed point that covers a line of a read fires at the first such line. -/
def fireReads (s : State) (first : (Nat → Bool) → Option Nat) : State :=
  s.flt.inj.foldl (fun x (_, j) =>
    if j.armed then match first (pointCovers j.point j.target) with
      | some l => readFires x j.point j.target l
      | none => x
    else x) s

/-- The first line of device memory in a partition's spans that a test selects. -/
def firstInSpans (s : State) (p : Nat) (spans : List (Nat × Nat)) (ok : Nat → Bool) : Option Nat :=
  spans.findSome? fun (va, n) =>
    if n = 0 then none
    else (rangeFrom (va / 64) ((va + n - 1) / 64 + 1 - va / 64)).findSome? fun l => match locate s p (l * 64) with
      | .ok (.phys a) => if ok (a / 64) then some (a / 64) else none
      | _ => none

/-- Reads of extents: a use of every plot they touch, their subsoil lines, and the points that they fire. -/
def useReads (s : State) (p : Nat) (spans : List (Nat × Nat)) : State :=
  fireReads (chargeReads (touchPlots s p spans) p spans) (firstInSpans s p spans)

/-- Up to `n` events of a point at a target: how many fire. -/
def fireTimes (point target : Nat) : Nat → State → Nat × State
  | 0, s => (0, s)
  | n + 1, s => match injected s point target with
    | (true, s1) => let (k, s2) := fireTimes point target n s1; (k + 1, s2)
    | (false, _) => (0, s)

/-- The functions under whose identifier a partition's spans reach host memory (R436). -/
def hostFns (s : State) (p : Nat) (spans : List (Nat × Nat)) : List Nat :=
  let P := partOf s p
  ((P.plots.filter fun e => e.2.home == .host && touches spans e.1).filterMap fun e =>
    match e.2.anchor.bind (lookupKey · P.anchors) with
    | some (.host _ fn) => if mayIssue s fn then some fn else none
    | _ => none).eraseDups

/-- What armed points make of the completions of a function's reads (R437): one that is withheld ends the request; poisoned ones
end it when the reissues meet them too. -/
def completionFires (s : State) (fn : Nat) : Option Fail × State :=
  match injected s 0x1A fn with
  | (true, s1) => (some (failAt .memFarTimeout 0 0), { s1 with pcie := { s1.pcie with cplTimeout := satAdd 32 s1.pcie.cplTimeout 1 } })
  | (false, _) =>
    let (k, s1) := fireTimes 0x19 fn 4 s
    (if k = 4 then some (failAt .memUnmapped 0 0) else none, s1)

/-- The first failure among the completions of a partition's reads of host memory. -/
def hostFires (s : State) (p : Nat) (spans : List (Nat × Nat)) : Option Fail × State :=
  (hostFns s p spans).foldl (fun (f, x) fn => if f.isSome then (f, x) else completionFires x fn) (none, s)

/-- A read of a region of device memory for a partition: its subsoil lines, and the points that it fires. -/
def useLines (s : State) (p : Nat) (lines : List Nat) : State :=
  let n := (lines.filter fun l => isSub (l * 64)).length
  fireReads (if n = 0 then s else regulate s p n false) fun ok => lines.find? ok

end Sys2Proof.Machine
end

