-- ==== Sys2Proof/Machine/Operands.lean ====
section
/-! DEFINITION. Tensor operands: packed rows (R125), MX blocks and scales (R36, R44), exact dot products in the order of
R43 to R48, and rows written under R49 to R53 with their numeric events (R59). -/

namespace Sys2Proof.Machine

/-- Bytes that a row of `n` packed elements takes (R125). -/
def rowBytes (f : Fmt) (n : Nat) : Nat := ceilDiv (n * elemBits f) 8

/-- The format of a format byte; FP32 stands in for a byte that check 11 has refused. -/
def fmtOf (b : Nat) : Fmt := (fmtByte b).fmt.getD .fp32

/-- The bits of the `n` elements of a row at `va`, packed from the low bits up (R125). -/
def loadElems (s : State) (p : Nat) (f : Fmt) (va n : Nat) : Except Fail (List Nat) :=
  match loadBytes s p va (rowBytes f n) with
  | .error e => .error e
  | .ok bs =>
    let w := elemBits f
    let x := ofLe bs
    .ok ((List.range n).map fun i => fld x (w * i) w)

/-- A row of a scalar format, widened exactly (R45, R188). -/
def loadRow (s : State) (p : Nat) (f : Fmt) (va n : Nat) : Except Fail (List FV) :=
  match loadElems s p f va n with
  | .error e => .error e
  | .ok xs => .ok (xs.map (elemFV f))

/-- Cut a list into pieces of `k`. -/
def chunksOf {α : Type} (k : Nat) : Nat → List α → List (List α)
  | 0, _ => []
  | fuel + 1, xs => match xs with
    | [] => []
    | _ => xs.take k :: chunksOf k fuel (xs.drop k)

/-- A row of an MX format as blocks of 32 with their scales (R36, R37): `none` marks a row of scalars. -/
inductive OpRow where
  | scalar (xs : List FV)
  | mx (blocks : List (Nat × List FV))
  deriving DecidableEq, Repr

/-- A matrix-operand row: `n` elements at `va`, with its block scales at `sva` when the format is MX. -/
def loadOpRow (s : State) (p : Nat) (f : Fmt) (va sva n : Nat) : Except Fail OpRow :=
  match loadElems s p f va n with
  | .error e => .error e
  | .ok xs =>
    if isMx f then
      match loadBytes s p sva (ceilDiv n 32) with
      | .error e => .error e
      | .ok sc => .ok (.mx ((sc.map (·.toNat)).zip (chunksOf 32 (n + 1) (xs.map (elemFV f)))))
    else .ok (.scalar (xs.map (elemFV f)))

/-- The values of a row under its block scales (R36), for the element-wise commands. -/
def opRowValues : OpRow → List FV
  | .scalar xs => xs
  | .mx bs => bs.flatMap fun (sc, xs) => xs.map fun x => if sc = 0xFF then .nan else scale2 ((sc : Int) - 127) x

/-- A row of any format as values, its scales at `sva`. -/
def loadValues (s : State) (p : Nat) (f : Fmt) (va sva n : Nat) : Except Fail (List FV) :=
  match loadOpRow s p f va sva n with
  | .error e => .error e
  | .ok r => .ok (opRowValues r)

/-- One MX block's exact addend (R44): the exact sum of products scaled by both block scales; NaN when a scale is 0xFF. A sum of
products that are all -0 is +0. DEDUCED, log entry 41. -/
def mxAddend (a b : Nat × List FV) : FV :=
  if a.1 = 0xFF ∨ b.1 = 0xFF then .nan
  else scale2 ((a.1 : Int) + b.1 - 254) ((List.zipWith exactMul a.2 b.2).foldl exactAdd pzero)

/-- The exact addends of a dot product, one per step (R43, R44). -/
def addends : OpRow → OpRow → List FV
  | .scalar xs, .scalar ys => List.zipWith exactMul xs ys
  | .mx xs, .mx ys => List.zipWith mxAddend xs ys
  | _, _ => []

/-- An integer zero has no sign (R47): the addend of an INT8 product. DEDUCED, log entry 28. -/
def unsignZero (x : FV) : FV := if isZero x then pzero else x

/-- The addends of a product of operands of format `f`. -/
def addendsFor (f : Fmt) (a b : OpRow) : List FV := if f == .int8 then (addends a b).map unsignZero else addends a b

/-- Accumulate addends in ascending order from an initial value (R42, R43); `none` is a step that is not taken (R114,
R152). -/
def accumulate (init : FV) (ps : List (Option FV)) : FV := (ps.filterMap id).foldl accStep init

/-- R45 to R48: without split, the steps start from the initial value; with split, each chunk of `per` steps starts from
+0, the tree combines the chunks in order and the initial value is added last. -/
def dotProduct (init : FV) (per : Nat) (ps : List (Option FV)) : FV :=
  if per = 0 then accumulate init ps
  else fadd init (tree fadd ((chunksOf per (ps.length + 1) ps).map (accumulate pzero)))

/-! ### Written rows -/

/-- Pack the bits of a row from the low bits up into whole bytes (R116, R125). -/
def packRow (f : Fmt) (xs : List Nat) : List Byte :=
  let w := elemBits f
  toLe (rowBytes f xs.length) (xs.foldr (fun x acc => x % 2 ^ w + 2 ^ w * acc) 0)

/-- A row narrowed to a format byte: its bytes, its scale bytes and its event. `draw j` is the lane of element `j`
(R50, R290). MX blocks form along the row (R53). -/
def narrowRow (fb : Nat) (draw : Nat → W32) (xs : List FV) : List Byte × List Byte × NumEvent :=
  let f := fmtOf fb
  let sat := (fmtByte fb).sat
  let moded := (List.range xs.length).zip xs |>.map fun (j, x) => (rmodeOf fb (fun _ => draw j), x)
  if isMx f then
    let blocks := (chunksOf 32 (xs.length + 1) moded).map (narrowMx f)
    let elems := blocks.flatMap (·.2)
    (packRow f (elems.map (·.1)), blocks.map fun b => BitVec.ofNat 8 b.1, (elems.map (·.2)).foldl worse .none)
  else
    let elems := moded.map fun (md, x) => narrow f md sat x
    (packRow f (elems.map (·.1)), [], (elems.map (·.2)).foldl worse .none)

/-- A row to be written: address, scale address, bytes, scale bytes and event. -/
structure OutRow where
  va : Nat
  sva : Nat
  bytes : List Byte
  scales : List Byte
  ev : NumEvent
  deriving DecidableEq, Repr

/-- Narrow a row for its place in memory. -/
def outRow (fb : Nat) (draw : Nat → W32) (va sva : Nat) (xs : List FV) : OutRow :=
  let (b, sc, ev) := narrowRow fb draw xs
  { va := va, sva := sva, bytes := b, scales := sc, ev := ev }

/-- The writes of the rows, in order. -/
def outWrites (rows : List OutRow) : List (Nat × List Byte) :=
  rows.flatMap fun r => (r.va, r.bytes) :: (if r.scales.isEmpty then [] else [(r.sva, r.scales)])

/-- The worst event of the rows (R59). -/
def outEvent (rows : List OutRow) : NumEvent := (rows.map (·.ev)).foldl worse .none

/-- The draw of an element for a command's seed (R284, R290). -/
def laneOf (seed : Option W128) (stream x2 x1 x0 : Nat) : W32 :=
  match seed with
  | some k => seedLane k stream x2 x1 x0
  | none => 0

/-- Write the rows of a command and leave its result, or end it early with its outputs undefined (R92, Table 0-5). -/
def writeRows (s : State) (q p : Nat) (rows : Except Fail (List OutRow)) (outs : List (Nat × Nat))
    (stall : Option Nat) (work : Nat) : State :=
  match rows with
  | .error f => endEarly s q p f outs 0
  | .ok rs => match storeAll s p q (outWrites rs) with
    | .error f => endEarly s q p f outs 0
    | .ok s1 => setResult s1 q (completedResult (outEvent rs) stall none work)

/-- Row spans of a two-dimensional output. -/
def rowSpans (va stride rows bytes : Nat) : List (Nat × Nat) := (List.range rows).map fun i => (va + i * stride, bytes)

/-- The extent of `rows` rows of `bytes` bytes at a stride (R145, R567). DEDUCED, log entry 17. -/
def extent (rows stride bytes : Nat) : Nat := (rows - 1) * stride + bytes

/-- The spans that are read of `rows` rows of `bytes` bytes at a stride: one, unless whole lines lie between the rows, which nothing
reads (R113, R334). DEDUCED, log entry 21. -/
def rowReads (va stride rows bytes : Nat) : List (Nat × Nat) :=
  if stride < bytes + 64 then [(va, extent rows stride bytes)] else rowSpans va stride rows bytes

/-- Whether a stride of a BF16 or FP16 tensor is odd (Table 5-4). -/
def oddStride (fb stride : Nat) : Bool := (fmtOf fb == .bf16 || fmtOf fb == .fp16) && stride % 2 == 1

/-- R116 along the block dimension: an even extent for MXFP4, a multiple of 4 for MXFP6. -/
def mxExtentOk (fb n : Nat) : Bool :=
  match fmtOf fb with
  | .mxE2M1 => n % 2 == 0
  | .mxE2M3 | .mxE3M2 => n % 4 == 0
  | _ => true

end Sys2Proof.Machine
end

