-- ==== Sys2Proof/Machine/Harrow.lean ====
section
/-! DEFINITION. The harrow: micro-operations (R169 to R171), seams and the fix-up (R172 to R174), special values (R178),
the built-in functions as commands name them (R175 to R184), epilogues (R185) and row reductions (R192, R193). -/

namespace Sys2Proof.Machine

/-- Lane registers: x0 to x7 and k0 to k7. -/
structure Lane where
  x : List FV
  k : List FV
  deriving DecidableEq, Repr

def laneX (l : Lane) (i : Nat) : FV := l.x.getD i pzero
def laneSet (l : Lane) (i : Nat) (v : FV) : Lane := { l with x := l.x.set i v }

/-- The integer nearest to a value, ties to even, as FP32 (Table 7-2 RINT). -/
def rint : FV → FV
  | .fin n m e => let k := roundTo .nearest m e 0 0; .fin n k 0
  | x => x

/-- The integer value of a finite integral number, for SCALE. -/
def intOf : FV → Int
  | .fin n m e => let k : Int := if 0 ≤ e then m * 2 ^ e.toNat else m / 2 ^ (-e).toNat; if n then -k else k
  | _ => 0

/-- `a × 2^b` rounded once (Table 7-2 SCALE). A shift beyond 512 gives what one of 512 gives; an exponent that is no number
gives what the product by that power gives. DEDUCED, log entry 155. -/
def scaleBy (a b : FV) : FV :=
  match b with
  | .nan => .nan
  | .inf n => fmul a (if n then pzero else .inf false)
  | .fin _ _ _ => round32 (scale2 (max (-512) (min 512 (intOf b))) a)

/-- The biased exponent and the top `m` trailing mantissa bits of an FP32 magnitude (R171). -/
def expField (w : Nat) : Nat := fld w 23 8
def topMantissa (w m : Nat) : Nat := fld w (23 - m) m

/-- The coefficient row a LOOKUP selects (R171). -/
def lookupRow (imm : Nat) (x : FV) : Nat :=
  let w := bits32 x
  let mode := fld imm 30 2
  let m := fld imm 26 4
  let emin := fld imm 18 8
  let emax := fld imm 10 8
  let base := fld imm 0 10
  let e := max emin (min emax (expField w))
  let t := topMantissa w m
  if mode = 0 then base + (e - emin) else if mode = 1 then base + t else base + (e - emin) * 2 ^ m + t

/-- One micro-operation (Table 7-2); LOOKUP reads the program's own rows. SPLIT of a zero writes +0 to dst and keeps src1, and SPLIT
of an infinity or a NaN changes nothing; where dst is src1, the exponent stands. DESIGN CHOICE, log entry 168. -/
def microOp (prog : Micro) (op : Nat) (l : Lane) : Lane :=
  let kind := fld op 56 8
  let d := fld op 53 3
  let i1 := fld op 50 3
  let a := laneX l i1
  let b := laneX l (fld op 47 3)
  let c := laneX l (fld op 44 3)
  let imm := fld op 0 32
  if kind = 0x01 then laneSet l d (fadd a b)
  else if kind = 0x02 then laneSet l d (fmul a b)
  else if kind = 0x03 then laneSet l d (ffma a b c)
  else if kind = 0x04 then laneSet l d (fmin a b)
  else if kind = 0x05 then laneSet l d (fmax a b)
  else if kind = 0x06 then laneSet l d (f32 imm)
  else if kind = 0x07 then laneSet l d (rint (fmul a (f32 imm)))
  else if kind = 0x08 then
    match a with
    | .fin n m e =>
      if m = 0 then laneSet l d pzero
      else
        let q := leadExp m e
        laneSet (laneSet l i1 (.fin n m (e - q))) d (.fin (decide (q < 0)) q.natAbs 0)
    | _ => l
  else if kind = 0x09 then
    let row := prog.rows.getD (lookupRow imm a - prog.firstRow) []
    { l with k := (List.range 8).map fun i => f32 (row.getD i 0) }
  else if kind = 0x0A then laneSet l d (ffma (laneX l d) a (l.k.getD (fld imm 0 3) pzero))
  else if kind = 0x0B then laneSet l d (scaleBy a b)
  else if kind = 0x0C then laneSet l d (if flt c (f32 imm) then a else b)
  else if kind = 0x0D then laneSet l d (if fsign b then fneg (fabs a) else fabs a)
  else l

/-- A clamp from the seam at or below the input (R173). -/
def clampLower (kind : SeamKind) (v y : FV) : FV :=
  match kind with
  | .increasing => fmax y v
  | .decreasing => fmin y v
  | .turning => y

/-- A clamp from the seam above the input (R173). -/
def clampUpper (kind : SeamKind) (v y : FV) : FV :=
  match kind with
  | .increasing => fmin y v
  | .decreasing => fmax y v
  | .turning => y

/-- The family entry whose interval holds an input (R172). -/
def familyOf (seams : List Seam) (x : FV) : Option SeamKind :=
  seams.findSome? fun
    | .point .. => none
    | .binade k lo hi _ => if fle (f32 lo) x && flt x (f32 hi) then some k else none
    | .reduce k lo hi _ => if fle (f32 lo) x && flt x (f32 hi) then some k else none

/-- The last point entry at or below an input, and the first above it (R173). -/
def pointBelow (seams : List Seam) (x : FV) : Option (SeamKind × Nat) :=
  (seams.filterMap fun | .point s v k => if fle (f32 s) x then some (k, v) else none | _ => none).getLast?

def pointAbove (seams : List Seam) (x : FV) : Option (SeamKind × Nat) :=
  (seams.filterMap fun | .point s v k => if flt x (f32 s) then some (k, v) else none | _ => none).head?

/-- Stage 11 (R173): clamp a result by the nearest seam instances on both sides; NaN passes unchanged. -/
def fixUp (prog : Micro) (x : FV) (l : Lane) (y : FV) : FV :=
  if isNan y then y
  else match familyOf prog.seams x with
    | some k =>
      let y1 := if isNan (laneX l 6) then y else clampLower k (laneX l 6) y
      if isNan (laneX l 7) then y1 else clampUpper k (laneX l 7) y1
    | none =>
      let y1 := match pointBelow prog.seams x with | some (k, v) => clampLower k (f32 v) y | none => y
      match pointAbove prog.seams x with | some (k, v) => clampUpper k (f32 v) y1 | none => y1

/-- Run a microprogram on an element (R169, R174): the element enters in x0 and the result leaves in x0. -/
def runMicro (prog : Micro) (x : FV) : FV :=
  let l := prog.ops.foldl (fun l op => microOp prog op l)
    { x := x :: List.replicate 7 pzero, k := List.replicate 8 pzero }
  fixUp prog x l (laneX l 0)

/-! ### Functions -/

/-- Table 7-5: the special values of a built-in as FP32 words, in the order NaN, -inf, +inf, -0, +0. -/
def specialRow (id : Nat) : Option (List Nat) :=
  let n := 0x7FC00000; let mi := 0xFF800000; let pi := 0x7F800000; let mz := 0x80000000; let one := 0x3F800000
  lookupKey id [
    (0x08, [n, 0, pi, one, one]), (0x09, [n, 0, pi, one, one]),
    (0x0A, [n, n, pi, mi, mi]), (0x0B, [n, n, pi, mi, mi]),
    (0x0C, [n, mz, 0, mi, pi]), (0x0D, [n, n, pi, mz, 0]), (0x0E, [n, n, 0, mi, pi]),
    (0x10, [n, 0xBF800000, one, mz, 0]), (0x11, [n, 0, one, 0x3F000000, 0x3F000000]),
    (0x12, [n, mz, pi, mz, 0]), (0x13, [n, mz, pi, mz, 0]), (0x14, [n, 0, pi, 0x3F317218, 0x3F317218])]

/-- The place of a special input in a special-value row (R178). -/
def specialIndex : FV → Option Nat
  | .nan => some 0
  | .inf true => some 1
  | .inf false => some 2
  | .fin true 0 _ => some 3
  | .fin false 0 _ => some 4
  | _ => none

/-- The identifiers whose function is replaced in ZG40 compatibility mode (Table 7-6). -/
def zg40Ids : List Nat := [0x08, 0x0A, 0x0E, 0x10, 0x11, 0x12]

/-- LOG, LOG2, SQRT and RSQRT of a negative finite input are NaN (R178). -/
def negativeIsNan (id : Nat) : Bool := [0x0A, 0x0B, 0x0D, 0x0E].contains id

/-- The results of a built-in beyond its outermost seams (R175). -/
def cutOff (id : Nat) (x : FV) : Option FV :=
  let above (m : Nat) (e : Int) := flt (.fin false m e) x
  let below (m : Nat) (e : Int) := flt x (.fin true m e)
  match id with
  | 0x10 => if above 73 (-3) then some fone else if below 73 (-3) then some (fneg fone) else none
  | 0x11 => if above 35 (-1) then some fone else if below 104 0 then some pzero else none
  | 0x12 => if above 11 (-1) then some x else if below 29 (-1) then some (fneg pzero) else none
  | 0x13 => if above 35 (-1) then some x else if below 108 0 then some (fneg pzero) else none
  | 0x14 => if above 16 0 then some x else if below 104 0 then some pzero else none
  | _ => none

/-- A loaded microprogram by identifier (R181). -/
def microOf (s : State) (id : Nat) : Option Micro := s.boot.loaded.find? (·.ident == id)

/-- A special function of Table 7-4 or of the profile on one element (R175 to R184). `zg40` is the partition's mode.
DESIGN CHOICE, log entry 8. -/
def specialFn (s : State) (zg40 : Bool) (id : Nat) (x : FV) : FV :=
  match specialIndex x, specialRow id with
  | some i, some row => f32 (row.getD i 0x7FC00000)
  | idx, _ =>
    if negativeIsNan id && fsign x then .nan
    else if zg40 && zg40Ids.contains id then f32 (Config.zg40Function id (bits32 x)).toNat
    else match cutOff id x with
      | some y => y
      | none => match microOf s id with
        | none => f32 (Config.unloadedFunction id (bits32 x)).toNat
        | some prog => match idx with
          | some i => f32 (prog.special.getD i 0x7FC00000)
          | none => runMicro prog x

/-- A function identifier applied with its parameters (R176, Table 7-4); 0 is none. -/
def applyFn (s : State) (zg40 : Bool) (id p0 p1 : Nat) (x : FV) : FV :=
  if id = 0x00 then x
  else if id = 0x01 then (if isNan x then .nan else if flt pzero x then x else pzero)
  else if id = 0x02 then (if isNan x then .nan else if fle pzero x then x else fmul (f32 p0) x)
  else if id = 0x03 then fmin (fmax x (f32 p0)) (f32 p1)
  else if id = 0x04 then fabs x
  else specialFn s zg40 id x

/-- Identifiers of Table 7-4 and of the profile; the others are reserved (R179). -/
def reservedFn (id : Nat) : Bool :=
  (decide (0x05 ≤ id) && decide (id ≤ 0x07)) || id == 0x0F || (decide (0x15 ≤ id) && decide (id ≤ 0x3F)) || decide (0x80 ≤ id)

/-- R181: an identifier that is neither none nor reserved needs a loaded microprogram. -/
def fnLoaded (s : State) (id : Nat) : Bool := id == 0 || reservedFn id || (microOf s id).isSome

/-- R176: CLAMP's parameters. -/
def clampOk (id p0 p1 : Nat) : Bool := id != 0x03 || (!isNan (f32 p0) && !isNan (f32 p1) && fle (f32 p0) (f32 p1))

/-- Micro-operations of a ZG40 function (Table 7-6). -/
def zg40Ops (id : Nat) : Option Nat := lookupKey id [(0x08, 8), (0x0A, 8), (0x0E, 6), (0x10, 12), (0x11, 10), (0x12, 16)]

/-- Micro-operations of a function (Tables 7-4 and 7-6); a profile function has its own count. -/
def fnOps (s : State) (zg40 : Bool) (id : Nat) : Nat :=
  match (if zg40 then zg40Ops id else none).orElse fun _ => lookupKey id [(0, 0), (1, 1), (2, 2), (3, 2), (4, 1), (8, 8), (9, 7), (10, 7), (11, 7), (12, 5), (13, 7), (14, 6),
    (16, 9), (17, 9), (18, 10), (19, 10), (20, 10)] with
  | some n => n
  | none => match microOf s id with | some pr => pr.ops.length | none => 0

/-- Passes of `n` micro-operations (R167). -/
def passes (n : Nat) : Nat := max 1 (ceilDiv n 8)

/-- The named functions, for the chapters that use them. -/
def fExp (s : State) (z : Bool) : FV → FV := specialFn s z 0x08
def fLog (s : State) (z : Bool) : FV → FV := specialFn s z 0x0A
def fRsqrt (s : State) (z : Bool) : FV → FV := specialFn s z 0x0E
def fTanh (s : State) (z : Bool) : FV → FV := specialFn s z 0x10
def fSigmoid (s : State) (z : Bool) : FV → FV := specialFn s z 0x11

/-- RECIP always runs the native microprogram (R202, R263). -/
def fRecip (s : State) : FV → FV := specialFn s false 0x0C

/-- The epilogue of R185 on one element: the operand is added first when bit [7] is set. -/
def epilogueElem (s : State) (zg40 : Bool) (epi p0 p1 : Nat) (e : FV) (x : FV) : FV :=
  let x1 := if bitOf epi 7 then fadd x e else x
  applyFn s zg40 (epi % 128) p0 p1 x1

/-- The exponent of the leading bit of the exact quotient of two magnitudes. -/
def quotLead (ma : Nat) (ea : Int) (mb : Nat) (eb : Int) : Int :=
  (Nat.log2 ma : Int) - Nat.log2 mb + ea - eb - (if ma * 2 ^ Nat.log2 mb < mb * 2 ^ Nat.log2 ma then 1 else 0)

/-- Whether a candidate lies within two FP32 ulps, taken at the exact quotient, of the exact quotient of `u` by `p` (R175): then
`|cand × p - u|` is at most `2 ulp × |p|`. `lead` is the exponent of the quotient's leading bit. -/
def within2 (u p : FV) (lead : Int) : FV → Bool
  | .fin n m e => fle (fabs (exactAdd (exactMul (.fin n m e) p) (fneg u))) (exactMul (.fin false 2 (max (lead - 23) (-149))) (fabs p))
  | _ => false

/-- DIV (Table 7-9): special values by IEEE 754, an exact zero for a zero dividend, otherwise a free value within the
bound of 2 ulp, the correctly rounded quotient standing in where the candidate breaks the bound. Log entry 8. -/
def fdiv (u p : FV) : FV :=
  match u, p with
  | .nan, _ | _, .nan => .nan
  | .inf _, .inf _ => .nan
  | .inf a, .fin n _ _ => .inf (a != n)
  | .fin n _ _, .inf b => .fin (n != b) 0 0
  | .fin na ma ea, .fin nb mb eb =>
    if mb = 0 then (if ma = 0 then .nan else .inf (na != nb))
    else if ma = 0 then .fin (na != nb) 0 0
    else
      let near := quotNearest (na != nb) ma ea mb eb
      let cand := f32 (Config.divCandidate (bits32 u) (bits32 p)).toNat
      if within2 (.fin na ma ea) (.fin nb mb eb) (quotLead ma ea mb eb) cand then cand else near

/-! ### Row reductions -/

/-- The values of lane `l` of a row: columns with `j mod 128 = l`, ascending (R192). -/
def laneOfRow (xs : List FV) (l : Nat) : List FV :=
  (List.range (ceilDiv (xs.length - l) 128)).filterMap fun i => xs[l + 128 * i]?

/-- A row reduction across 128 lanes and the tree (R192, R193). -/
def reduceRow (start : FV) (step : FV → FV → FV) (combine : FV → FV → FV) (xs : List FV) : FV :=
  tree combine ((List.range 128).map fun l => (laneOfRow xs l).foldl step start)

def rowSum (xs : List FV) : FV := reduceRow pzero fadd fadd xs
def rowSumSq (xs : List FV) : FV := reduceRow pzero (fun c u => ffma u u c) fadd xs
def rowMax (xs : List FV) : FV := reduceRow ninf fmax fmax xs

end Sys2Proof.Machine
end

