-- ==== Sys2Proof/Machine/Dispatching.lean ====
section
/-! DEFINITION. How a COMPUTE command is started and shared out: the tile descriptor (R124 to R129), window readers (R321),
accumulator slots (R105 to R111), the work record (R130, R404) and the steps by which takers work through it (R131 to
R136, R168, R224, R405, R406). -/

namespace Sys2Proof.Machine

/-! ### Stage B -/

/-- Structures that the loader reads for a command (R82), as (address field, bytes, alignment): the tile descriptor, a list of
streams, queue pairs or moves. A drill chain is read descriptor by descriptor. -/
def loaderFields (c : Cmd) : List (Nat × Nat × Nat) :=
  let n (lo len size : Nat) : Nat := size * fld c.body lo len
  match hOpcode c.hdr with
  | 0x100 | 0x101 => [(256, 256, 64)]
  | 0x102 => [(128, 256, 64)]
  | 0x110 => [(384, n 1096 24 4, 4)]
  | 0x111 => [(320, n 688 24 4, 4)]
  | 0x120 => [(320, n 832 24 4, 4)]
  | 0x310 => [(0, n 664 24 4, 4), (128, n 688 9 8, 8)]
  | 0x402 => [(0, n 64 8 2, 2)]
  | _ => []

/-- The structures that are aligned and mapped; an address of 0 names no list in commands that may do without. -/
def loaderSpans (s : State) (p : Nat) (c : Cmd) : List (Nat × Nat) :=
  (loaderFields c).filterMap fun (lo, n, a) =>
    let va := fld c.body lo 48
    if (va != 0 || !([0x110, 0x111, 0x120].contains (hOpcode c.hdr))) && va % a == 0 && n != 0 && mappedRead s p va n then some (va, n) else none

/-- The loader reads them. -/
def useLoader (s : State) (Q : Queue) (c : Cmd) : State :=
  let spans := loaderSpans s Q.cfg.part c
  if spans.isEmpty then s else useReads s Q.cfg.part spans

/-- The state that the checks of a command see: it has left its held slots and the loader has read its structures. -/
def atChecks (s : State) (q : Nat) (Q : Queue) (c : Cmd) : State := useLoader (enterStageB s q c) Q c

/-- Stage B and execution of one queue command (R82): the first failed check sets the status and nothing executes;
then the power limits of R94, before the lost held tile of R112 is looked for; then the command's own effect. DESIGN CHOICE, log
entries 12 and 165. -/
def runCommand (s : State) (q op : Nat) (checks : State → Queue → Cmd → List (Bool × Fail))
    (effect : State → Queue → Cmd → State) : State :=
  match inCheck s q op with
  | none => s
  | some (Q, c) =>
    let s1 := atChecks s q Q c
    match firstFail (checks s1 Q c) with
    | some f => setResult s1 q (failResult f 0)
    | none => match beHeld s1 Q with
      | some f => setResult s1 q (failResult f 0)
      | none => effect (beginRun s1 q) Q c

/-! ### The tile descriptor (Tables 5-1, 5-2) -/

def dM (d : Nat) : Nat := fld d 0 24
def dN (d : Nat) : Nat := fld d 24 24
def dK (d : Nat) : Nat := fld d 48 24
def dMt (d : Nat) : Nat := fld d 72 7
def dNt (d : Nat) : Nat := fld d 80 7
def dKp (d : Nat) : Nat := fld d 88 9
def dBLayout (d : Nat) : Nat := fld d 97 1
def dStat (d : Nat) : Nat := fld d 98 2
def dOrder (d : Nat) : Nat := fld d 100 1
def dOverlap (d : Nat) : Nat := fld d 101 1
def dSpill (d : Nat) : Nat := fld d 102 2
def dGm (d : Nat) : Nat := fld d 104 4
def dGn (d : Nat) : Nat := fld d 108 4
def dKc (d : Nat) : Nat := fld d 112 24
def dNb0 (d : Nat) : Nat := fld d 136 16
def dNb1 (d : Nat) : Nat := fld d 152 16
def dHaloN (d : Nat) : Nat := fld d 168 8
def dHaloS (d : Nat) : Nat := fld d 176 8
def dHaloW (d : Nat) : Nat := fld d 184 8
def dHaloE (d : Nat) : Nat := fld d 192 8

/-- Row, batch-0 and batch-1 strides of stride block `i`: 0 A, 1 B, 2 out, 3 init, 4 epilogue, 5 to 7 the scales of A, B
and out (Table 5-2). -/
def dRow (d i : Nat) : Nat := fld d (512 + 192 * i) 48
def dS0 (d i : Nat) : Nat := fld d (512 + 192 * i + 64) 48
def dS1 (d i : Nat) : Nat := fld d (512 + 192 * i + 128) 48

def dTM (d : Nat) : Nat := ceilDiv (dM d) (max 1 (dMt d))
def dTN (d : Nat) : Nat := ceilDiv (dN d) (max 1 (dNt d))
def dC (d : Nat) : Nat := if dKc d = 0 then 1 else ceilDiv (dK d) (dKc d)
def dGM (d : Nat) : Nat := ceilDiv (dTM d) (max 1 (dGm d))
def dGN (d : Nat) : Nat := ceilDiv (dTN d) (max 1 (dGn d))

/-- Tile count T (R127) and item count W (R128). -/
def dT (d : Nat) : Nat := dNb1 d * dNb0 d * dTM d * dTN d
def dW (d : Nat) : Nat := dNb1 d * dNb0 d * dC d * dGM d * dGN d

/-- Live tiles L (R138). -/
def dLive (d : Nat) : Nat := dGm d * dGn d * (1 + dOverlap d)

/-- The offset of batch entry (b1, b0) in the tensor of stride block `i` (R125). -/
def dBatch (d i b1 b0 : Nat) : Nat := b1 * dS1 d i + b0 * dS0 d i

/-- The spans that are read of a tensor of `rows` rows of `bytes` bytes at a base over every batch entry; entries that share their
rows add none. -/
def dSpans (d i va rows bytes : Nat) : List (Nat × Nat) :=
  (List.range (if dS1 d i = 0 then min 1 (dNb1 d) else dNb1 d)).flatMap fun b1 =>
    (List.range (if dS0 d i = 0 then min 1 (dNb0 d) else dNb0 d)).flatMap fun b0 =>
      rowReads (va + dBatch d i b1 b0) (dRow d i) rows bytes

/-- The extent of a tensor of `rows` rows of `bytes` bytes over every batch entry (Table 5-4 check 16). -/
def dExtent (d i rows bytes : Nat) : Nat :=
  (dNb1 d - 1) * dS1 d i + (dNb0 d - 1) * dS0 d i + extent rows (dRow d i) bytes

/-- The batch positions in order (R127). -/
def dBatches (d : Nat) : List (Nat × Nat) :=
  (List.range (dNb1 d)).flatMap fun b1 => (List.range (dNb0 d)).map fun b0 => (b1, b0)

/-- Read the descriptor at an address field: nothing when the address is not aligned or not mapped (R82), or the loader
read's failure. -/
def readDesc (s : State) (p body lo : Nat) : Except Fail (Option Nat) :=
  let va := fld body lo 48
  if va % 64 != 0 || !mappedRead s p va 256 then .ok none
  else match loadNat s p va 256 with
    | .error f => .error f
    | .ok d => .ok (some d)

/-- A check that fails with the error of a loader read (R82). -/
def readFailed {α : Type} (x : Except Fail α) : Bool × Fail :=
  match x with
  | .error f => (true, f)
  | .ok _ => (false, failNone .memUnmapped)

/-- Descriptor fields of check 8 (Table 5-4): reserved bits, and the stride blocks of unused tensors. -/
def descReserved (ptr d : Nat) (unused : List Nat) : List (Bool × Fail) :=
  let r (lo len : Nat) : Bool × Fail := (fld d lo len != 0, inStruct .loadReservedNonzero ptr (lo / 8))
  [r 79 1, r 87 1, r 200 312]
    ++ (List.range 8).flatMap fun i =>
      if unused.contains i then [r (512 + 192 * i) 192]
      else [r (512 + 192 * i + 48) 16, r (512 + 192 * i + 112) 16, r (512 + 192 * i + 176) 16]

/-- Ranges of check 13 (Table 5-4): `mx` when an operand is MX. -/
def descShape (ptr d : Nat) (mx conv : Bool) : List (Bool × Fail) :=
  let bad (c : Bool) (lo : Nat) : Bool × Fail := (c, inStruct .loadBadShape ptr (lo / 8))
  [bad (dM d == 0) 0, bad (dN d == 0) 24, bad (dK d == 0) 48, bad (dMt d == 0 || decide (64 < dMt d)) 72,
   bad (dNt d == 0 || decide (64 < dNt d)) 80, bad (dKp d == 0 || decide (256 < dKp d)) 88, bad (dStat d == 3) 98,
   bad (dSpill d == 3) 102, bad (dGm d == 0 || decide (8 < dGm d)) 104, bad (dGn d == 0 || decide (8 < dGn d)) 108,
   bad (dKc d != 0 && (dKc d % (if mx then 32 else max 1 (dKp d)) != 0 || decide (64 < dC d))) 112,
   bad (mx && dKp d % 32 != 0) 88, bad (dNb0 d == 0) 136, bad (dNb1 d == 0) 152,
   bad (!conv && dHaloN d != 0) 168, bad (!conv && dHaloS d != 0) 176, bad (!conv && dHaloW d != 0) 184,
   bad (!conv && dHaloE d != 0) 192]

/-- Strides of a written tensor (Table 5-4 check 13): `rows` rows of `bytes` bytes. -/
def descWritten (ptr d i rows bytes : Nat) : List (Bool × Fail) :=
  let at_ (o : Nat) := inStruct .loadBadShape ptr ((512 + 192 * i + o) / 8)
  [(decide (1 < rows) && decide (dRow d i < bytes), at_ 0),
   (decide (1 < dNb0 d) && decide (dS0 d i < rows * dRow d i), at_ 64),
   (decide (1 < dNb1 d) && decide (dS1 d i < dNb0 d * dS0 d i), at_ 128)]

/-- Strides of check 15: batch strides are multiples of 64, BF16 and FP16 row strides even. -/
def descAlign (ptr d i fb : Nat) : List (Bool × Fail) :=
  let at_ (o : Nat) := inStruct .loadAlign ptr ((512 + 192 * i + o) / 8)
  [(oddStride fb (dRow d i), at_ 0), (dS0 d i % 64 != 0, at_ 64), (dS1 d i % 64 != 0, at_ 128)]

/-- Read a list of `n` INT32 stream identifiers at an address field: nothing when it is not aligned or not mapped (R82),
or the loader read's failure. -/
def readList (s : State) (p body lo n : Nat) : Except Fail (Option (List Nat)) :=
  let va := fld body lo 48
  if va % 4 != 0 || !mappedRead s p va (4 * n) then .ok none
  else match loadBytes s p va (4 * n) with
    | .error f => .error f
    | .ok bs => .ok (some ((piecesOf 4 (n + 1) bs).map ofLe))

/-- Checks on the entries of a list, one after another, each with its place (R566). -/
def perEntry (xs : List Nat) (f : Nat → Nat → Bool × Fail) : List (Bool × Fail) :=
  ((List.range xs.length).zip xs).map fun (i, x) => f i x

/-- Bits [31:20] of a list entry (R13). -/
def listReserved (lo : Nat) (xs : List Nat) : List (Bool × Fail) :=
  perEntry xs fun i x => (decide (2 ^ 20 ≤ x), inStruct .loadReservedNonzero lo (4 * i + 2))

/-- A stream that appears twice in a list: the second entry. -/
def listTwice (lo : Nat) (xs : List Nat) : List (Bool × Fail) :=
  perEntry xs fun i x => ((xs.take i).contains x, inStruct .loadBadShape lo (4 * i))

/-- The streams that an executing command names (R207, R235, R265). -/
def namingStreams (R : Queue) : List Nat :=
  match R.cmd with
  | some c => if R.state == .run then c.streams else []
  | none => []

/-- R207: whether another executing command names one of the streams. -/
def namedElsewhere (s : State) (q : Nat) (ids : List Nat) : Bool :=
  !(queuesWhere s fun R => (namingStreams R).any ids.contains).all (· == q)

/-- R234: whether one of the streams is in transit. -/
def anyTransit (s : State) (ids : List Nat) : Bool :=
  ids.any fun id => match streamOf s id with | some st => st.transit | none => false

/-! ### Window readers (R321) -/

/-- The window positions that a list of read extents touches, as `window * 4096 + position`. -/
def windowNeeds (P : Partition) (reads : List (Nat × Nat)) : List Nat :=
  (reads.flatMap fun (va, n) => P.windows.filterMap fun (w, win) =>
    let lo := win.base * plotBytes
    let len := win.slotPlots * plotBytes
    if n != 0 && decide (lo < va + n) && decide (va < lo + win.positions * len) then some (w * 4096 + (max va lo - lo) / len)
    else none).eraseDups

/-- The slot state found for a position: READY, FAILED with its status, or neither. -/
inductive Found where
  | ready
  | failed (why : Fail)
  | absent
  deriving DecidableEq, Repr

def findPosition (P : Partition) (need : Nat) : Found :=
  match lookupKey (need / 4096) P.windows with
  | none => .absent
  | some w =>
    let p := need % 4096
    (w.slots.findSome? fun sl => match sl.st with
      | .ready k _ => if k = p then some .ready else none
      | .failed k why => if k = p then some (Found.failed why) else none
      | _ => none).getD .absent

/-- R321: how a failed position ends its reader. -/
def windowFailure (P : Partition) (needs : List Nat) : Option Fail :=
  needs.findSome? fun n => match findPosition P n with
    | .failed why => some (if statusClass why.status == 2 then why else failAt .abortUpstream 0 0)
    | _ => none

def windowReady (P : Partition) (needs : List Nat) : Bool := needs.all fun n => findPosition P n == .ready

/-- Enter or leave the reader lists of the slots that hold positions. -/
def setReaders (s : State) (p q : Nat) (needs : List Nat) (enter : Bool) : State :=
  setPart s p fun P => { P with windows := P.windows.map fun (w, win) =>
    (w, { win with slots := win.slots.map fun sl => match sl.st with
      | .ready k _ => if needs.contains (w * 4096 + k) then
          { sl with readers := if enter then (q :: sl.readers).eraseDups else sl.readers.filter (· != q) } else sl
      | _ => sl }) }

/-- Whether a queue's command stands in the readers' lists of all positions that it reads: it has passed the window fence. -/
def passedFence (s : State) (p q : Nat) (c : Cmd) : Bool := c.windows.all fun (w, i) => match lookupKey w (partOf s p).windows with
  | none => false
  | some win => win.slots.any fun sl => match sl.st with | .ready k _ => k == i && sl.readers.contains q | _ => false

/-- R321: a reader that waits at the window fence is counted once, by partition and by queue. -/
def countStall (s : State) (q p : Nat) : State :=
  setPartMem (setCounts s q fun c => { c with windowStalls := satAdd 32 c.windowStalls 1 }) p
    fun m => { m with windowStalls := satAdd 32 m.windowStalls 1 }

/-- R321: the time a reader has waited is added to SHD_WINDOW_STALL_NS. -/
def stallTime (s : State) (p ns : Nat) : State :=
  setPartMem s p fun m => { m with windowStallNs := satAdd 48 m.windowStallNs ns }

/-- The plots of the extents that a command reads and writes are used once each, and its reads charged. -/
def useExtents (s : State) (q p : Nat) (reads : List (Nat × Nat)) : State :=
  let outs := match (queueOf s q).cmd with | some c => c.outs | none => []
  fireReads (chargeReads (touchPlots s p (reads ++ outs)) p reads) (firstInSpans s p reads)

/-- A command whose lines are read computes, or ends with the failure of a read of host memory. -/
def onceRead (s1 : State) (q p : Nat) (reads : List (Nat × Nat)) (compute : State → State) : State :=
  match hostFires s1 p reads with
  | (some f, s2) => endEarly s2 q p f (match (queueOf s2 q).cmd with | some c => c.outs | none => []) 0
  | (none, s2) => compute s2

/-- A command reads its extents and computes; a command of the drill reads them as it goes (R362). -/
def afterReads (s : State) (q p : Nat) (reads : List (Nat × Nat)) (compute : State → State) : State :=
  if (queueOf s q).cfg.kind = 2 then compute s else onceRead (useExtents s q p reads) q p reads compute

/-- A command reads further lines, of plots that it uses already, and computes. -/
def readMore (s : State) (q p : Nat) (reads : List (Nat × Nat)) (compute : State → State) : State :=
  onceRead (fireReads (chargeReads s p reads) (firstInSpans s p reads)) q p reads compute

/-- R321 after stage B: run at once when every position is READY, wait at the window fence, or end with the fill. DEDUCED, log entry 13. -/
def gated (s : State) (q p : Nat) (reads : List (Nat × Nat)) (compute : State → State) : State :=
  let P := partOf s p
  let needs := windowNeeds P reads
  match windowFailure P needs with
  | some f => endEarly s q p f [] 0
  | none =>
    let s1 := setCmd s q fun c => { c with windows := (c.windows ++ needs.map fun n => (n / 4096, n % 4096)).eraseDups, reads := reads }
    if windowReady P needs then afterReads (setReaders s1 p q needs true) q p reads compute
    else setCmd (match (queueOf s1 q).cmd.bind (·.stall) with | some _ => s1 | none => countStall s1 q p) q
      fun c => { c with waiting := some s.now }

/-- The wait that a record reports where only the weight operand, at `va`, counts (R228, Table 11-7). DEDUCED, log entry 157. -/
def weightStall (s : State) (p : Nat) (c : Cmd) (va : Nat) : Option Nat :=
  if (windowNeeds (partOf s p) [(va, 1)]).isEmpty then none else c.stall

/-! ### Slots (Table 4-4) -/

def setSlot (s : State) (e i : Nat) (sl : Slot) : State :=
  setEngine s e fun E => { E with slots := E.slots.set i sl }

/-- The held slots of a queue, as (tile, engine, slot), ascending by tile (R109, R110). -/
def heldSlots (s : State) (q : Nat) : List (Nat × Nat × Nat) :=
  sortBy ((List.range 192).flatMap fun e =>
    let E := engineOf s e
    (List.range 16).filterMap fun i => match E.slots[i]? with
      | some sl => if sl.st == .held && sl.q == q then some (sl.tile, e, i) else none
      | none => none) fun a b => decide (a.1 ≤ b.1)

/-- The lowest lost tile of a queue's held slots (R112). -/
def lostTile (s : State) (q : Nat) : Option Nat :=
  (heldSlots s q).findSome? fun (t, e, i) => match (engineOf s e).slots[i]? with
    | some sl => if sl.lost then some t else none
    | none => none

/-- Free slots of the granted engines in ascending engine and slot order (R109). -/
def slotSupply (s : State) (grant : List Nat) : List (Nat × Nat) :=
  grant.flatMap fun e => (freeSlots s e).map fun i => (e, i)

/-- The address of word (i, j) of a slot in accumulator memory (R105). -/
def accAddr (e slot i j : Nat) : Nat := e * 0x40000 + slot * 0x4000 + i * 0x100 + j * 4

def accWord (s : State) (e slot i j : Nat) : Nat := ofLe (memRead s.field.accum (accAddr e slot i j) 4)

def setAccum (s : State) (ws : List (Nat × Nat)) : State :=
  { s with field := { s.field with accum := ws.foldl (fun m (a, w) => memWrite m a (toLe 4 w)) s.field.accum } }

/-! ### The work record -/

def newWork (s : State) (p : Nat) (g : Grid) : Work :=
  { grid := g, closed := false, grantEngines := if g.harrowOnly then [] else grantEngines s p,
    grantHarrows := if g.harrowOnly then grantFurrows s p else [], written := 0, arrivals := [], ready := [], drawn := [],
    reducers := [], bound := [], staged := [], phase1 := [], phase2 := [], finisher := [], scanner := [], partials := [],
    scratch := [], spilled := [], after := [] }

/-- R130: at stage B the counter becomes 0 and the command's work is open to its takers. -/
def openWork (s : State) (q : Nat) (w : Work) : State :=
  setQueue s q fun Q => { Q with counter := 0, redispatch := [], cmd := Q.cmd.map fun c => { c with work := some w } }

/-- A plain grid of `n` items taken by harrows (R189, R203, R297). -/
def harrowGrid (n : Nat) : Grid :=
  { items := n, tiles := n, tm := n, tn := 1, gm := 1, gn := 1, byColumn := false, chunks := 1, passes := 1,
    lastPasses := 1, m := 0, n := 0, mt := 64, nt := 64, itemRows := [], harrowPasses := 1, gates := 1, slots := 0, live := 0,
    spill := 0, spare := 0, harrowOnly := true, overlap := false, split := false, holds := false, haloWidth := 0, halo := [], scan := 0 }

/-- Values of k in a chunk of a descriptor (R127): the whole of K without split, and fewer in a last chunk that K does not fill. -/
def chunkK (d c : Nat) : Nat := if dKc d = 0 then dK d else min (dKc d) (dK d - c * dKc d)

/-- A grid from a tile descriptor; `perDrain` passes of the harrow over a drained tile (R167), `banks` tilth banks of footprint (R144). -/
def descGrid (d : Nat) (harrowOnly holds : Bool) (perDrain banks haloWidth : Nat) (halo : List Bool) : Grid :=
  { items := dW d, tiles := dT d, tm := dTM d, tn := dTN d, gm := dGm d, gn := dGn d, byColumn := dOrder d == 1,
    chunks := dC d, passes := ceilDiv (chunkK d 0) (max 1 (dKp d)), lastPasses := ceilDiv (chunkK d (dC d - 1)) (max 1 (dKp d)),
    m := dM d, n := dN d, mt := dMt d, nt := dNt d, itemRows := [], harrowPasses := perDrain, gates := 1,
    slots := if dSpill d = 0 then dLive d else 2, live := dLive d, spill := dSpill d, spare := 46 - banks, harrowOnly := harrowOnly, overlap := dOverlap d == 1,
    split := dKc d != 0, holds := holds, haloWidth := haloWidth, halo := halo,
    scan := 0 }

/-- The tiles of work item `w` (R127, R128): the group (i, j) of a chunk of a batch entry, clipped at the grid's edges. -/
def itemTiles (g : Grid) (w : Nat) : List Nat :=
  let GM := ceilDiv g.tm (max 1 g.gm)
  let GN := ceilDiv g.tn (max 1 g.gn)
  let groups := GM * GN
  let grp := w % max 1 groups
  let batch := w / max 1 (groups * g.chunks)
  let i := if g.byColumn then grp % max 1 GM else grp / max 1 GN
  let j := if g.byColumn then grp / max 1 GM else grp % max 1 GN
  ((rangeFrom (g.gm * i) g.gm).filter (· < g.tm)).flatMap fun tm =>
    ((rangeFrom (g.gn * j) g.gn).filter (· < g.tn)).map fun tn => (batch * g.tm + tm) * g.tn + tn

/-- Rows and columns of tile `t` of item `w`, clipped at the edges of the extents; an item of RECUR_CELL has 16 rows per cohort
(R114, R216). -/
def tileExtent (g : Grid) (w t : Nat) : Nat × Nat :=
  match g.itemRows[w]? with
  | some r => (r, g.nt)
  | none => (min g.mt (g.m - t / max 1 g.tn % max 1 g.tm * g.mt), min g.nt (g.n - t % max 1 g.tn * g.nt))

/-- Words of a tile that drain (R114, R168). -/
def tileWords (g : Grid) (w t : Nat) : Nat := (tileExtent g w t).1 * (tileExtent g w t).2

/-- The chunk of a work item (R128). -/
def itemChunk (g : Grid) (w : Nat) : Nat :=
  let groups := ceilDiv g.tm (max 1 g.gm) * ceilDiv g.tn (max 1 g.gn)
  w / max 1 groups % max 1 g.chunks

end Sys2Proof.Machine
end

