-- ==== Sys2Proof/Machine/MatrixEngine.lean ====
section
/-! DEFINITION. MX_GEMM (R95 to R123, R137 to R145): checks of Tables 4-6 and 5-4, estimate, and the product with init,
alpha, epilogue and narrowing. -/

namespace Sys2Proof.Machine

/-! ### Rates (R100, R102) -/

/-- Twice the accumulation positions of k per ACLK (Table 4-2). -/
def rate2 : Fmt → Nat
  | .bf16 | .fp16 => 1
  | .mxE2M3 | .mxE3M2 | .mxE2M1 => 4
  | _ => 2

/-- ACLK to load one stationary block through its port. -/
def blockLoad : Fmt → Nat
  | .bf16 | .fp16 => 64
  | .mxE2M3 | .mxE3M2 => 48
  | _ => 32

/-- The figures p, b and L of R102 for an operand pair, with twice s. -/
def pairRates (a b : Fmt) : Nat × Nat × Nat × Nat :=
  let slow := if rate2 a ≤ rate2 b then a else b
  let p := match slow with | .bf16 | .fp16 => 2 | _ => 1
  let blk := if rate2 slow = 4 then 128 else 64
  let l := if rate2 a = rate2 b then max (blockLoad a) (blockLoad b) else blockLoad slow
  (p, blk, l, rate2 slow)

/-- Compute cycles of one tile (R102). -/
def tileCycles (stat mt nt kt : Nat) (a b : Fmt) : Nat :=
  let (p, blk, l, s2) := pairRates a b
  if stat = 0 then ceilDiv (2 * kt) s2
  else ceilDiv kt blk * max ((if stat = 1 then mt else nt) * p) l

/-- Cycles that an engine spends on a tile over a long run (R103): its compute cycles, or its drain through `perDrain` passes of the
harrow, at half the rate where both engines of the furrow drain. -/
def tileTime (cycles words perDrain : Nat) (both : Bool) : Nat := max cycles (ceilDiv (words * perDrain) (if both then 64 else 128))

/-- Whether the other engine of the furrow of the `i`-th granted engine has work when there are `items` items. -/
def mateWorks (grant : List Nat) (items i : Nat) : Bool :=
  let e := grant.getD i 0
  (List.range (min items grant.length)).any fun j => j != i && grant.getD j 0 / 2 == e / 2

/-- The cycles of the busiest granted engine when the items go round the grant (R131, R409); `cost` gives those of an item, by whether
both engines of the furrow drain. DEDUCED, log entry 18. -/
def busyCycles (grant : List Nat) (items : Nat) (cost : Bool → Nat → Nat) : Nat :=
  let n := grant.length
  ((List.range n).map fun i =>
    ((List.range (ceilDiv (items - i) (max 1 n))).map fun k => cost (mateWorks grant items i) (i + n * k)).foldl (· + ·) 0).foldl max 0

/-- Fill, drain and first block load of an engine's busy time (R102). -/
def busyExtra (stat : Nat) (a b : Fmt) : Nat := 12 + (if stat = 0 then 0 else (pairRates a b).2.2.1)

/-- Rows and columns of a tile of a descriptor's grid, clipped at the edges of M and N. -/
def tileShape (d t : Nat) : Nat × Nat := tileExtent (descGrid d false false 1 0 0 []) 0 t

/-- Busy cycles of the busiest engine of a command with a tile descriptor (R102, R103, R409). -/
def engineCycles (d : Nat) (a b : Fmt) (perDrain : Nat) (grant : List Nat) : Nat :=
  let g := descGrid d false false perDrain 0 0 []
  busyExtra (dStat d) a b + busyCycles grant (dW d) fun both w =>
    ((itemTiles g w).map fun t =>
      let (mt, nt) := tileShape d t
      tileTime (tileCycles (dStat d) mt nt (chunkK d (itemChunk g w)) a b) (mt * nt) perDrain both).foldl (· + ·) 0

/-- Banks of 64 KiB of the tilth footprint (R144), halo bands apart. -/
def tilthBanks (d : Nat) (a b : Fmt) (extra : Bool) : Nat :=
  let bank (n bits : Nat) : Nat := ceilDiv (n * bits) (8 * 0x10000)
  let per := 2 * (bank (dGm d * dMt d * dKp d) (elemBits a) + bank (dGn d * dKp d * dNt d) (elemBits b))
    + (if isMx a || isMx b then 2 else 0) + (if extra then 1 else 0)
  2 * per

/-! ### The body (Table 4-5) -/

def gFmtA (b : Nat) : Nat := fld b 512 8
def gFmtB (b : Nat) : Nat := fld b 520 8
def gFmtOut (b : Nat) : Nat := fld b 528 8
def gFmtInit (b : Nat) : Nat := fld b 536 8
def gInitSel (b : Nat) : Nat := fld b 544 3
def gInitBcast (b : Nat) : Bool := bitOf b 547
def gOutMode (b : Nat) : Nat := fld b 548 2
def gEpilogue (b : Nat) : Nat := fld b 560 8
def gAlpha (b : Nat) : Nat := fld b 576 32
def gRstream (b : Nat) : Nat := fld b 608 32
def gEpiAddr (b : Nat) : Nat := fld b 1024 48
def gFmtEpi (b : Nat) : Nat := fld b 1088 8
def gEpi0 (b : Nat) : Nat := fld b 1104 32
def gEpi1 (b : Nat) : Nat := fld b 1136 32

/-- Stride blocks that MX_GEMM does not use (R124). -/
def gUnused (b : Nat) : List Nat :=
  (if gOutMode b = 1 then [2] else []) ++ (if gInitSel b = 1 then [] else [3]) ++ (if bitOf (gEpilogue b) 7 then [] else [4])
    ++ (if isMx (fmtOf (gFmtA b)) then [] else [5]) ++ (if isMx (fmtOf (gFmtB b)) then [] else [6])
    ++ (if isMx (fmtOf (gFmtOut b)) && gOutMode b != 1 then [] else [7])

/-- Check 8 on the body (R118). -/
def gReserved (b : Nat) : List (Bool × Fail) :=
  let mxA := isMx (fmtOf (gFmtA b))
  let mxB := isMx (fmtOf (gFmtB b))
  let mxO := isMx (fmtOf (gFmtOut b))
  reservedBody b [(48, 16), (112, 16)]
    ++ zeroWhen b (gOutMode b == 1) [(128, 48)] ++ reservedBody b [(176, 16)]
    ++ zeroWhen b (gInitSel b != 1) [(192, 48)] ++ reservedBody b [(240, 16), (304, 16)]
    ++ zeroWhen b (!mxA) [(320, 48)] ++ reservedBody b [(368, 16)] ++ zeroWhen b (!mxB) [(384, 48)]
    ++ reservedBody b [(432, 16)] ++ zeroWhen b (!mxO) [(448, 48)]
    ++ reservedBody b [(496, 16), (519, 1), (527, 1), (535, 1), (543, 1)] ++ zeroWhen b (gInitSel b != 1) [(536, 8)]
    ++ reservedBody b [(550, 10), (568, 8), (640, 384)]
    ++ zeroWhen b (!bitOf (gEpilogue b) 7) [(1024, 48)] ++ reservedBody b [(1072, 16), (1095, 1)]
    ++ zeroWhen b (!bitOf (gEpilogue b) 7) [(1088, 8)] ++ reservedBody b [(1096, 8), (1168, 368)]

/-- The rows of B: `K` rows of `N`, or `N` rows of `K` (b_layout). -/
def gBRows (d : Nat) : Nat × Nat := if dBLayout d = 0 then (dK d, dN d) else (dN d, dK d)

/-- Bytes of each tensor's row, by stride block. -/
def gRowBytes (b d i : Nat) : Nat :=
  match i with
  | 0 => rowBytes (fmtOf (gFmtA b)) (dK d)
  | 1 => rowBytes (fmtOf (gFmtB b)) (gBRows d).2
  | 2 => rowBytes (fmtOf (gFmtOut b)) (dN d)
  | 3 => rowBytes (fmtOf (gFmtInit b)) (dN d)
  | 4 => rowBytes (fmtOf (gFmtEpi b)) (dN d)
  | 5 | 6 => ceilDiv (dK d) 32
  | _ => ceilDiv (dN d) 32

/-- Rows of each tensor, by stride block. -/
def gRows (b d i : Nat) : Nat :=
  match i with
  | 1 => (gBRows d).1
  | 3 => if gInitBcast b then 1 else dM d
  | 6 => dN d
  | _ => dM d

/-- The address field of each tensor, by stride block. -/
def gAddrBit (i : Nat) : Nat := [0, 64, 128, 192, 1024, 320, 384, 448].getD i 0

/-- The format byte of each tensor, by stride block; scales are bytes. -/
def gFmt (b i : Nat) : Nat := [gFmtA b, gFmtB b, gFmtOut b, gFmtInit b, gFmtEpi b, 5, 5, 5].getD i 5

def gExtent (b d i : Nat) : Nat := dExtent d i (gRows b d i) (gRowBytes b d i)

/-- Stride blocks in use. -/
def gUsed (b : Nat) : List Nat := (List.range 8).filter fun i => !(gUnused b).contains i

/-- The spans that MX_GEMM reads (R113). -/
def gReads (b d : Nat) : List (Nat × Nat) :=
  ((gUsed b).filter fun i => i != 2 && i != 7).flatMap fun i => dSpans d i (fld b (gAddrBit i) 48) (gRows b d i) (gRowBytes b d i)

/-- Passes of the harrow over a drained tile (R167, R185). -/
def gPasses (s : State) (p b : Nat) : Nat :=
  passes (fnOps s (partOf s p).cfg.zg40 (gEpilogue b % 128) + (if bitOf (gEpilogue b) 7 then 1 else 0))

/-- The tilth footprint of MX_GEMM (R144). -/
def gBanks (b d : Nat) : Nat := tilthBanks d (fmtOf (gFmtA b)) (fmtOf (gFmtB b)) (gInitSel b == 1 || bitOf (gEpilogue b) 7)

/-- Output spans, element rows and scale rows. -/
def gOuts (b d : Nat) : List (Nat × Nat) :=
  ((gUsed b).filter fun i => i == 2 || i == 7).flatMap fun i => (dBatches d).flatMap fun (b1, b0) =>
    rowSpans (fld b (gAddrBit i) 48 + dBatch d i b1 b0) (dRow d i) (dM d) (gRowBytes b d i)

/-- What a consumer must share with the holder: M, N, Mt, Nt and the tile count (R110). -/
def heldShape (d : Nat) : List Nat := [dM d, dN d, dMt d, dNt d, dT d]

/-- R110: a consumer's M, N, Mt and Nt are those of the holding command, and so is its tile count, which is no single field.
DEDUCED, log entry 124. -/
def consumerShape (consume : Bool) (held : List Nat) (d : Nat) : List (Bool × Fail) :=
  let differs (i x : Nat) : Bool := consume && held.getD i 0 != x
  [(differs 0 (dM d), inStruct .loadBadShape 256 0), (differs 1 (dN d), inStruct .loadBadShape 256 3),
   (differs 2 (dMt d), inStruct .loadBadShape 256 9), (differs 3 (dNt d), inStruct .loadBadShape 256 10),
   (differs 4 (dT d), failNone .loadBadShape)]

/-- Loam units of a tiled command: split scratch (R134) and spill at its largest (R140). -/
def tiledUnits (d engines : Nat) : Nat :=
  (if dKc d = 0 then 0 else (dC d - 1) * dT d * 4) + (if dSpill d = 0 then 0 else (dLive d - 2) * 4 * engines)

/-- Checks of MX_GEMM in the order of Table 3-4. The format byte of out is held to the rules of a written operand with out_mode 1
too, where nothing is written. DESIGN CHOICE, log entry 169. A stream of the header outside the partition's range fails check 9,
which Table 4-6 does not list. DEDUCED, log entry 166. -/
def checksMxGemm (s : State) (Q : Queue) (c : Cmd) : List (Bool × Fail) :=
  let p := Q.cfg.part
  let P := partOf s p
  let b := c.body
  let rd := readDesc s p b 256
  let desc : Option Nat := match rd with | .ok (some d) => some d | _ => none
  let onDesc (f : Nat → List (Bool × Fail)) : List (Bool × Fail) := match desc with | some d => f d | none => []
  let A := fmtOf (gFmtA b)
  let B := fmtOf (gFmtB b)
  let mx := isMx A || isMx B
  let hold := gOutMode b == 1 || gOutMode b == 2
  let consume := gInitSel b == 2
  let epi := gEpilogue b
  let grant := grantEngines s p
  let supply := slotSupply s grant
  let bad (c : Bool) (lo : Nat) : Bool × Fail := (c, atBit .loadBadShape lo)
  gReserved b ++ [readFailed rd] ++ onDesc (fun d => descReserved 256 d (gUnused b)
      ++ (if gInitBcast b then [(dRow d 3 != 0, inStruct .loadReservedNonzero 256 ((512 + 576) / 8))] else []))
    ++ streamCheck s P c.hdr false
    ++ seedCheck P c.hdr (fmtDraws (gFmtOut b))
    ++ [(!fmtLegalIn (gFmtA b), atBit .loadBadFormat 512), (!fmtLegalIn (gFmtB b), atBit .loadBadFormat 520),
        (!fmtLegalOut (gFmtOut b), atBit .loadBadFormat 528),
        (gInitSel b == 1 && (!fmtLegalIn (gFmtInit b) || isMx (fmtOf (gFmtInit b))), atBit .loadBadFormat 536),
        (bitOf epi 7 && (!fmtLegalIn (gFmtEpi b) || isMx (fmtOf (gFmtEpi b))), atBit .loadBadFormat 1088),
        (!legalPair A B, failNone .loadBadFormat)]
    ++ [(!fnLoaded s (epi % 128), atBit .loadUnitDisabled 560), takerCheck grant.length]
    ++ onDesc (fun d => descShape 256 d mx false)
    ++ [bad (decide (3 ≤ gInitSel b)) 544, bad (gOutMode b == 3) 548, bad (reservedFn (epi % 128)) 560,
        bad (!clampOk (epi % 128) (gEpi0 b) (gEpi1 b)) 1104]
    ++ onDesc (fun d =>
      [(isMx B && dBLayout d == 0, inStruct .loadBadShape 256 12),
       ((hold || consume) && dKc d != 0, inStruct .loadBadShape 256 14),
       ((hold || consume) && (dGm d != 1 || dGn d != 1), inStruct .loadBadShape 256 13),
       ((hold || consume) && (dOverlap d != 0 || dSpill d != 0), inStruct .loadBadShape 256 12),
       bad (consume && Q.held.isEmpty) 544]
      ++ consumerShape consume Q.held d
      ++ [
       bad (gOutMode b != 1 && !mxExtentOk (gFmtOut b) (dN d)) 528,
       (gOutMode b != 1 && isMx (fmtOf (gFmtOut b)) && dNt d % 32 != 0 && decide (1 < dTN d), inStruct .loadBadShape 256 10)]
      ++ (if gOutMode b == 1 then [] else descWritten 256 d 2 (dM d) (gRowBytes b d 2))
      ++ (if (gUsed b).contains 7 then descWritten 256 d 7 (dM d) (gRowBytes b d 7) else []))
    ++ [alignCheck b 0 64, alignCheck b 64 64, alignCheck b 128 64, alignCheck b 192 64, alignCheck b 256 64,
        alignCheck b 320 32, alignCheck b 384 32, alignCheck b 448 32, alignCheck b 1024 64]
    ++ onDesc (fun d => (gUsed b).flatMap fun i => descAlign 256 d i (gFmt b i))
    ++ [readCheck s p b 256 256]
    ++ onDesc (fun d => (gUsed b).map fun i =>
        if i == 2 || i == 7 then writeCheck s p b (gAddrBit i) (gExtent b d i) else readCheck s p b (gAddrBit i) (gExtent b d i))
    ++ onDesc (fun d =>
      [(decide (2147483648 < dW d) || decide (4294967295 < dT d), failNone .loadTileCount)]
      ++ (if consume then []
          else if hold then [(decide (supply.length < dT d), failAt .loadAccCapacity 0xFFFFFFFF (dT d))]
          else
            [((dSpill d == 0 && decide (16 < dLive d)) || decide (128 < dLive d)
                || !(grant.any fun e => decide ((if dSpill d = 0 then dLive d else 2) ≤
                    (freeSlots s e).length)),
              failAt .loadAccCapacity 0xFFFFFFFF (dLive d))])
      ++ [(decide (46 < gBanks b d), failAt .loadTilthCapacity 0xFFFFFFFF (64 * gBanks b d)),
          loamCheck P (tiledUnits d grant.length),
          beCheck s Q (aclkUs (engineCycles d A B (gPasses s p b) grant))])

/-! ### The product -/

/-- Operand rows of a batch entry: the rows of A, or the columns of B. -/
def gARows (s : State) (p b d b1 b0 : Nat) : Except Fail (List OpRow) :=
  (List.range (dM d)).mapM fun m =>
    loadOpRow s p (fmtOf (gFmtA b)) (fld b 0 48 + dBatch d 0 b1 b0 + m * dRow d 0)
      (fld b 320 48 + dBatch d 5 b1 b0 + m * dRow d 5) (dK d)

/-- Column `n` of rows along k. -/
def columnOf (rows : List (List FV)) (n : Nat) : OpRow := .scalar (rows.map fun r => r.getD n pzero)

def gBCols (s : State) (p b d b1 b0 : Nat) : Except Fail (List OpRow) :=
  let base := fld b 64 48 + dBatch d 1 b1 b0
  if dBLayout d = 0 then
    match (List.range (dK d)).mapM fun k => loadRow s p (fmtOf (gFmtB b)) (base + k * dRow d 1) (dN d) with
    | .error f => .error f
    | .ok rows => .ok ((List.range (dN d)).map (columnOf rows))
  else
    (List.range (dN d)).mapM fun n =>
      loadOpRow s p (fmtOf (gFmtB b)) (base + n * dRow d 1) (fld b 384 48 + dBatch d 6 b1 b0 + n * dRow d 6) (dK d)

/-- Initial values of row `m` (R45): +0, the init tensor, or the held words of the tiles. -/
def gInitRow (s : State) (p b d b1 b0 m : Nat) (held : List (Nat × Nat × Nat)) : Except Fail (List FV) :=
  if gInitSel b = 1 then
    loadRow s p (fmtOf (gFmtInit b)) (fld b 192 48 + dBatch d 3 b1 b0 + (if gInitBcast b then 0 else m * dRow d 3)) (dN d)
  else if gInitSel b = 2 then
    .ok ((List.range (dN d)).map fun n =>
      let t := ((b1 * dNb0 d + b0) * dTM d + m / dMt d) * dTN d + n / dNt d
      match lookupKey t held with
      | some (e, i) => f32 (accWord s e i (m % dMt d) (n % dNt d))
      | none => pzero)
  else .ok (List.replicate (dN d) pzero)

/-- The sums of the chunks of a split (R48), each from +0, for a row of A and every column of B. -/
def gChunkRow (b d : Nat) (a : OpRow) (cols : List OpRow) : List (List FV) :=
  let per := if isMx (fmtOf (gFmtA b)) then dKc d / 32 else dKc d
  cols.map fun c =>
    let xs := addendsFor (fmtOf (gFmtA b)) a c
    (chunksOf per (xs.length + 1) xs).map fun ys => accumulate pzero (ys.map some)

/-- The accumulated words of row `m` of a batch entry (R43 to R48). -/
def gWordRow (b d : Nat) (inits : List FV) (a : OpRow) (cols : List OpRow) : List FV :=
  let per := if dKc d = 0 then 0 else if isMx (fmtOf (gFmtA b)) then dKc d / 32 else dKc d
  List.zipWith (fun c i => dotProduct i per ((addendsFor (fmtOf (gFmtA b)) a c).map some)) cols inits

/-- The epilogue operand of row `m`, +0 where there is none. -/
def gEpiRow (s : State) (p b d b1 b0 m : Nat) : Except Fail (List FV) :=
  if bitOf (gEpilogue b) 7 then
    loadRow s p (fmtOf (gFmtEpi b)) (gEpiAddr b + dBatch d 4 b1 b0 + m * dRow d 4) (dN d)
  else .ok (List.replicate (dN d) pzero)

/-- R119 on the words of row `m` from column `n0` on: alpha, epilogue, narrowing with the draws of Table 12-2. -/
def gOutRow (s : State) (zg40 : Bool) (seed : Option W128) (b d b1 b0 m n0 : Nat) (words epis : List FV) : OutRow :=
  let ys := List.zipWith (fun w e =>
    epilogueElem s zg40 (gEpilogue b) (gEpi0 b) (gEpi1 b) e (fmul (f32 (gAlpha b)) w)) words epis
  outRow (gFmtOut b) (fun n => laneOf seed (gRstream b) (b1 * 2 ^ 16 + b0) m (n0 + n))
    (fld b 128 48 + dBatch d 2 b1 b0 + m * dRow d 2 + n0 * elemBits (fmtOf (gFmtOut b)) / 8)
    (fld b 448 48 + dBatch d 7 b1 b0 + m * dRow d 7 + n0 / 32) ys

/-- The words of every row, as (b1, b0, m, words). -/
def gWords (s : State) (p b d : Nat) (held : List (Nat × Nat × Nat)) : Except Fail (List (Nat × Nat × Nat × List FV)) := do
  let per ← (dBatches d).mapM fun (b1, b0) => do
    let rows ← gARows s p b d b1 b0
    let cols ← gBCols s p b d b1 b0
    (List.range (dM d)).zip rows |>.mapM fun (m, a) => do
      let inits ← gInitRow s p b d b1 b0 m held
      pure (b1, b0, m, gWordRow b d inits a cols)
  pure per.flatten

/-- The rows written to memory. -/
def gOutRows (s : State) (p b d : Nat) (seed : Option W128) (words : List (Nat × Nat × Nat × List FV)) :
    Except Fail (List OutRow) :=
  words.mapM fun (b1, b0, m, ws) => do
    let es ← gEpiRow s p b d b1 b0 m
    pure (gOutRow s (partOf s p).cfg.zg40 seed b d b1 b0 m 0 ws es)

/-- The positions of a two-dimensional extent, row by row. -/
def positions (rows cols : Nat) : List (Nat × Nat) :=
  (List.range rows).flatMap fun y => (List.range cols).map fun x => (y, x)

/-- The key of the partial of chunk `c` of tile `t`. -/
def partKey (t c : Nat) : Nat := t * 64 + c

/-- Batch position of a tile (R127). -/
def tileBatch (d t : Nat) : Nat × Nat :=
  let x := t / max 1 (dTM d * dTN d)
  (x / max 1 (dNb0 d), x % max 1 (dNb0 d))

/-- First row and first column of a tile. -/
def tileCorner (d t : Nat) : Nat × Nat := (t / max 1 (dTN d) % max 1 (dTM d) * dMt d, t % max 1 (dTN d) * dNt d)

/-- The partials of the tiles of a batch entry from its chunk sums by row, column and chunk (R135): words in row order. -/
def tilePartials (d b1 b0 : Nat) (sum : Nat → Nat → Nat → FV) : List (Nat × List Nat) :=
  (rangeFrom ((b1 * dNb0 d + b0) * dTM d * dTN d) (dTM d * dTN d)).flatMap fun t =>
    let (m0, n0) := tileCorner d t
    let (mt, nt) := tileShape d t
    (List.range (dC d)).map fun c => (partKey t c, (positions mt nt).map fun (i, j) =>
      bits32 (sum (m0 + i) (n0 + j) c))

/-- The partials of every tile of a split MX_GEMM (R135). -/
def gPartials (s : State) (p b d : Nat) : Except Fail (List (Nat × List Nat)) := do
  let per ← (dBatches d).mapM fun (b1, b0) => do
    let rows ← gARows s p b d b1 b0
    let cols ← gBCols s p b d b1 b0
    let sums := rows.map fun a => gChunkRow b d a cols
    pure (tilePartials d b1 b0 fun m n c => ((sums.getD m []).getD n []).getD c pzero)
  pure per.flatten

/-- A word of a tile that the tree of R48 makes of its partials, with the initial value added last. -/
def combined (init : FV) (parts : List (List Nat)) (i : Nat) : FV := fadd init (tree fadd (parts.map fun ws => f32 (ws.getD i 0)))

/-- The rows that the reducer of a tile of a split MX_GEMM writes (R135): its partials in the order of their chunks. -/
def gReduced (s : State) (p b d : Nat) (seed : Option W128) (t : Nat) (parts : List (List Nat)) : Except Fail (List OutRow) := do
  let (b1, b0) := tileBatch d t
  let (m0, n0) := tileCorner d t
  let (mt, nt) := tileShape d t
  (List.range mt).mapM fun i => do
    let inits ← gInitRow s p b d b1 b0 (m0 + i) []
    let es ← gEpiRow s p b d b1 b0 (m0 + i)
    pure (gOutRow s (partOf s p).cfg.zg40 seed b d b1 b0 (m0 + i) n0
      ((List.range nt).map fun j => combined (inits.getD (n0 + j) pzero) parts (i * nt + j)) (es.drop n0))

/-- The partials of a split command are ready to be combined (R135); the tiles are written as they are reduced. -/
def keepPartials (s : State) (q : Nat) (c : Cmd) (ps : Except Fail (List (Nat × List Nat))) (work : Nat) : State :=
  match ps with
  | .error f => endEarly s q (queueOf s q).cfg.part f c.outs 0
  | .ok xs => setResult (setCmd s q fun x => { x with work := x.work.map fun w => { w with partials := xs } }) q
      (completedResult .none c.stall none work)

/-- The accumulator writes of a holding command: word (i, j) of the slot of its tile (R109). -/
def gHeldWrites (d : Nat) (slots : List (Nat × Nat × Nat)) (words : List (Nat × Nat × Nat × List FV)) : List (Nat × Nat) :=
  words.flatMap fun (b1, b0, m, ws) => (List.range ws.length).filterMap fun n =>
    let t := ((b1 * dNb0 d + b0) * dTM d + m / dMt d) * dTN d + n / dNt d
    match lookupKey t slots with
    | some (e, i) => some (accAddr e i (m % dMt d) (n % dNt d), bits32 (ws.getD n pzero))
    | none => none

/-- Reserve a slot per tile for a holding command (R109). -/
def holdSlots (s : State) (q n : Nat) (supply : List (Nat × Nat)) (shape : List Nat) : State :=
  ((List.range n).zip supply).foldl (fun st (t, (e, i)) => setSlot st e i { st := .held, q := q, tile := t, lost := false })
    (setQueue s q fun Q => { Q with held := shape })

/-- MX_GEMM once its operands are ready (R109, R110, R119): the words, the held slots and the rows of out, or the partials of a split.
With out_mode 1 it reports COMPLETED though it waited (Table 4-7). -/
def computeMxGemm (s : State) (q : Nat) : State :=
  let Q := queueOf s q
  let p := Q.cfg.part
  match Q.cmd with
  | none => s
  | some c =>
    let b := c.body
    match c.loaded with
    | [] => s
    | d :: _ =>
      let held := heldSlots s q
      if dKc d != 0 then keepPartials s q c (gPartials s p b d) (dT d)
      else match gWords s p b d (if gInitSel b = 2 then held else []) with
      | .error f => endEarly s q p f c.outs 0
      | .ok ws =>
        let s1 := if gOutMode b = 0 then s else setAccum s (gHeldWrites d held ws)
        if gOutMode b = 1 then setResult s1 q (completedResult .none none none (dT d))
        else writeRows s1 q p (gOutRows s p b d c.seed ws) c.outs c.stall (dT d)

/-- R112: a consumer that finds a tile lost at the end of its stage B executes nothing. -/
def unrun (s : State) (q : Nat) : State :=
  setQueue s q fun Q => { Q with state := .check, cmd := Q.cmd.map fun c => { c with start := none } }

/-- The start of MX_GEMM after stage B: slots, scratch and spill charges, the work record, the window fence. -/
def startMxGemm (s0 : State) (q : Nat) (Q : Queue) (c : Cmd) : State :=
  let p := Q.cfg.part
  let b := c.body
  match readDesc s0 p b 256 with
  | .ok (some d) =>
    let consume := gInitSel b == 2
    let holds := gOutMode b == 1 || gOutMode b == 2
    match (if consume then lostTile s0 q else none) with
    | some t => setResult (unrun s0 q) q ⟨.faultUnrecovered, t, 0, 0⟩
    | none =>
      let grant := grantEngines s0 p
      let s1 := if holds && !consume then holdSlots s0 q (dT d) (slotSupply s0 grant) (heldShape d) else s0
      let units := tiledUnits d grant.length
      let g := descGrid d false (holds || consume) (gPasses s0 p b) (gBanks b d) 0 []
      let w := newWork s1 p g
      let s2 := openWork (charge s1 p units 0) q
        { w with bound := if holds || consume then (heldSlots s1 q).map fun (t, e, _) => (e, t) else [] }
      let s3 := setCmd s2 q fun x => { x with outs := gOuts b d, chargeLoam := units, loaded := [d] }
      gated s3 q p (gReads b d) fun st => computeMxGemm st q
  | _ => s0

/-- MX_GEMM (R119): stage B, then the product. -/
def execMxGemm (q : Nat) (s : State) : Host.Outcome State Fault Refusal :=
  .next (runCommand s q 0x100 checksMxGemm (fun st Q c => startMxGemm st q Q c))

end Sys2Proof.Machine
end

