-- ==== Sys2Proof/Machine/Convolution.lean ====
section
/-! DEFINITION. CONV2D and POOL (R147 to R165): geometry, checks of Table 6-4, the direct method, the F(4×4, 3×3)
transform, and both kinds of pooling. -/

namespace Sys2Proof.Machine

/-! ### Geometry (Tables 6-3 and 6-5) -/

/-- The fields that CONV2D and POOL share: filter, stride, dilation, tile, padding, input and output sizes, the padding
constant, and the strides of input and output. -/
structure Geo where
  r : Nat
  s : Nat
  sh : Nat
  sw : Nat
  dh : Nat
  dw : Nat
  th : Nat
  tw : Nat
  pn : Nat
  ps : Nat
  pw : Nat
  pe : Nat
  h : Nat
  w : Nat
  ho : Nat
  wo : Nat
  pad : Nat
  inRow : Nat
  inCol : Nat
  outRow : Nat
  outCol : Nat
  deriving DecidableEq, Repr

/-- The geometry whose R field starts at bit `o` and whose in_row field starts at bit `t`: both bodies order the fields
alike. -/
def geoAt (b o t : Nat) : Geo :=
  { r := fld b o 8, s := fld b (o + 8) 8, sh := fld b (o + 16) 8, sw := fld b (o + 24) 8, dh := fld b (o + 32) 8,
    dw := fld b (o + 40) 8, th := fld b (o + 48) 8, tw := fld b (o + 56) 8, pn := fld b (o + 64) 16,
    ps := fld b (o + 80) 16, pw := fld b (o + 96) 16, pe := fld b (o + 112) 16, h := fld b (o + 128) 16,
    w := fld b (o + 144) 16, ho := fld b (o + 160) 16, wo := fld b (o + 176) 16, pad := fld b (o - 32) 32,
    inRow := fld b t 48, inCol := fld b (t + 64) 48, outRow := fld b (t + 128) 48, outCol := fld b (t + 192) 48 }

/-- R150: one output extent, 0 where the filter does not fit. -/
def outExtent (size padA padB taps dil stride : Nat) : Nat :=
  let reach := (taps - 1) * dil + 1
  if size + padA + padB < reach then 0 else (size + padA + padB - reach) / max 1 stride + 1

def geoTH (g : Geo) : Nat := ceilDiv g.ho (max 1 g.th)
def geoTW (g : Geo) : Nat := ceilDiv g.wo (max 1 g.tw)

/-- R154: the overlap of the input regions of adjacent tiles, as an integer. -/
def overlapW (g : Geo) : Int := ((g.s : Int) - 1) * g.dw + 1 - g.sw
def overlapH (g : Geo) : Int := ((g.r : Int) - 1) * g.dh + 1 - g.sh

/-- R154: a halo field is 0 or equals the overlap, and is 0 where the overlap is below 1 or above 255. -/
def haloOk (field : Nat) (ov : Int) : Bool := field == 0 || (decide (1 ≤ ov) && decide (ov ≤ 255) && (field : Int) == ov)

/-- Banks of the halo bands (R144, R154) for `cg` channels of `bits` bits. -/
def haloBanks (d : Nat) (g : Geo) (cg bits : Nat) : Nat :=
  let rows := (g.th - 1) * g.sh + (g.r - 1) * g.dh + 1
  let cols := (g.tw - 1) * g.sw + (g.s - 1) * g.dw + 1
  let bank (field along : Nat) : Nat := ceilDiv (field * along * cg * bits) (8 * 0x10000)
  bank (dHaloN d) cols + bank (dHaloS d) cols + bank (dHaloW d) rows + bank (dHaloE d) rows

/-- Range checks of the shared body fields, the first bit of R being `o` (Table 6-4 check 13, R150). -/
def geoShape (b o : Nat) (g : Geo) : List (Bool × Fail) :=
  let bad (c : Bool) (lo : Nat) : Bool × Fail := (c, atBit .loadBadShape lo)
  [bad (g.r == 0 || decide (16 < g.r)) o, bad (g.s == 0 || decide (16 < g.s)) (o + 8), bad (g.sh == 0) (o + 16),
   bad (g.sw == 0) (o + 24), bad (g.dh == 0) (o + 32), bad (g.dw == 0) (o + 40), bad (g.th == 0 || decide (64 < g.th)) (o + 48),
   bad (g.tw == 0 || decide (64 < g.tw)) (o + 56), bad (fld b (o + 128) 16 == 0) (o + 128), bad (g.w == 0) (o + 144),
   bad (g.ho == 0 || g.ho != outExtent g.h g.pn g.ps g.r g.dh g.sh) (o + 160),
   bad (g.wo == 0 || g.wo != outExtent g.w g.pw g.pe g.s g.dw g.sw) (o + 176)]

/-- Descriptor values of Table 6-1 that CONV2D and POOL share, and R154. -/
def geoDesc (d : Nat) (g : Geo) : List (Bool × Fail) :=
  let at_ (c : Bool) (ptr lo : Nat) : Bool × Fail := (c, inStruct .loadBadShape ptr (lo / 8))
  let tiles := geoTH g * geoTW g
  [at_ (dN d != tiles * dNt d) 256 24, at_ (dNt d != g.th * g.tw) 256 80,
   at_ (!haloOk (dHaloN d) (overlapH g)) 256 168, at_ (!haloOk (dHaloS d) (overlapH g)) 256 176,
   at_ (!haloOk (dHaloW d) (overlapW g)) 256 184, at_ (!haloOk (dHaloE d) (overlapW g)) 256 192]

/-- The sides that have halos, in the order n, s, w, e. -/
def haloSides (d : Nat) : List Bool := [dHaloN d != 0, dHaloS d != 0, dHaloW d != 0, dHaloE d != 0]

/-- The highest offset of an image tensor: batch terms of stride block `i`, then y and x, then one position's bytes. -/
def imageExtent (d i rows cols rowS colS bytes : Nat) : Nat :=
  (dNb1 d - 1) * dS1 d i + (dNb0 d - 1) * dS0 d i + (rows - 1) * rowS + (cols - 1) * colS + bytes

/-- Output spans of an image tensor: one per position. -/
def imageSpans (d i va rows cols rowS colS bytes : Nat) : List (Nat × Nat) :=
  (dBatches d).flatMap fun (b1, b0) => (positions rows cols).map fun (y, x) =>
    (va + dBatch d i b1 b0 + y * rowS + x * colS, bytes)

/-- The spans that are read of the positions `xs` of a row (R113, R334). -/
def colReads (va colS bytes : Nat) (xs : List Nat) : List (Nat × Nat) :=
  match xs with
  | [] => []
  | x :: _ =>
    if colS < bytes + 64 && xs == rangeFrom x xs.length then [(va + x * colS, (xs.length - 1) * colS + bytes)]
    else xs.map fun y => (va + y * colS, bytes)

/-- The spans that are read of rows `ys` and columns `xs` of an image tensor over every batch entry. -/
def imageReads (d i va rowS colS bytes : Nat) (ys xs : List Nat) : List (Nat × Nat) :=
  (List.range (if dS1 d i = 0 then min 1 (dNb1 d) else dNb1 d)).flatMap fun b1 =>
    (List.range (if dS0 d i = 0 then min 1 (dNb0 d) else dNb0 d)).flatMap fun b0 =>
      ys.flatMap fun y => colReads (va + dBatch d i b1 b0 + y * rowS) colS bytes xs

/-- Rows and columns of the input that some tap of some output position reads. -/
def usedRows (g : Geo) : List Nat :=
  (List.range g.h).filter fun yi => (List.range g.r).any fun r =>
    decide (r * g.dh ≤ yi + g.pn) && (yi + g.pn - r * g.dh) % max 1 g.sh == 0 && decide ((yi + g.pn - r * g.dh) / max 1 g.sh < g.ho)

def usedCols (g : Geo) : List Nat :=
  (List.range g.w).filter fun xi => (List.range g.s).any fun t =>
    decide (t * g.dw ≤ xi + g.pw) && (xi + g.pw - t * g.dw) % max 1 g.sw == 0 && decide ((xi + g.pw - t * g.dw) / max 1 g.sw < g.wo)

/-- R151: the input position that tap (r, s) of output (y, x) reads; `none` for a padding tap. -/
def tapPos (g : Geo) (y x r s : Nat) : Option (Nat × Nat) :=
  let yi := y * g.sh + r * g.dh
  let xi := x * g.sw + s * g.dw
  if g.pn ≤ yi ∧ yi - g.pn < g.h ∧ g.pw ≤ xi ∧ xi - g.pw < g.w then some (yi - g.pn, xi - g.pw) else none

/-- A block scale and an element of an MX format that stand for a value where the format can (R36): the scale that brings the value
into the element's top binade, or the next one. -/
def padElem (f : Fmt) : FV → Nat × Nat
  | .nan => (0xFF, 0)
  | .inf n => (127, if f == .mxE5M2 then infBits f n else 0)
  | .fin n m e =>
    let x : FV := .fin n m e
    let under (sc : Nat) : Nat := (narrowAt f .nearest true 0 (scale2 (127 - sc) x)).1
    if m = 0 then (127, under 127)
    else
      let sc := (max (-127) (min 127 (leadExp m e - mxEmax f)) + 127).toNat
      if feq (mxFV f sc (under sc)) x then (sc, under sc) else (min 254 (sc + 1), under (min 254 (sc + 1)))

/-- R152: the padding element of a format as a row of `n` elements. -/
def padRow (f : Fmt) (pad n : Nat) : OpRow :=
  if isMx f then
    let (sc, e) := padElem f (f32 pad)
    .mx (List.replicate (ceilDiv n 32) (sc, List.replicate 32 (elemFV f e)))
  else .scalar (List.replicate n (elemFV f (narrow f .nearest false (f32 pad)).1))

/-- R152: whether an FP32 constant is exactly representable in a format, an infinity among them. DEDUCED, log entry 27. -/
def representable (f : Fmt) (pad : Nat) : Bool :=
  let x := f32 pad
  match opRowValues (padRow f pad 1) with
  | y :: _ => feq x y || (isNan x && isNan y)
  | [] => false

/-- Whether a tap is no padding tap for some output position (R153). -/
def tapUsed (g : Geo) (r t : Nat) : Bool :=
  ((List.range g.ho).any fun y => decide (g.pn ≤ y * g.sh + r * g.dh) && decide (y * g.sh + r * g.dh - g.pn < g.h))
    && (List.range g.wo).any fun x => decide (g.pw ≤ x * g.sw + t * g.dw) && decide (x * g.sw + t * g.dw - g.pw < g.w)

/-- Whether the weights of a tap are read (R153): all of them with a padding constant or under the transform. -/
def tapRead (g : Geo) (xform : Bool) (r t : Nat) : Bool := xform || g.pad != 0 || tapUsed g r t

/-- R154 and R124 values that a work record needs for a command with a tile descriptor, and its start: the charge of
split scratch and loam spill, the work record and the window fence. -/
def startTiled (s0 : State) (q p d units : Nat) (harrowOnly : Bool) (perDrain banks haloWidth : Nat) (halo : List Bool)
    (outs reads : List (Nat × Nat)) (compute : State → State) : State :=
  let w := newWork s0 p (descGrid d harrowOnly false perDrain banks haloWidth halo)
  let s1 := openWork (charge s0 p units 0) q w
  gated (setCmd s1 q fun x => { x with outs := outs, chargeLoam := units, loaded := [d] }) q p reads compute

/-! ### CONV2D -/

def cFmtW (b : Nat) : Nat := fld b 512 8
def cFmtIn (b : Nat) : Nat := fld b 520 8
def cFmtOut (b : Nat) : Nat := fld b 528 8
def cFmtInit (b : Nat) : Nat := fld b 536 8
def cInitSel (b : Nat) : Nat := fld b 544 3
def cInitBcast (b : Nat) : Bool := bitOf b 547
def cXform (b : Nat) : Nat := fld b 548 2
def cEpilogue (b : Nat) : Nat := fld b 552 8
def cAlpha (b : Nat) : Nat := fld b 568 32
def cRstream (b : Nat) : Nat := fld b 600 32
def cEpiAddr (b : Nat) : Nat := fld b 1280 48
def cFmtEpi (b : Nat) : Nat := fld b 1328 8
def cEpi0 (b : Nat) : Nat := fld b 1344 32
def cEpi1 (b : Nat) : Nat := fld b 1376 32
def cGeo (b : Nat) : Geo := geoAt b 664 1024

/-- Input channels per group (Table 6-1: K = R × S × Cg). -/
def cCg (b d : Nat) : Nat := dK d / max 1 ((cGeo b).r * (cGeo b).s)

/-- Stride blocks that a CONV2D does not use. -/
def cUnused (b : Nat) : List Nat :=
  (if cInitSel b = 1 then [] else [3]) ++ (if bitOf (cEpilogue b) 7 then [] else [4])
    ++ (if isMx (fmtOf (cFmtW b)) then [] else [5]) ++ (if isMx (fmtOf (cFmtIn b)) then [] else [6])
    ++ (if isMx (fmtOf (cFmtOut b)) then [] else [7])

/-- Check 8 on the body (Table 6-3). -/
def cReserved (b : Nat) : List (Bool × Fail) :=
  let mxW := isMx (fmtOf (cFmtW b))
  let mxI := isMx (fmtOf (cFmtIn b))
  let mxO := isMx (fmtOf (cFmtOut b))
  let noInit := cInitSel b != 1
  let noEpi := !bitOf (cEpilogue b) 7
  reservedBody b [(48, 16), (112, 16), (176, 16)] ++ zeroWhen b noInit [(192, 48)] ++ reservedBody b [(240, 16), (304, 16)]
    ++ zeroWhen b (!mxW) [(320, 48)] ++ reservedBody b [(368, 16)] ++ zeroWhen b (!mxI) [(384, 48)]
    ++ reservedBody b [(432, 16)] ++ zeroWhen b (!mxO) [(448, 48)]
    ++ reservedBody b [(496, 16), (519, 1), (527, 1), (535, 1), (543, 1)] ++ zeroWhen b noInit [(536, 8)]
    ++ reservedBody b [(550, 2), (560, 8), (856, 168), (1072, 16), (1136, 16), (1200, 16), (1264, 16)]
    ++ zeroWhen b noEpi [(1280, 48)] ++ reservedBody b [(1335, 1)] ++ zeroWhen b noEpi [(1328, 8)]
    ++ reservedBody b [(1336, 8), (1408, 128)] ++ zeroWhen b (!mxI) [(1536, 48)] ++ reservedBody b [(1584, 16)]
    ++ zeroWhen b (!mxI) [(1600, 48)] ++ reservedBody b [(1648, 16)] ++ zeroWhen b (!mxO) [(1664, 48)]
    ++ reservedBody b [(1712, 16)] ++ zeroWhen b (!mxO) [(1728, 48)] ++ reservedBody b [(1776, 272)]

/-- Formats that the transform accepts (R158). -/
def xformFmt (f : Fmt) : Bool := f == .e4m3 || f == .e5m2 || f == .bf16 || f == .fp16

/-- The shape conditions of R158. -/
def xformShape (b d : Nat) : Bool :=
  let g := cGeo b
  g.r == 3 && g.s == 3 && g.sh == 1 && g.sw == 1 && g.dh == 1 && g.dw == 1 && g.th % 4 == 0 && g.tw % 4 == 0
    && dStat d == 0 && dKc d == 0

/-- R157: whether the transform runs, for `n` engines granted at stage B. -/
def xformRuns (b d n : Nat) : Bool :=
  cXform b == 1 || (cXform b == 2 && xformShape b d && xformFmt (fmtOf (cFmtW b)) && xformFmt (fmtOf (cFmtIn b)) && decide (96 ≤ n))

/-- The address field of each tensor, by stride block. -/
def cAddrBit (i : Nat) : Nat := [0, 64, 128, 192, 1280, 320, 384, 448].getD i 0

/-- Bytes of one row or position of each tensor. -/
def cBytes (b d i : Nat) : Nat :=
  match i with
  | 0 => rowBytes (fmtOf (cFmtW b)) (dK d)
  | 1 => rowBytes (fmtOf (cFmtIn b)) (cCg b d)
  | 2 => rowBytes (fmtOf (cFmtOut b)) (dM d)
  | 3 => rowBytes (fmtOf (cFmtInit b)) (dM d)
  | 4 => rowBytes (fmtOf (cFmtEpi b)) (dM d)
  | 5 => ceilDiv (dK d) 32
  | 6 => ceilDiv (cCg b d) 32
  | _ => ceilDiv (dM d) 32

/-- The extent of each tensor (Table 6-4 check 16). DEDUCED, log entry 24. -/
def cExtent (b d i : Nat) : Nat :=
  let g := cGeo b
  match i with
  | 0 | 5 => dExtent d i (dM d) (cBytes b d i)
  | 1 => imageExtent d 1 g.h g.w g.inRow g.inCol (cBytes b d 1)
  | 3 => if cInitBcast b then imageExtent d 3 1 1 0 0 (cBytes b d 3) else imageExtent d 3 g.ho g.wo g.outRow g.outCol (cBytes b d 3)
  | 6 => imageExtent d 6 g.h g.w (fld b 1536 48) (fld b 1600 48) (cBytes b d 6)
  | 7 => imageExtent d 7 g.ho g.wo (fld b 1664 48) (fld b 1728 48) (cBytes b d 7)
  | _ => imageExtent d i g.ho g.wo g.outRow g.outCol (cBytes b d i)

def cUsed (b : Nat) : List Nat := (List.range 8).filter fun i => !(cUnused b).contains i

/-- Bytes of a tap's part of a weight row or of its scales. -/
def cTapBytes (b d i : Nat) : Nat := if i = 5 then cCg b d / 32 else cCg b d * elemBits (fmtOf (cFmtW b)) / 8

/-- The spans read of the weights or of their scales: the parts of the taps that are read (R153). -/
def cWeightReads (b d i : Nat) (xform : Bool) : List (Nat × Nat) :=
  let g := cGeo b
  let taps := positions g.r g.s
  if taps.all fun (r, t) => tapRead g xform r t then dSpans d i (fld b (cAddrBit i) 48) (dM d) (cBytes b d i)
  else ((List.range taps.length).zip taps).flatMap fun (k, r, t) =>
    if tapRead g xform r t then dSpans d i (fld b (cAddrBit i) 48 + k * cTapBytes b d i) (dM d) (cTapBytes b d i) else []

/-- The spans that CONV2D reads. -/
def cReads (b d : Nat) (xform : Bool) : List (Nat × Nat) :=
  let g := cGeo b
  ((cUsed b).filter fun i => i != 2 && i != 7).flatMap fun i => match i with
    | 0 | 5 => cWeightReads b d i xform
    | 1 => imageReads d 1 (fld b 64 48) g.inRow g.inCol (cBytes b d 1) (usedRows g) (usedCols g)
    | 6 => imageReads d 6 (fld b 384 48) (fld b 1536 48) (fld b 1600 48) (cBytes b d 6) (usedRows g) (usedCols g)
    | 3 => if cInitBcast b then imageReads d 3 (fld b 192 48) 0 0 (cBytes b d 3) [0] [0]
        else imageReads d 3 (fld b 192 48) g.outRow g.outCol (cBytes b d 3) (List.range g.ho) (List.range g.wo)
    | _ => imageReads d i (fld b (cAddrBit i) 48) g.outRow g.outCol (cBytes b d i) (List.range g.ho) (List.range g.wo)

def cOuts (b d : Nat) : List (Nat × Nat) :=
  let g := cGeo b
  imageSpans d 2 (fld b 128 48) g.ho g.wo g.outRow g.outCol (cBytes b d 2)
    ++ (if isMx (fmtOf (cFmtOut b)) then imageSpans d 7 (fld b 448 48) g.ho g.wo (fld b 1664 48) (fld b 1728 48) (cBytes b d 7)
        else [])

/-- The row stride of an image tensor's stride block must be 0 (R147). -/
def imageRowZero (d i : Nat) : Bool × Fail := (dRow d i != 0, inStruct .loadReservedNonzero 256 ((512 + 192 * i) / 8))

/-- Strides of a written image tensor of `rows` rows (Table 5-4 check 13, R145, R147, R567): the row stride is the body's, at bit
`bit`, and a row reaches from its first position to the end of its last. DEDUCED, log entry 167. -/
def imageWritten (d i rows cols rowS colS bytes bit : Nat) : List (Bool × Fail) :=
  let at_ (o : Nat) := inStruct .loadBadShape 256 ((512 + 192 * i + o) / 8)
  [(decide (1 < rows) && decide (rowS < (cols - 1) * colS + bytes), atBit .loadBadShape bit),
   (decide (1 < dNb0 d) && decide (dS0 d i < rows * rowS), at_ 64),
   (decide (1 < dNb1 d) && decide (dS1 d i < dNb0 d * dS0 d i), at_ 128)]

/-- The format byte of each tensor; scales are bytes. -/
def cFmt (b i : Nat) : Nat := [cFmtW b, cFmtIn b, cFmtOut b, cFmtInit b, cFmtEpi b, 5, 5, 5].getD i 5

/-- Whether a stride that out, init and the epilogue operand share is odd for one of them that is BF16 or FP16. -/
def cOddOut (b stride : Nat) : Bool :=
  oddStride (cFmtOut b) stride || (cInitSel b == 1 && !cInitBcast b && oddStride (cFmtInit b) stride)
    || (bitOf (cEpilogue b) 7 && oddStride (cFmtEpi b) stride)

/-- Passes of the harrow over a drained tile (R167, R185). -/
def cPasses (s : State) (p b : Nat) : Nat :=
  passes (fnOps s (partOf s p).cfg.zg40 (cEpilogue b % 128) + (if bitOf (cEpilogue b) 7 then 1 else 0))

/-- The tilth footprint of CONV2D (R144). -/
def cBanks (b d : Nat) : Nat :=
  tilthBanks d (fmtOf (cFmtW b)) (fmtOf (cFmtIn b)) (cInitSel b == 1 || bitOf (cEpilogue b) 7)
    + haloBanks d (cGeo b) (cCg b d) (elemBits (fmtOf (cFmtIn b)))

/-- Compute cycles of a transform tile: 2 × Cg × ⌈36 × blocks / 64⌉ (R160). -/
def xformCycles (cg nt : Nat) : Nat := 2 * cg * ceilDiv (36 * (nt / 16)) 64

/-- Busy cycles of the busiest engine under the transform (R160). -/
def xformCyclesAll (b d perDrain : Nat) (grant : List Nat) : Nat :=
  let g := descGrid d false false perDrain 0 0 []
  12 + busyCycles grant (dW d) fun both w => ((itemTiles g w).map fun t =>
    tileTime (xformCycles (cCg b d) (dNt d)) ((tileShape d t).1 * dNt d) perDrain both).foldl (· + ·) 0

/-- Checks of CONV2D in the order of Table 3-4. DEDUCED, log entry 152. -/
def checksConv2d (s : State) (Q : Queue) (c : Cmd) : List (Bool × Fail) :=
  let p := Q.cfg.part
  let P := partOf s p
  let b := c.body
  let rd := readDesc s p b 256
  let desc : Option Nat := match rd with | .ok (some d) => some d | _ => none
  let onDesc (f : Nat → List (Bool × Fail)) : List (Bool × Fail) := match desc with | some d => f d | none => []
  let W := fmtOf (cFmtW b)
  let I := fmtOf (cFmtIn b)
  let O := fmtOf (cFmtOut b)
  let mx := isMx W || isMx I
  let epi := cEpilogue b
  let g := cGeo b
  let grant := grantEngines s p
  let bad (c : Bool) (lo : Nat) : Bool × Fail := (c, atBit .loadBadShape lo)
  let badD (c : Bool) (lo : Nat) : Bool × Fail := (c, inStruct .loadBadShape 256 (lo / 8))
  cReserved b ++ [readFailed rd]
    ++ onDesc (fun d => descReserved 256 d (cUnused b) ++ [imageRowZero d 1, imageRowZero d 2]
        ++ (if cInitBcast b then [imageRowZero d 3] else []))
    ++ streamCheck s P c.hdr false ++ seedCheck P c.hdr (fmtDraws (cFmtOut b))
    ++ [(!fmtLegalIn (cFmtW b), atBit .loadBadFormat 512), (!fmtLegalIn (cFmtIn b), atBit .loadBadFormat 520),
        (!fmtLegalOut (cFmtOut b), atBit .loadBadFormat 528),
        (cInitSel b == 1 && (!fmtLegalIn (cFmtInit b) || isMx (fmtOf (cFmtInit b))), atBit .loadBadFormat 536),
        (bitOf epi 7 && (!fmtLegalIn (cFmtEpi b) || isMx (fmtOf (cFmtEpi b))), atBit .loadBadFormat 1328),
        (!legalPair W I, failNone .loadBadFormat),
        (cXform b == 1 && (!xformFmt W || !xformFmt I), failNone .loadBadFormat)]
    ++ [(!fnLoaded s (epi % 128), atBit .loadUnitDisabled 552), takerCheck grant.length]
    ++ onDesc (fun d => descShape 256 d mx true)
    ++ [bad (decide (2 ≤ cInitSel b)) 544, bad (cXform b == 3) 548, bad (reservedFn (epi % 128)) 552,
        bad (!clampOk (epi % 128) (cEpi0 b) (cEpi1 b)) 1344] ++ geoShape b 664 g
    ++ [bad (!representable I g.pad) 632]
    ++ onDesc (fun d =>
      [badD (dK d % max 1 (g.r * g.s) != 0) 48, badD (dBLayout d != 1) 97] ++ geoDesc d g
      ++ [badD (mx && cCg b d % 32 != 0) 48, bad (cXform b == 1 && !xformShape b d) 548,
          bad (!mxExtentOk (cFmtOut b) (dM d)) 528,
          badD (isMx O && dMt d % 32 != 0 && decide (1 < dTM d)) 72,
          badD (isMx O && decide (1 < dNb1 d) && dM d % 32 != 0) 0]
      ++ imageWritten d 2 g.ho g.wo g.outRow g.outCol (cBytes b d 2) 1152
      ++ (if isMx O then imageWritten d 7 g.ho g.wo (fld b 1664 48) (fld b 1728 48) (cBytes b d 7) 1664 else []))
    ++ [(cXform b == 2 && P.cfg.repeatable, atBit .loadModeForbidden 548)]
    ++ [alignCheck b 0 64, alignCheck b 64 64, alignCheck b 128 64, alignCheck b 192 64, alignCheck b 256 64,
        alignCheck b 320 32, alignCheck b 384 32, alignCheck b 448 32,
        (oddStride (cFmtIn b) g.inRow, atBit .loadAlign 1024), (oddStride (cFmtIn b) g.inCol, atBit .loadAlign 1088),
        (cOddOut b g.outRow, atBit .loadAlign 1152), (cOddOut b g.outCol, atBit .loadAlign 1216), alignCheck b 1280 64]
    ++ onDesc (fun d => (cUsed b).flatMap fun i => descAlign 256 d i (cFmt b i))
    ++ [readCheck s p b 256 256]
    ++ onDesc (fun d => (cUsed b).map fun i =>
        if i == 2 || i == 7 then writeCheck s p b (cAddrBit i) (cExtent b d i) else readCheck s p b (cAddrBit i) (cExtent b d i))
    ++ onDesc (fun d =>
      let banks := cBanks b d
      [(decide (2147483648 < dW d) || decide (4294967295 < dT d), failNone .loadTileCount),
       ((dSpill d == 0 && decide (16 < dLive d)) || decide (128 < dLive d)
          || !(grant.any fun e => decide ((if dSpill d = 0 then dLive d else 2) ≤ (freeSlots s e).length)),
         failAt .loadAccCapacity 0xFFFFFFFF (dLive d)),
       (decide (46 < banks), failAt .loadTilthCapacity 0xFFFFFFFF (64 * banks)), loamCheck P (tiledUnits d grant.length),
       beCheck s Q (aclkUs (if xformRuns b d grant.length then xformCyclesAll b d (cPasses s p b) grant
         else engineCycles d W I (cPasses s p b) grant))])

/-- The weights of the channels of group b1 (and image b0): one operand row of Cg per output channel and tap, none of a tap that is
not read (R153). -/
def cWeights (s : State) (p b d b1 b0 : Nat) (xform : Bool) : Except Fail (List (List OpRow)) :=
  let g := cGeo b
  let taps := positions g.r g.s
  (List.range (dM d)).mapM fun m => ((List.range taps.length).zip taps).mapM fun (k, r, t) =>
    if tapRead g xform r t then
      loadOpRow s p (fmtOf (cFmtW b)) (fld b 0 48 + dBatch d 0 b1 b0 + m * dRow d 0 + k * cTapBytes b d 0)
        (fld b 320 48 + dBatch d 5 b1 b0 + m * dRow d 5 + k * cTapBytes b d 5) (cCg b d)
    else .ok (.scalar [])

/-- The input channels of a position. -/
def cInput (s : State) (p b d b1 b0 yi xi : Nat) : Except Fail OpRow :=
  let g := cGeo b
  loadOpRow s p (fmtOf (cFmtIn b)) (fld b 64 48 + dBatch d 1 b1 b0 + yi * g.inRow + xi * g.inCol)
    (fld b 384 48 + dBatch d 6 b1 b0 + yi * fld b 1536 48 + xi * fld b 1600 48) (cCg b d)

/-- The operand of a tap: input, the padding constant, or no step at all (R151, R152). -/
def cTap (s : State) (p b d b1 b0 y x r t : Nat) : Except Fail (Option OpRow) :=
  let g := cGeo b
  match tapPos g y x r t with
  | some (yi, xi) => match cInput s p b d b1 b0 yi xi with | .ok row => .ok (some row) | .error f => .error f
  | none => .ok (if g.pad = 0 then none else some (padRow (fmtOf (cFmtIn b)) g.pad (cCg b d)))

/-- The steps of an output element in the order of R151: a missing tap takes none. -/
def cSteps (f : Fmt) (cg : Nat) (taps : List (Option OpRow)) (w : List OpRow) : List (Option FV) :=
  (List.range taps.length).zip taps |>.flatMap fun (i, t) => match t with
    | some row => (addendsFor f (w.getD i (.scalar [])) row).map some
    | none => List.replicate (if isMx f then cg / 32 else cg) none

/-- Initial values of the channels of a position (Table 6-3 init_sel and init_bcast). -/
def cInits (s : State) (p b d b1 b0 y x : Nat) : Except Fail (List FV) :=
  let g := cGeo b
  if cInitSel b = 1 then
    loadRow s p (fmtOf (cFmtInit b))
      (fld b 192 48 + dBatch d 3 b1 b0 + (if cInitBcast b then 0 else y * g.outRow + x * g.outCol)) (dM d)
  else .ok (List.replicate (dM d) pzero)

/-- Epilogue operands of a position, +0 where there are none. -/
def cEpis (s : State) (p b d b1 b0 y x : Nat) : Except Fail (List FV) :=
  let g := cGeo b
  if bitOf (cEpilogue b) 7 then
    loadRow s p (fmtOf (cFmtEpi b)) (cEpiAddr b + dBatch d 4 b1 b0 + y * g.outRow + x * g.outCol) (dM d)
  else .ok (List.replicate (dM d) pzero)

/-- The words of a position by the direct method: initial value first (R45), then the steps. -/
def cDirect (s : State) (p b d b1 b0 y x : Nat) (ws : List (List OpRow)) : Except Fail (List FV) := do
  let g := cGeo b
  let taps ← (positions g.r g.s).mapM fun (r, t) => cTap s p b d b1 b0 y x r t
  let inits ← cInits s p b d b1 b0 y x
  pure (List.zipWith (fun w i => dotProduct i 0 (cSteps (fmtOf (cFmtW b)) (cCg b d) taps w)) ws inits)

/-- The sums of the chunks of a split (R48), each from +0, for the channels of a position. -/
def cChunks (s : State) (p b d b1 b0 y x : Nat) (ws : List (List OpRow)) : Except Fail (List (List FV)) := do
  let g := cGeo b
  let taps ← (positions g.r g.s).mapM fun (r, t) => cTap s p b d b1 b0 y x r t
  let f := fmtOf (cFmtW b)
  let per := if isMx f then dKc d / 32 else dKc d
  pure (ws.map fun w =>
    let xs := cSteps f (cCg b d) taps w
    (chunksOf per (xs.length + 1) xs).map (accumulate pzero))

/-! ### The transform (R159, Table 6-2) -/

def small (z : Int) : FV := .fin (decide (z < 0)) z.natAbs 0

def matBt : List (List FV) :=
  [[4, 0, -5, 0, 1, 0], [0, -4, -4, 1, 1, 0], [0, 4, -4, -1, 1, 0], [0, -2, -1, 2, 1, 0], [0, 2, -1, -2, 1, 0],
   [0, 4, 0, -5, 0, 1]].map (·.map small)

def matG : List (List FV) :=
  let q : FV := .fin false 1 (-2)
  let a := recipNat 6
  let b := recipNat 24
  let c := recipNat 12
  [[q, pzero, pzero], [fneg a, fneg a, fneg a], [fneg a, a, fneg a], [b, c, a], [b, fneg c, a], [pzero, pzero, fone]]

def matAt : List (List FV) :=
  [[1, 1, 1, 1, 1, 0], [0, 1, -1, 2, -2, 0], [0, 1, 1, 4, 4, 0], [0, 1, -1, 8, -8, 1]].map (·.map small)

/-- An FMA chain over ascending index from +0, zero coefficients skipped. -/
def fmaChain (cs xs : List FV) : FV := (cs.zip xs).foldl (fun acc (c, x) => if isZero c then acc else ffma c x acc) pzero

/-- Columns of a matrix of `n` columns. -/
def columnsOf (n : Nat) (xs : List (List FV)) : List (List FV) := (List.range n).map fun j => xs.map fun r => r.getD j pzero

/-- `C X Cᵀ`, rows first and then columns: the product with C on the left is formed first. DEDUCED, log entry 154. -/
def sandwich (C X : List (List FV)) (n : Nat) : List (List FV) :=
  let t := C.map fun cr => (columnsOf n X).map fun col => fmaChain cr col
  t.map fun row => C.map fun cr => fmaChain cr row

/-- Narrowed to BF16 by nearest-even, an overflow to an infinity. DESIGN CHOICE, log entry 170. -/
def toBf16 (x : FV) : FV := elemFV .bf16 (narrow .bf16 .nearest false x).1

/-- U of an output channel, by input channel: 36 BF16 values each. -/
def xformU (cg : Nat) (w : List FV) : List (List FV) :=
  (List.range cg).map fun c =>
    let filt := (List.range 3).map fun r => (List.range 3).map fun t => w.getD ((r * 3 + t) * cg + c) pzero
    (sandwich matG filt 3).flatten.map toBf16

/-- V of a patch of 36 positions, by input channel. -/
def xformV (cg : Nat) (patch : List (List FV)) : List (List FV) :=
  (List.range cg).map fun c =>
    let d := (List.range 6).map fun i => (List.range 6).map fun j => (patch.getD (i * 6 + j) []).getD c pzero
    (sandwich matBt d 6).flatten.map toBf16

/-- Y of one channel: 16 values, from U and V. -/
def xformY (u v : List (List FV)) : List FV :=
  let m := (List.range 36).map fun k =>
    (u.zip v).foldl (fun acc (a, b) => accStep acc (exactMul (a.getD k pzero) (b.getD k pzero))) pzero
  (sandwich matAt ((List.range 6).map fun i => (List.range 6).map fun j => m.getD (i * 6 + j) pzero) 6).flatten

/-- The input patch of an output block: 36 positions of Cg values, padding positions being pad_value. -/
def xformPatch (s : State) (p b d b1 b0 by_ bx : Nat) : Except Fail (List (List FV)) :=
  let g := cGeo b
  (positions 6 6).mapM fun (i, j) => match tapPos g (by_ * 4) (bx * 4) i j with
    | some (yi, xi) => match cInput s p b d b1 b0 yi xi with
      | .ok row => .ok (opRowValues row)
      | .error f => .error f
    | none => .ok (opRowValues (padRow (fmtOf (cFmtIn b)) g.pad (cCg b d)))

/-- The words of a block's positions by the transform: (y, x, words), the initial value added with one rounding. -/
def cBlock (s : State) (p b d b1 b0 : Nat) (us : List (List (List FV))) (by_ bx : Nat) :
    Except Fail (List (Nat × Nat × List FV)) := do
  let g := cGeo b
  let patch ← xformPatch s p b d b1 b0 by_ bx
  let v := xformV (cCg b d) patch
  let ys := us.map fun u => xformY u v
  (((positions 4 4).map fun (i, j) => (by_ * 4 + i, bx * 4 + j, i * 4 + j)).filter
      fun t => t.1 < g.ho && t.2.1 < g.wo).mapM fun (y, x, k) => do
    let inits ← cInits s p b d b1 b0 y x
    pure (y, x, List.zipWith (fun yy i => fadd (yy.getD k pzero) i) ys inits)

/-- The words of every position of a batch entry. -/
def cWords (s : State) (p b d b1 b0 : Nat) (xform : Bool) : Except Fail (List (Nat × Nat × List FV)) := do
  let g := cGeo b
  let ws ← cWeights s p b d b1 b0 xform
  if xform then
    let us := ws.map fun w => xformU (cCg b d) (w.flatMap opRowValues)
    let blocks ← (positions (ceilDiv g.ho 4) (ceilDiv g.wo 4)).mapM fun (i, j) => cBlock s p b d b1 b0 us i j
    pure blocks.flatten
  else (positions g.ho g.wo).mapM fun (y, x) => do
    let w ← cDirect s p b d b1 b0 y x ws
    pure (y, x, w)

/-- The channels of a position from `m0` on (R119): alpha, epilogue, narrowing with the draws of Table 12-2. DEDUCED, log entry 25. -/
def cOutRow (s : State) (z : Bool) (seed : Option W128) (b d b1 b0 y x m0 : Nat) (ws es : List FV) : OutRow :=
  let g := cGeo b
  let ys := List.zipWith (fun w e => epilogueElem s z (cEpilogue b) (cEpi0 b) (cEpi1 b) e (fmul (f32 (cAlpha b)) w)) ws es
  outRow (cFmtOut b) (fun n => laneOf seed (cRstream b) (b1 * 2 ^ 16 + b0) (y * 2 ^ 16 + x) (m0 + n))
    (fld b 128 48 + dBatch d 2 b1 b0 + y * g.outRow + x * g.outCol + m0 * elemBits (fmtOf (cFmtOut b)) / 8)
    (fld b 448 48 + dBatch d 7 b1 b0 + y * fld b 1664 48 + x * fld b 1728 48 + m0 / 32) ys

/-- The output position of column `n` of a grid, unless it is masked (R149). -/
def posOf (g : Geo) (nt n : Nat) : Option (Nat × Nat) :=
  let tn := n / max 1 nt
  let y := tn / max 1 (geoTW g) * g.th + n % max 1 nt / max 1 g.tw
  let x := tn % max 1 (geoTW g) * g.tw + n % max 1 nt % max 1 g.tw
  if y < g.ho ∧ x < g.wo then some (y, x) else none

/-- The partials of every tile of a split CONV2D (R135). -/
def cPartials (s : State) (p b d : Nat) : Except Fail (List (Nat × List Nat)) := do
  let per ← (dBatches d).mapM fun (b1, b0) => do
    let ws ← cWeights s p b d b1 b0 false
    let sums ← (List.range (dN d)).mapM fun n => match posOf (cGeo b) (dNt d) n with
      | some (y, x) => cChunks s p b d b1 b0 y x ws
      | none => .ok []
    pure (tilePartials d b1 b0 fun m n c => ((sums.getD n []).getD m []).getD c pzero)
  pure per.flatten

/-- The rows that the reducer of a tile of a split CONV2D writes (R135). -/
def cReduced (s : State) (p b d : Nat) (seed : Option W128) (t : Nat) (parts : List (List Nat)) : Except Fail (List OutRow) := do
  let (b1, b0) := tileBatch d t
  let (m0, n0) := tileCorner d t
  let (mt, nt) := tileShape d t
  ((List.range nt).filterMap fun j => (posOf (cGeo b) (dNt d) (n0 + j)).map fun yx => (j, yx)).mapM fun (j, y, x) => do
    let inits ← cInits s p b d b1 b0 y x
    let es ← cEpis s p b d b1 b0 y x
    pure (cOutRow s (partOf s p).cfg.zg40 seed b d b1 b0 y x m0
      ((List.range mt).map fun i => combined (inits.getD (m0 + i) pzero) parts (i * nt + j)) (es.drop m0))

/-- The output rows of CONV2D without split. -/
def cOutRows (s : State) (p b d : Nat) (seed : Option W128) (xform : Bool) : Except Fail (List OutRow) := do
  let per ← (dBatches d).mapM fun (b1, b0) => do
    let words ← cWords s p b d b1 b0 xform
    words.mapM fun (y, x, ws) => do
      let es ← cEpis s p b d b1 b0 y x
      pure (cOutRow s (partOf s p).cfg.zg40 seed b d b1 b0 y x 0 ws es)
  pure per.flatten

/-- CONV2D once its operands are ready. -/
def computeConv2d (s : State) (q : Nat) : State :=
  let Q := queueOf s q
  let p := Q.cfg.part
  match Q.cmd with
  | none => s
  | some c => match c.loaded with
    | [] => s
    | d :: _ =>
      let granted := match c.work with | some w => w.grantEngines.length | none => 0
      if dKc d != 0 then keepPartials s q c (cPartials s p c.body d) (dT d)
      else writeRows s q p (cOutRows s p c.body d c.seed (xformRuns c.body d granted)) c.outs c.stall (dT d)

/-- The start of CONV2D after stage B. -/
def startConv2d (s : State) (q : Nat) (Q : Queue) (c : Cmd) : State :=
  let p := Q.cfg.part
  match readDesc s p c.body 256 with
  | .ok (some d) =>
    let n := (grantEngines s p).length
    startTiled s q p d (tiledUnits d n) false (cPasses s p c.body) (cBanks c.body d) (geoTW (cGeo c.body)) (haloSides d) (cOuts c.body d)
      (cReads c.body d (xformRuns c.body d n)) fun st => computeConv2d st q
  | _ => s

/-- CONV2D (R147 to R162). -/
def execConv2d (q : Nat) (s : State) : Host.Outcome State Fault Refusal :=
  .next (runCommand s q 0x101 checksConv2d (fun st Q c => startConv2d st q Q c))

/-! ### POOL (R163 to R165) -/

def plGeo (b : Nat) : Geo := geoAt b 256 512
def plFmtIn (b : Nat) : Nat := fld b 192 8
def plFmtOut (b : Nat) : Nat := fld b 200 8
def plAverage (b : Nat) : Bool := bitOf b 208
def plCountPad (b : Nat) : Bool := bitOf b 209
def plRstream (b : Nat) : Nat := fld b 448 32

/-- Check 8 on the body (Table 6-5): pad_value and count_pad belong to average mode. -/
def plReserved (b : Nat) : List (Bool × Fail) :=
  reservedBody b [(48, 16), (112, 16), (176, 16), (199, 1), (207, 1)] ++ zeroWhen b (!plAverage b) [(209, 1)]
    ++ reservedBody b [(210, 14)] ++ zeroWhen b (!plAverage b) [(224, 32)]
    ++ reservedBody b [(480, 32), (560, 16), (624, 16), (688, 16), (752, 272)]

/-- Stride blocks that POOL does not use: all but input and out. -/
def plUnused : List Nat := [0, 3, 4, 5, 6, 7]

def plInExtent (b d : Nat) : Nat :=
  let g := plGeo b
  imageExtent d 1 g.h g.w g.inRow g.inCol (rowBytes (fmtOf (plFmtIn b)) (dM d))

def plOutExtent (b d : Nat) : Nat :=
  let g := plGeo b
  imageExtent d 2 g.ho g.wo g.outRow g.outCol (rowBytes (fmtOf (plFmtOut b)) (dM d))

/-- The tilth footprint of POOL (R144): staged windows and halo bands. DEDUCED, log entry 26. -/
def plBanks (b d : Nat) : Nat :=
  let bits := elemBits (fmtOf (plFmtIn b))
  4 * ceilDiv (dGn d * dKp d * dNt d * bits) (8 * 0x10000) + haloBanks d (plGeo b) 1 bits

/-- Strides of out (Table 5-4 check 13); the descriptor's address stands at bit 128 here. -/
def plWritten (b d : Nat) : List (Bool × Fail) :=
  let g := plGeo b
  match imageWritten d 2 g.ho g.wo g.outRow g.outCol (rowBytes (fmtOf (plFmtOut b)) (dM d)) 640 with
  | x :: rest => x :: rest.map fun (bad, f) => (bad, { f with a := 64 + 128 / 8 })
  | [] => []

/-- Checks of POOL in the order of Table 3-4. -/
def checksPool (s : State) (Q : Queue) (c : Cmd) : List (Bool × Fail) :=
  let p := Q.cfg.part
  let P := partOf s p
  let b := c.body
  let rd := readDesc s p b 128
  let desc : Option Nat := match rd with | .ok (some d) => some d | _ => none
  let onDesc (f : Nat → List (Bool × Fail)) : List (Bool × Fail) := match desc with | some d => f d | none => []
  let g := plGeo b
  let grant := grantFurrows s p
  let badD (c : Bool) (lo : Nat) : Bool × Fail := (c, inStruct .loadBadShape 128 (lo / 8))
  let at128 (x : Bool × Fail) : Bool × Fail := (x.1, { x.2 with a := 64 + 128 / 8 })
  plReserved b ++ [readFailed rd] ++ onDesc (fun d => descReserved 128 d plUnused ++ [at128 (imageRowZero d 1), at128 (imageRowZero d 2)])
    ++ streamCheck s P c.hdr false ++ seedCheck P c.hdr (fmtDraws (plFmtOut b))
    ++ [(!fmtLegalIn (plFmtIn b) || isMx (fmtOf (plFmtIn b)), atBit .loadBadFormat 192),
        (!fmtLegalOut (plFmtOut b) || isMx (fmtOf (plFmtOut b)), atBit .loadBadFormat 200), takerCheck grant.length]
    ++ onDesc (fun d => descShape 128 d false true) ++ geoShape b 256 g
    ++ [(plAverage b && !representable (fmtOf (plFmtIn b)) g.pad, atBit .loadBadShape 224)]
    ++ onDesc (fun d =>
      [badD (dK d != g.r * g.s) 48, badD (dBLayout d != 0) 97, badD (dStat d != 0) 98, badD (dSpill d != 0) 102,
       badD (dGm d != 1) 104, badD (dGn d != 1) 108, badD (dKc d != 0) 112, badD (dNb1 d != 1) 152]
      ++ (geoDesc d g).map at128 ++ plWritten b d)
    ++ [alignCheck b 0 64, alignCheck b 64 64, alignCheck b 128 64, (oddStride (plFmtIn b) g.inRow, atBit .loadAlign 512),
        (oddStride (plFmtIn b) g.inCol, atBit .loadAlign 576), (oddStride (plFmtOut b) g.outRow, atBit .loadAlign 640),
        (oddStride (plFmtOut b) g.outCol, atBit .loadAlign 704)]
    ++ onDesc (fun d => descAlign 128 d 1 (plFmtIn b) ++ descAlign 128 d 2 (plFmtOut b))
    ++ [readCheck s p b 128 256]
    ++ onDesc (fun d =>
      [readCheck s p b 0 (plInExtent b d), writeCheck s p b 64 (plOutExtent b d),
       (decide (2147483648 < dW d) || decide (4294967295 < dT d), failNone .loadTileCount),
       (decide (46 < plBanks b d), failAt .loadTilthCapacity 0xFFFFFFFF (64 * plBanks b d)),
       beCheck s Q (aclkUs (busyCycles grant (dW d) fun _ t => let (mt, nt) := tileShape d t; ceilDiv (mt * nt * g.r * g.s) 128))])

/-- The window of an output position: the channel rows of its taps in row-major order, `none` in padding. -/
def plWindow (s : State) (p b d b0 y x : Nat) : Except Fail (List (Option (List FV))) :=
  let g := plGeo b
  (positions g.r g.s).mapM fun (r, t) => match tapPos g y x r t with
    | none => .ok none
    | some (yi, xi) =>
      match loadRow s p (fmtOf (plFmtIn b)) (fld b 0 48 + dBatch d 1 0 b0 + yi * g.inRow + xi * g.inCol) (dM d) with
      | .ok row => .ok (some row)
      | .error f => .error f

/-- R164: the largest value of a window; padding counts as −∞. -/
def poolMax (xs : List (Option FV)) : FV := xs.foldl (fun m x => fmax m (x.getD ninf)) ninf

/-- R165: the average of a window. -/
def poolAverage (countPad : Bool) (pad : FV) (xs : List (Option FV)) : FV :=
  let d := if countPad then xs.length else (xs.filterMap id).length
  if d = 0 then pzero
  else fmul (xs.foldl (fun a x => match x with | some v => fadd a v | none => if countPad then fadd a pad else a) pzero) (recipNat d)

/-- The output rows of POOL. -/
def plOutRows (s : State) (p b d : Nat) (seed : Option W128) : Except Fail (List OutRow) := do
  let g := plGeo b
  let per ← (List.range (dNb0 d)).mapM fun b0 =>
    (positions g.ho g.wo).mapM fun (y, x) => do
      let win ← plWindow s p b d b0 y x
      let ys := (List.range (dM d)).map fun m =>
        let xs := win.map fun r => r.map fun row => row.getD m pzero
        if plAverage b then poolAverage (plCountPad b) (f32 g.pad) xs else poolMax xs
      pure (outRow (plFmtOut b) (fun n => laneOf seed (plRstream b) b0 (y * 2 ^ 16 + x) n)
        (fld b 64 48 + dBatch d 2 0 b0 + y * g.outRow + x * g.outCol) 0 ys)
  pure per.flatten

/-- POOL once its input is ready; it never reports a window stall (R162). -/
def computePool (s : State) (q : Nat) : State :=
  let Q := queueOf s q
  let p := Q.cfg.part
  match Q.cmd with
  | none => s
  | some c => match c.loaded with
    | [] => s
    | d :: _ => writeRows s q p (plOutRows s p c.body d c.seed) c.outs none (dT d)

/-- The start of POOL after stage B. -/
def startPool (s : State) (q : Nat) (Q : Queue) (c : Cmd) : State :=
  let p := Q.cfg.part
  let b := c.body
  match readDesc s p b 128 with
  | .ok (some d) =>
    let g := plGeo b
    startTiled s q p d 0 true 1 (plBanks b d) (geoTW g) (haloSides d)
      (imageSpans d 2 (fld b 64 48) g.ho g.wo g.outRow g.outCol (rowBytes (fmtOf (plFmtOut b)) (dM d)))
      (imageReads d 1 (fld b 0 48) g.inRow g.inCol (rowBytes (fmtOf (plFmtIn b)) (dM d)) (usedRows g) (usedCols g)) fun st => computePool st q
  | _ => s

/-- POOL (R163 to R165). -/
def execPool (q : Nat) (s : State) : Host.Outcome State Fault Refusal :=
  .next (runCommand s q 0x102 checksPool (fun st Q c => startPool st q Q c))

end Sys2Proof.Machine
end

