-- ==== Sys2Proof/Machine/Eltwise.lean ====
section
/-! DEFINITION. ELTWISE (R187 to R191): checks of Table 7-11, the map form and the scatter-add form. -/

namespace Sys2Proof.Machine

/-! ### The body (Table 7-8) -/

def eFmtA (b : Nat) : Nat := fld b 752 8
def eFmtB (b : Nat) : Nat := fld b 760 8
def eFmtC (b : Nat) : Nat := fld b 768 8
def eFmtOut (b : Nat) : Nat := fld b 776 8
def eFunc (b : Nat) : Nat := fld b 784 8
def eOp (b : Nat) : Nat := fld b 792 8
def eForm (b : Nat) : Nat := fld b 800 4
def eBBcast (b : Nat) : Bool := bitOf b 804
def eCBcast (b : Nat) : Bool := bitOf b 805
def eRows (b : Nat) : Nat := fld b 704 24
def eCols (b : Nat) : Nat := fld b 728 24
def eP0 (b : Nat) : Nat := fld b 808 32
def eP1 (b : Nat) : Nat := fld b 840 32
def eRstream (b : Nat) : Nat := fld b 872 32
def eOutRows (b : Nat) : Nat := fld b 904 24
def eARow (b : Nat) : Nat := fld b 448 48
def eBRow (b : Nat) : Nat := fld b 512 48
def eCRow (b : Nat) : Nat := fld b 576 48
def eOutRow (b : Nat) : Nat := fld b 640 48

/-- Which operands an operation uses (Table 7-9). -/
def eUsesB (op : Nat) : Bool := decide (1 ≤ op) && decide (op ≤ 8)
def eUsesC (op : Nat) : Bool := op == 4

/-- Micro-operations of an operation (Table 7-9). -/
def eOps (op : Nat) : Nat := [0, 1, 1, 1, 1, 1, 1, 8, 2].getD op 0

/-- v of Table 7-9. -/
def eltOp (op p0 p1 : Nat) (u p q : FV) : FV :=
  match op with
  | 1 => fadd u p
  | 2 => fsub u p
  | 3 => fmul u p
  | 4 => ffma u p q
  | 5 => fmax u p
  | 6 => fmin u p
  | 7 => fdiv u p
  | 8 => ffma (f32 p0) u (fmul (f32 p1) p)
  | _ => u

/-- Rows of out. -/
def eOutCount (b : Nat) : Nat := if eForm b = 1 then eOutRows b else eRows b

/-- Scale bytes of a row, rows packed. -/
def eScales (b : Nat) : Nat := ceilDiv (eCols b) 32

/-- Tiles of 64 rows × 128 columns (R189, R190): destination tiles for a repeatable scatter-add. -/
def eTiles (b : Nat) (repeatable : Bool) : Nat :=
  ceilDiv (if eForm b = 1 && repeatable then eOutRows b else eRows b) 64 * ceilDiv (eCols b) 128

/-- The read extents and their address fields. -/
def eReadFields (b : Nat) : List (Nat × Nat) :=
  [(0, extent (eRows b) (eARow b) (rowBytes (fmtOf (eFmtA b)) (eCols b)))]
    ++ (if eUsesB (eOp b) then
          [(64, extent (if eBBcast b then 1 else eRows b) (eBRow b) (rowBytes (fmtOf (eFmtB b)) (eCols b)))] else [])
    ++ (if eUsesC (eOp b) then
          [(128, extent (if eCBcast b then 1 else eRows b) (eCRow b) (rowBytes (fmtOf (eFmtC b)) (eCols b)))] else [])
    ++ (if eForm b = 1 then [(192, extent (eOutRows b) (eOutRow b) (4 * eCols b)), (256, 4 * eRows b)] else [])
    ++ (if isMx (fmtOf (eFmtA b)) then [(320, eRows b * eScales b)] else [])

/-- What the command reads before it computes: the operands, the scales of a and the indices. -/
def eReads (b : Nat) : List (Nat × Nat) :=
  rowReads (fld b 0 48) (eARow b) (eRows b) (rowBytes (fmtOf (eFmtA b)) (eCols b))
    ++ (if eUsesB (eOp b) then
          rowReads (fld b 64 48) (eBRow b) (if eBBcast b then 1 else eRows b) (rowBytes (fmtOf (eFmtB b)) (eCols b)) else [])
    ++ (if eUsesC (eOp b) then
          rowReads (fld b 128 48) (eCRow b) (if eCBcast b then 1 else eRows b) (rowBytes (fmtOf (eFmtC b)) (eCols b)) else [])
    ++ (if eForm b = 1 then [(fld b 256 48, 4 * eRows b)] else [])
    ++ (if isMx (fmtOf (eFmtA b)) then [(fld b 320 48, eRows b * eScales b)] else [])

/-- Output spans. -/
def eOuts (b : Nat) : List (Nat × Nat) :=
  rowSpans (fld b 192 48) (eOutRow b) (eOutCount b) (rowBytes (fmtOf (eFmtOut b)) (eCols b))
    ++ (if isMx (fmtOf (eFmtOut b)) then [(fld b 384 48, eRows b * eScales b)] else [])

/-- Check 8 on the body (Table 7-8). -/
def eReserved (b : Nat) : List (Bool × Fail) :=
  let noB := !eUsesB (eOp b)
  let noC := !eUsesC (eOp b)
  let map := eForm b != 1
  reservedBody b [(48, 16)] ++ zeroWhen b noB [(64, 48)] ++ reservedBody b [(112, 16)] ++ zeroWhen b noC [(128, 48)]
    ++ reservedBody b [(176, 16), (240, 16)] ++ zeroWhen b map [(256, 48)] ++ reservedBody b [(304, 16)]
    ++ zeroWhen b (!isMx (fmtOf (eFmtA b))) [(320, 48)] ++ reservedBody b [(368, 16)]
    ++ zeroWhen b (!isMx (fmtOf (eFmtOut b))) [(384, 48)] ++ reservedBody b [(432, 16), (496, 16)]
    ++ zeroWhen b (noB || eBBcast b) [(512, 48)] ++ reservedBody b [(560, 16)] ++ zeroWhen b (noC || eCBcast b) [(576, 48)]
    ++ reservedBody b [(624, 16), (688, 16), (759, 1), (767, 1)] ++ zeroWhen b noB [(760, 8)] ++ reservedBody b [(775, 1)]
    ++ zeroWhen b noC [(768, 8)] ++ reservedBody b [(783, 1)] ++ zeroWhen b noB [(804, 1)] ++ zeroWhen b noC [(805, 1)]
    ++ reservedBody b [(806, 2)] ++ zeroWhen b map [(904, 24)] ++ reservedBody b [(928, 96)]

/-- The estimate of Table 7-10 in ACLK: a tile's elements at P passes, whole tiles spread over the harrows (R409). -/
def eEstimate (s : State) (b : Nat) (zg40 repeatable : Bool) (harrows : Nat) : Nat :=
  let P := passes (eOps (eOp b) + fnOps s zg40 (eFunc b))
  let tile :=
    if eForm b = 1 && repeatable then
      ceilDiv (eRows b) 64 + ceilDiv (eRows b) (max 1 (ceilDiv (eOutRows b) 64)) * P
    else ceilDiv (min 64 (eRows b) * min 128 (eCols b) * P) 128
  busiest (eTiles b repeatable) harrows * tile

/-- Checks of ELTWISE in the order of Table 3-4. -/
def checksEltwise (s : State) (Q : Queue) (c : Cmd) : List (Bool × Fail) :=
  let p := Q.cfg.part
  let P := partOf s p
  let b := c.body
  let grant := grantFurrows s p
  let scatter := eForm b == 1
  let B := eUsesB (eOp b)
  let C := eUsesC (eOp b)
  let bad (c : Bool) (lo : Nat) : Bool × Fail := (c, atBit .loadBadShape lo)
  let align (c : Bool) (lo : Nat) : Bool × Fail := (c, atBit .loadAlign lo)
  eReserved b ++ streamCheck s P c.hdr false ++ seedCheck P c.hdr (fmtDraws (eFmtOut b))
    ++ [(!fmtLegalIn (eFmtA b), atBit .loadBadFormat 752),
        (B && (!fmtLegalIn (eFmtB b) || isMx (fmtOf (eFmtB b))), atBit .loadBadFormat 760),
        (C && (!fmtLegalIn (eFmtC b) || isMx (fmtOf (eFmtC b))), atBit .loadBadFormat 768),
        (!fmtLegalOut (eFmtOut b) || (scatter && fmtOf (eFmtOut b) != .fp32), atBit .loadBadFormat 776),
        (!fnLoaded s (eFunc b), atBit .loadUnitDisabled 784), takerCheck grant.length]
    ++ [bad (B && fld b 64 48 == 0) 64, bad (C && fld b 128 48 == 0) 128,
        bad (decide (1 < eOutCount b) && decide (eOutRow b < rowBytes (fmtOf (eFmtOut b)) (eCols b))) 640,
        bad (eRows b == 0) 704, bad (eCols b == 0 || !mxExtentOk (eFmtOut b) (eCols b)) 728, bad (reservedFn (eFunc b)) 784,
        bad (decide (8 < eOp b) || (eOp b == 8 && (eFunc b == 2 || eFunc b == 3))) 792, bad (decide (1 < eForm b)) 800,
        bad (!clampOk (eFunc b) (eP0 b) (eP1 b)) 808, bad (scatter && eOutRows b == 0) 904]
    ++ [alignCheck b 0 64, alignCheck b 64 64, alignCheck b 128 64, alignCheck b 192 64, alignCheck b 256 4,
        alignCheck b 320 32, alignCheck b 384 32, align (oddStride (eFmtA b) (eARow b)) 448,
        align (B && oddStride (eFmtB b) (eBRow b)) 512, align (C && oddStride (eFmtC b) (eCRow b)) 576,
        align (oddStride (eFmtOut b) (eOutRow b)) 640]
    ++ ((eReadFields b).map fun (lo, n) => readCheck s p b lo n)
    ++ [writeCheck s p b 192 (extent (eOutCount b) (eOutRow b) (rowBytes (fmtOf (eFmtOut b)) (eCols b)))]
    ++ (if isMx (fmtOf (eFmtOut b)) then [writeCheck s p b 384 (eRows b * eScales b)] else [])
    ++ [(decide (2147483648 < eTiles b P.cfg.repeatable), failNone .loadTileCount),
        beCheck s Q (aclkUs (eEstimate s b P.cfg.zg40 P.cfg.repeatable grant.length))]

/-! ### The map -/

/-- A row of operand b or c, or zeros where it is not used. -/
def eOperand (s : State) (p b : Nat) (used bcast : Bool) (addrBit stride fb i : Nat) : Except Fail (List FV) :=
  if used then loadRow s p (fmtOf fb) (fld b addrBit 48 + (if bcast then 0 else i * stride)) (eCols b)
  else .ok (List.replicate (eCols b) pzero)

/-- y of row `i` (R188). -/
def eRow (s : State) (p b i : Nat) : Except Fail (List FV) := do
  let z := (partOf s p).cfg.zg40
  let us ← loadValues s p (fmtOf (eFmtA b)) (fld b 0 48 + i * eARow b) (fld b 320 48 + i * eScales b) (eCols b)
  let ps ← eOperand s p b (eUsesB (eOp b)) (eBBcast b) 64 (eBRow b) (eFmtB b) i
  let qs ← eOperand s p b (eUsesC (eOp b)) (eCBcast b) 128 (eCRow b) (eFmtC b) i
  pure ((us.zip (ps.zip qs)).map fun (u, p, q) =>
    applyFn s z (eFunc b) (eP0 b) (eP1 b) (eltOp (eOp b) (eP0 b) (eP1 b) u p q))

/-- The rows of the map form. -/
def eMapRows (s : State) (p b : Nat) (seed : Option W128) : Except Fail (List OutRow) :=
  (List.range (eRows b)).mapM fun i => do
    let ys ← eRow s p b i
    pure (outRow (eFmtOut b) (fun j => laneOf seed (eRstream b) 0 i j) (fld b 192 48 + i * eOutRow b)
      (fld b 384 48 + i * eScales b) ys)

/-! ### Scatter-add (R190) -/

/-- The destination rows of the index tensor. -/
def eIndex (s : State) (p b : Nat) : Except Fail (List Int) := do
  let bs ← loadBytes s p (fld b 256 48) (4 * eRows b)
  pure ((chunksOf 4 (eRows b + 1) bs).map fun c => signed 32 (ofLe c))

/-- Whether an index names a destination row. -/
def eHits (b : Nat) (k : Int) : Bool := decide (0 ≤ k) && decide (k < (eOutRows b : Int))

/-- The contributions to one element in their order: ascending i in repeatable mode, else an order that the spec leaves
to arrival, drawn here from free words (log entry 2). DEDUCED, log entry 29. -/
def scatterOrder (repeatable : Bool) (free rows j : Nat) (src : List Nat) : List Nat :=
  if repeatable then src
  else (sortBy (src.map fun i => ((Config.freeWord (free + j * rows + i)).toNat, i)) fun a b => decide (a.1 ≤ b.1)).map (·.2)

/-- The destination rows with a contribution, in order. -/
def eDests (b : Nat) (idx : List Int) : List Nat := (List.range (eOutRows b)).filter fun (d : Nat) => idx.contains (d : Int)

/-- The lines of the destination that a scatter-add reads: those of the rows it adds to. -/
def eDestReads (s : State) (p b : Nat) : List (Nat × Nat) :=
  match eIndex s p b with
  | .error _ => []
  | .ok idx => (eDests b idx).map fun d => (fld b 192 48 + d * eOutRow b, 4 * eCols b)

/-- The rows that a scatter-add writes: every destination row with a contribution. -/
def eScatterRows (s : State) (p b free : Nat) : Except Fail (List OutRow) := do
  let idx ← eIndex s p b
  let ys ← (List.range (eRows b)).mapM fun i => eRow s p b i
  let rep := (partOf s p).cfg.repeatable
  (eDests b idx).mapM fun (d : Nat) => do
    let src : List Nat := (List.range (eRows b)).filter fun (i : Nat) => idx.getD i (-1) == (d : Int)
    let va := fld b 192 48 + d * eOutRow b
    let old ← loadRow s p .fp32 va (eCols b)
    let new := (List.range (eCols b)).map fun j =>
      (scatterOrder rep free (eRows b) j src).foldl (fun acc i => accStep acc ((ys.getD i []).getD j pzero)) (old.getD j pzero)
    pure (outRow (eFmtOut b) (fun _ => 0) va 0 new)

/-- Count the source rows whose index names no destination row. -/
def countDrops (s : State) (q p b : Nat) : State :=
  match eIndex s p b with
  | .error _ => s
  | .ok idx => setCounts s q fun n => { n with scatterDrop := satAdd 32 n.scatterDrop (idx.filter fun k => !eHits b k).length }

/-- ELTWISE once its operands are ready; it never reports a window stall (R191). -/
def computeEltwise (s : State) (q : Nat) : State :=
  let Q := queueOf s q
  let p := Q.cfg.part
  match Q.cmd with
  | none => s
  | some c =>
    let b := c.body
    let work := eTiles b (partOf s p).cfg.repeatable
    if eForm b = 1 then
      let (free, s1) := takeFree s (eRows b * eCols b)
      readMore (countDrops s1 q p b) q p (eDestReads s1 p b) fun s2 => writeRows s2 q p (eScatterRows s2 p b free) c.outs none work
    else writeRows s q p (eMapRows s p b c.seed) c.outs none work

/-- The start of a command whose work is `n` plain items of the harrows, no descriptor involved (R189, R203, R297). -/
def startRows (s0 : State) (q p n units : Nat) (outs reads : List (Nat × Nat)) (compute : State → State) : State :=
  let s1 := openWork (charge s0 p units 0) q (newWork s0 p (harrowGrid n))
  gated (setCmd s1 q fun x => { x with outs := outs, chargeLoam := units }) q p reads compute

/-- The start of ELTWISE after stage B. -/
def startEltwise (s : State) (q : Nat) (Q : Queue) (c : Cmd) : State :=
  let p := Q.cfg.part
  let b := c.body
  startRows s q p (eTiles b (partOf s p).cfg.repeatable) 0 (eOuts b) (eReads b) fun st => computeEltwise st q

/-- ELTWISE (R187 to R191). -/
def execEltwise (q : Nat) (s : State) : Host.Outcome State Fault Refusal :=
  .next (runCommand s q 0x130 checksEltwise (fun st Q c => startEltwise st q Q c))

end Sys2Proof.Machine
end

