-- ==== Sys2Proof/Machine/RowOps.lean ====
section
/-! DEFINITION. NORM_ROW and SOFTMAX_ROW (R192 to R204): checks of Table 8-5, the arithmetic of Table 8-1 and of R199. -/

namespace Sys2Proof.Machine

/-- Rows of statistics: two FP32 words, 8 bytes per row, packed (R203); they are no output elements for R59. -/
def statRow (va : Nat) (a b : FV) : OutRow :=
  { va := va, sva := 0, bytes := toLe 4 (bits32 a) ++ toLe 4 (bits32 b), scales := [], ev := .none }

/-- A finite FP32 field that is at least 0; -0 counts as 0. -/
def finiteNonNeg (w : Nat) : Bool :=
  let x := f32 w
  !isNan x && !isInf x && fle pzero x

/-- A finite FP32 field above 0. -/
def finitePos (w : Nat) : Bool := finiteNonNeg w && flt pzero (f32 w)

/-! ### NORM_ROW (Table 8-3) -/

def nFmtA (b : Nat) : Nat := fld b 512 8
def nFmtOut (b : Nat) : Nat := fld b 520 8
def nFmtG (b : Nat) : Nat := fld b 528 8
def nFmtB (b : Nat) : Nat := fld b 536 8
def nMode (b : Nat) : Nat := fld b 544 2
def nShift (b : Nat) : Bool := bitOf b 546
def nRows (b : Nat) : Nat := fld b 552 24
def nCols (b : Nat) : Nat := fld b 576 16
def nEps (b : Nat) : Nat := fld b 592 32
def nRstream (b : Nat) : Nat := fld b 624 32
def nARow (b : Nat) : Nat := fld b 384 48
def nOutRow (b : Nat) : Nat := fld b 448 48
def nStats (b : Nat) : Nat := fld b 192 48
def nGamma (b : Nat) : Nat := fld b 256 48
def nBeta (b : Nat) : Nat := fld b 320 48

/-- Formats of gamma and beta (Table 8-5 check 11). -/
def isGammaFmt (fb : Nat) : Bool := fmtLegalIn fb && (fmtOf fb == .fp32 || fmtOf fb == .bf16 || fmtOf fb == .fp16)

def nReadFields (b : Nat) : List (Nat × Nat) :=
  [(0, extent (nRows b) (nARow b) (rowBytes (fmtOf (nFmtA b)) (nCols b)))]
    ++ (if nGamma b = 0 then [] else [(256, rowBytes (fmtOf (nFmtG b)) (nCols b))])
    ++ (if nBeta b = 0 then [] else [(320, rowBytes (fmtOf (nFmtB b)) (nCols b))])

/-- What NORM_ROW reads. -/
def nReads (b : Nat) : List (Nat × Nat) :=
  rowReads (fld b 0 48) (nARow b) (nRows b) (rowBytes (fmtOf (nFmtA b)) (nCols b))
    ++ ((nReadFields b).drop 1).map fun (lo, n) => (fld b lo 48, n)

def nOuts (b : Nat) : List (Nat × Nat) :=
  rowSpans (fld b 64 48) (nOutRow b) (nRows b) (rowBytes (fmtOf (nFmtOut b)) (nCols b))
    ++ (if isMx (fmtOf (nFmtOut b)) then [(fld b 128 48, nRows b * ceilDiv (nCols b) 32)] else [])
    ++ (if nStats b = 0 then [] else [(nStats b, 8 * nRows b)])

/-- Checks of NORM_ROW in the order of Table 3-4. -/
def checksNormRow (s : State) (Q : Queue) (c : Cmd) : List (Bool × Fail) :=
  let p := Q.cfg.part
  let P := partOf s p
  let b := c.body
  let grant := grantFurrows s p
  let mxO := isMx (fmtOf (nFmtOut b))
  let outBytes := rowBytes (fmtOf (nFmtOut b)) (nCols b)
  let bad (c : Bool) (lo : Nat) : Bool × Fail := (c, atBit .loadBadShape lo)
  let cc := ceilDiv (nCols b) 128
  reservedBody b [(48, 16), (112, 16)] ++ zeroWhen b (!mxO) [(128, 48)]
    ++ reservedBody b [(176, 16), (240, 16), (304, 16), (368, 16), (432, 16), (496, 16), (519, 1), (527, 1), (535, 1)]
    ++ zeroWhen b (nGamma b == 0) [(528, 8)] ++ reservedBody b [(543, 1)] ++ zeroWhen b (nBeta b == 0) [(536, 8)]
    ++ reservedBody b [(547, 5), (656, 368)]
    ++ streamCheck s P c.hdr false ++ seedCheck P c.hdr (fmtDraws (nFmtOut b))
    ++ [(!fmtLegalIn (nFmtA b) || isMx (fmtOf (nFmtA b)), atBit .loadBadFormat 512),
        (!fmtLegalOut (nFmtOut b), atBit .loadBadFormat 520),
        (nGamma b != 0 && !isGammaFmt (nFmtG b), atBit .loadBadFormat 528),
        (nBeta b != 0 && !isGammaFmt (nFmtB b), atBit .loadBadFormat 536), takerCheck grant.length]
    ++ [bad (decide (1 < nRows b) && decide (nOutRow b < outBytes)) 448, bad (decide (2 ≤ nMode b)) 544,
        bad (nShift b && nMode b == 1) 546, bad (nRows b == 0) 552,
        bad (nCols b == 0 || decide (32768 < nCols b) || !mxExtentOk (nFmtOut b) (nCols b)) 576,
        bad (!finiteNonNeg (nEps b)) 592]
    ++ [alignCheck b 0 64, alignCheck b 64 64, alignCheck b 128 32, alignCheck b 192 8, alignCheck b 256 64,
        alignCheck b 320 64, (oddStride (nFmtA b) (nARow b), atBit .loadAlign 384),
        (oddStride (nFmtOut b) (nOutRow b), atBit .loadAlign 448)]
    ++ [readCheck s p b 0 (extent (nRows b) (nARow b) (rowBytes (fmtOf (nFmtA b)) (nCols b))),
        writeCheck s p b 64 (extent (nRows b) (nOutRow b) outBytes),
        writeCheck s p b 128 (if mxO then nRows b * ceilDiv (nCols b) 32 else 0),
        writeCheck s p b 192 (if nStats b = 0 then 0 else 8 * nRows b)]
    ++ (((nReadFields b).drop 1).map fun (lo, n) => readCheck s p b lo n)
    ++ [(decide (2147483648 < ceilDiv (nRows b) 8), failNone .loadTileCount),
        beCheck s Q (aclkUs (busiest (ceilDiv (nRows b) 8) grant.length * (min 8 (nRows b) * 2 * cc + 48)))]

/-- Table 8-1 on a row: whether the clamp raised a negative spread, the mean and r reported, and z of each element. -/
def normRow (s : State) (z : Bool) (mode : Nat) (shift : Bool) (eps : FV) (xs : List FV) : Bool × FV × FV × List FV :=
  let rn := recipNat xs.length
  let x0 := xs.headD pzero
  let us := if mode = 0 && shift then xs.map fun x => fsub x x0 else xs
  if mode = 0 then
    let mu := fmul (rowSum us) rn
    let q := fmul (rowSumSq us) rn
    let raw := ffma (fneg mu) mu q
    let r := fRsqrt s z (fadd (fmax raw pzero) eps)
    (flt raw pzero, if shift then fadd x0 mu else mu, r, us.map fun u => fmul (fsub u mu) r)
  else
    let v := fmul (rowSumSq us) rn
    let r := fRsqrt s z (fadd v eps)
    (false, v, r, xs.map fun x => fmul x r)

/-- A row of gamma or beta, or its default where the address is 0. -/
def nVector (s : State) (p addr fb n : Nat) (dflt : FV) : Except Fail (List FV) :=
  if addr = 0 then .ok (List.replicate n dflt) else loadRow s p (fmtOf fb) addr n

/-- The rows of NORM_ROW and the number of clamped rows. -/
def nOutRows (s : State) (p b : Nat) (seed : Option W128) : Except Fail (List OutRow × Nat) := do
  let z := (partOf s p).cfg.zg40
  let gs ← nVector s p (nGamma b) (nFmtG b) (nCols b) fone
  let bs ← nVector s p (nBeta b) (nFmtB b) (nCols b) pzero
  let rows ← (List.range (nRows b)).mapM fun i => do
    let xs ← loadRow s p (fmtOf (nFmtA b)) (fld b 0 48 + i * nARow b) (nCols b)
    let (clamped, mean, r, zs) := normRow s z (nMode b) (nShift b) (f32 (nEps b)) xs
    let ys := (zs.zip (gs.zip bs)).map fun (v, g, e) => ffma v g e
    let out := outRow (nFmtOut b) (fun j => laneOf seed (nRstream b) 0 i j) (fld b 64 48 + i * nOutRow b)
      (fld b 128 48 + i * ceilDiv (nCols b) 32) ys
    pure (clamped, out :: (if nStats b = 0 then [] else [statRow (nStats b + 8 * i) mean r]))
  pure (rows.flatMap (·.2), (rows.filter (·.1)).length)

/-- NORM_ROW once its operands are ready (R195, R196). -/
def computeNormRow (s : State) (q : Nat) : State :=
  let Q := queueOf s q
  let p := Q.cfg.part
  match Q.cmd with
  | none => s
  | some c => match nOutRows s p c.body c.seed with
    | .error f => endEarly s q p f c.outs 0
    | .ok (rows, clamps) =>
      writeRows (setCounts s q fun n => { n with normClamp := satAdd 32 n.normClamp clamps }) q p (.ok rows) c.outs none
        (ceilDiv (nRows c.body) 8)

def startNormRow (s : State) (q : Nat) (Q : Queue) (c : Cmd) : State :=
  startRows s q Q.cfg.part (ceilDiv (nRows c.body) 8) 0 (nOuts c.body) (nReads c.body) fun st => computeNormRow st q

/-- NORM_ROW (R195 to R198, R203, R204). -/
def execNormRow (q : Nat) (s : State) : Host.Outcome State Fault Refusal :=
  .next (runCommand s q 0x131 checksNormRow (fun st Q c => startNormRow st q Q c))

/-! ### SOFTMAX_ROW (Table 8-4) -/

def xFmtA (b : Nat) : Nat := fld b 448 8
def xFmtOut (b : Nat) : Nat := fld b 456 8
def xLog (b : Nat) : Bool := bitOf b 464
def xRows (b : Nat) : Nat := fld b 472 24
def xCols (b : Nat) : Nat := fld b 496 16
def xScale (b : Nat) : Nat := fld b 512 32
def xRstream (b : Nat) : Nat := fld b 544 32
def xARow (b : Nat) : Nat := fld b 320 48
def xOutRow (b : Nat) : Nat := fld b 384 48
def xStats (b : Nat) : Nat := fld b 192 48
def xLen (b : Nat) : Nat := fld b 256 48

/-- The lengths that SOFTMAX_ROW reads first. -/
def xLenReads (b : Nat) : List (Nat × Nat) := if xLen b = 0 then [] else [(xLen b, 4 * xRows b)]

def xOuts (b : Nat) : List (Nat × Nat) :=
  rowSpans (fld b 64 48) (xOutRow b) (xRows b) (rowBytes (fmtOf (xFmtOut b)) (xCols b))
    ++ (if isMx (fmtOf (xFmtOut b)) then [(fld b 128 48, xRows b * ceilDiv (xCols b) 32)] else [])
    ++ (if xStats b = 0 then [] else [(xStats b, 8 * xRows b)])

/-- Checks of SOFTMAX_ROW in the order of Table 3-4. -/
def checksSoftmaxRow (s : State) (Q : Queue) (c : Cmd) : List (Bool × Fail) :=
  let p := Q.cfg.part
  let P := partOf s p
  let b := c.body
  let grant := grantFurrows s p
  let mxO := isMx (fmtOf (xFmtOut b))
  let outBytes := rowBytes (fmtOf (xFmtOut b)) (xCols b)
  let bad (c : Bool) (lo : Nat) : Bool × Fail := (c, atBit .loadBadShape lo)
  let cc := ceilDiv (xCols b) 128
  reservedBody b [(48, 16), (112, 16)] ++ zeroWhen b (!mxO) [(128, 48)]
    ++ reservedBody b [(176, 16), (240, 16), (304, 16), (368, 16), (432, 16), (455, 1), (463, 1), (465, 7), (576, 448)]
    ++ streamCheck s P c.hdr false ++ seedCheck P c.hdr (fmtDraws (xFmtOut b))
    ++ [(!fmtLegalIn (xFmtA b) || isMx (fmtOf (xFmtA b)), atBit .loadBadFormat 448),
        (!fmtLegalOut (xFmtOut b), atBit .loadBadFormat 456), takerCheck grant.length]
    ++ [bad (decide (1 < xRows b) && decide (xOutRow b < outBytes)) 384, bad (xRows b == 0) 472,
        bad (xCols b == 0 || decide (32768 < xCols b) || !mxExtentOk (xFmtOut b) (xCols b)) 496, bad (!finitePos (xScale b)) 512]
    ++ [alignCheck b 0 64, alignCheck b 64 64, alignCheck b 128 32, alignCheck b 192 8, alignCheck b 256 4,
        (oddStride (xFmtA b) (xARow b), atBit .loadAlign 320), (oddStride (xFmtOut b) (xOutRow b), atBit .loadAlign 384)]
    ++ [readCheck s p b 0 (extent (xRows b) (xARow b) (rowBytes (fmtOf (xFmtA b)) (xCols b))),
        writeCheck s p b 64 (extent (xRows b) (xOutRow b) outBytes),
        writeCheck s p b 128 (if mxO then xRows b * ceilDiv (xCols b) 32 else 0),
        writeCheck s p b 192 (if xStats b = 0 then 0 else 8 * xRows b),
        readCheck s p b 256 (if xLen b = 0 then 0 else 4 * xRows b)]
    ++ [(decide (2147483648 < ceilDiv (xRows b) 8), failNone .loadTileCount),
        beCheck s Q (aclkUs (busiest (ceilDiv (xRows b) 8) grant.length
          * (min 8 (xRows b) * (if xLog b then 4 else 5) * cc + 48)))]

/-- R199 on the columns below a row's length, of a row of `cols`: m, s and the outputs. -/
def softmaxRow (s : State) (z : Bool) (log : Bool) (scale : FV) (cols : Nat) (xs : List FV) : FV × FV × List FV :=
  let fill := if log then ninf else pzero
  let x1 := xs.map fun x => fmul x scale
  let m := rowMax x1
  if m = ninf then (m, pzero, List.replicate cols fill)
  else
    let e := x1.map fun x => fExp s z (fsub x m)
    let sum := rowSum e
    let ys := if log then
        let l := fLog s z sum
        x1.map fun x => fsub (fsub x m) l
      else
        let r := fRecip s sum
        e.map fun v => fmul v r
    (m, sum, ys ++ List.replicate (cols - xs.length) fill)

/-- R200: a row's length. -/
def rowLength (s : State) (p addr cols i : Nat) : Except Fail Nat :=
  if addr = 0 then .ok cols
  else match loadNat s p (addr + 4 * i) 4 with
    | .error f => .error f
    | .ok w => .ok (min cols (signed 32 w).toNat)

/-- The columns that SOFTMAX_ROW reads: of each row those below its length, and none where a length cannot be read (R200). -/
def xRowReads (s : State) (p b : Nat) : List (Nat × Nat) :=
  if xLen b = 0 then rowReads (fld b 0 48) (xARow b) (xRows b) (rowBytes (fmtOf (xFmtA b)) (xCols b))
  else match (List.range (xRows b)).mapM (rowLength s p (xLen b) (xCols b)) with
    | .error _ => []
    | .ok ns => ((List.range (xRows b)).zip ns).filterMap fun (i, n) =>
        if n = 0 then none else some (fld b 0 48 + i * xARow b, rowBytes (fmtOf (xFmtA b)) n)

/-- The rows of SOFTMAX_ROW. -/
def xOutRows (s : State) (p b : Nat) (seed : Option W128) : Except Fail (List OutRow) := do
  let z := (partOf s p).cfg.zg40
  let rows ← (List.range (xRows b)).mapM fun i => do
    let n ← rowLength s p (xLen b) (xCols b) i
    let xs ← loadRow s p (fmtOf (xFmtA b)) (fld b 0 48 + i * xARow b) n
    let (m, sum, ys) := softmaxRow s z (xLog b) (f32 (xScale b)) (xCols b) xs
    let out := outRow (xFmtOut b) (fun j => laneOf seed (xRstream b) 0 i j) (fld b 64 48 + i * xOutRow b)
      (fld b 128 48 + i * ceilDiv (xCols b) 32) ys
    pure (out :: (if xStats b = 0 then [] else [statRow (xStats b + 8 * i) m sum]))
  pure rows.flatten

/-- SOFTMAX_ROW once its operands are ready. -/
def computeSoftmaxRow (s : State) (q : Nat) : State :=
  let Q := queueOf s q
  let p := Q.cfg.part
  match Q.cmd with
  | none => s
  | some c =>
    writeRows s q p (xOutRows s p c.body c.seed) c.outs none (ceilDiv (xRows c.body) 8)

/-- SOFTMAX_ROW once its lengths are readable: it waits for the columns below them, unless it has done so. -/
def softmaxReads (s : State) (q : Nat) : State :=
  let Q := queueOf s q
  match Q.cmd with
  | none => s
  | some c =>
    if c.reads = xLenReads c.body then gated s q Q.cfg.part (xRowReads s Q.cfg.part c.body) fun st => computeSoftmaxRow st q
    else computeSoftmaxRow s q

def startSoftmaxRow (s : State) (q : Nat) (Q : Queue) (c : Cmd) : State :=
  startRows s q Q.cfg.part (ceilDiv (xRows c.body) 8) 0 (xOuts c.body) (xLenReads c.body) fun st => softmaxReads st q

/-- SOFTMAX_ROW (R199 to R204). -/
def execSoftmaxRow (q : Nat) (s : State) : Host.Outcome State Fault Refusal :=
  .next (runCommand s q 0x132 checksSoftmaxRow (fun st Q c => startSoftmaxRow st q Q c))

end Sys2Proof.Machine
end

