-- ==== Sys2Proof/Machine/Sample.lean ====
section
/-! DEFINITION. SAMPLE (R293 to R300) and SEED_SET (R282 to R285). -/

namespace Sys2Proof.Machine

/-! ### The body of SAMPLE (Table 12-4) -/

def spFmtX (b : Nat) : Nat := fld b 512 8
def spFmtOut (b : Nat) : Nat := fld b 520 8
def spMode (b : Nat) : Nat := fld b 528 2
def spTopK (b : Nat) : Nat := fld b 536 9
def spInvTemp (b : Nat) : Nat := fld b 552 32
def spTopP (b : Nat) : Nat := fld b 584 32
def spDrop (b : Nat) : Nat := fld b 616 32
def spKeep (b : Nat) : Nat := fld b 648 32
def spDstream (b : Nat) : Nat := fld b 680 32
def spRstream (b : Nat) : Nat := fld b 712 32
def spTstep (b : Nat) : Nat := fld b 744 32
def spRows (b : Nat) : Nat := fld b 776 24
def spCols (b : Nat) : Nat := fld b 800 21
def spXRow (b : Nat) : Nat := fld b 384 48
def spOutRow (b : Nat) : Nat := fld b 448 48
def spProb (b : Nat) : Nat := fld b 128 48
def spParam (b : Nat) : Nat := fld b 192 48
def spLen (b : Nat) : Nat := fld b 256 48
def spId (b : Nat) : Nat := fld b 320 48

/-- An FP32 probability in (0, 1]. -/
def isTopP (w : Nat) : Bool := flt pzero (f32 w) && fle (f32 w) fone

/-- An FP32 probability in [0, 1). -/
def isDrop (w : Nat) : Bool := fle pzero (f32 w) && flt (f32 w) fone

def spOutBytes (b : Nat) : Nat := rowBytes (fmtOf (spFmtOut b)) (spCols b)

/-- Work items (R297). -/
def spItems (b : Nat) : Nat :=
  if spMode b = 1 then ceilDiv (spRows b) 64 * ceilDiv (spCols b) 128 else ceilDiv (spRows b) 8

/-- Per-row arrays of mode 0 that are read: address field and length. -/
def spArrays (b : Nat) : List (Nat × Nat) :=
  [(192, if spParam b = 0 then 0 else 16 * spRows b), (256, if spLen b = 0 then 0 else 4 * spRows b),
   (320, if spId b = 0 then 0 else 4 * spRows b)]

def spOuts (b : Nat) : List (Nat × Nat) :=
  if spMode b = 1 then rowSpans (fld b 64 48) (spOutRow b) (spRows b) (spOutBytes b)
  else (fld b 64 48, 4 * spRows b) :: (if spProb b = 0 then [] else [(spProb b, 4 * spRows b)])

/-- Check 8 on the body: reserved fields, fields of the other mode, and the body's parameters beside param_addr (R298). -/
def spReserved (b : Nat) : List (Bool × Fail) :=
  let m0 := spMode b == 0
  let m1 := spMode b == 1
  let rec_ := spParam b != 0
  reservedBody b [(48, 16), (112, 16)] ++ zeroWhen b m1 [(128, 48)] ++ reservedBody b [(176, 16)] ++ zeroWhen b m1 [(192, 48)]
    ++ reservedBody b [(240, 16)] ++ zeroWhen b m1 [(256, 48)] ++ reservedBody b [(304, 16)] ++ zeroWhen b m1 [(320, 48)]
    ++ reservedBody b [(368, 16), (432, 16)] ++ zeroWhen b m0 [(448, 48)] ++ reservedBody b [(496, 16), (519, 1), (527, 1)]
    ++ zeroWhen b m0 [(520, 8)] ++ reservedBody b [(530, 6)] ++ zeroWhen b (m1 || rec_) [(536, 9)] ++ reservedBody b [(545, 7)]
    ++ zeroWhen b (m1 || rec_) [(552, 32), (584, 32)] ++ zeroWhen b m0 [(616, 32), (648, 32), (712, 32)]
    ++ reservedBody b [(821, 203)]

/-- Whether SAMPLE draws (Table 12-5 check 10). -/
def spDraws (b : Nat) : Bool := !(spMode b == 0 && isZero (f32 (spInvTemp b)) && spParam b == 0)

/-- The estimate of Table 12-3 in ACLK, whole items spread over the harrows (R409). -/
def spEstimate (b harrows : Nat) : Nat :=
  if spMode b = 1 then busiest (spItems b) harrows * ceilDiv (min 64 (spRows b) * min 128 (spCols b)) 128
  else
    let k := if spParam b = 0 then spTopK b else 256
    busiest (spItems b) harrows * (min 8 (spRows b) * 3 * ceilDiv (spCols b) 128 + k + 24)

/-- Checks of SAMPLE in the order of Table 3-4. -/
def checksSample (s : State) (Q : Queue) (c : Cmd) : List (Bool × Fail) :=
  let p := Q.cfg.part
  let P := partOf s p
  let b := c.body
  let grant := grantFurrows s p
  let m0 := spMode b == 0
  let m1 := spMode b == 1
  let body := m0 && spParam b == 0
  let X := fmtOf (spFmtX b)
  let bad (c : Bool) (lo : Nat) : Bool × Fail := (c, atBit .loadBadShape lo)
  spReserved b ++ streamCheck s P c.hdr false ++ seedCheck P c.hdr (spDraws b)
    ++ [(!fmtLegalIn (spFmtX b) || X == .int8 || isMx X, atBit .loadBadFormat 512),
        (m1 && (!fmtLegalOut (spFmtOut b) || isMx (fmtOf (spFmtOut b))), atBit .loadBadFormat 520), takerCheck grant.length]
    ++ [bad (m1 && decide (1 < spRows b) && decide (spOutRow b < spOutBytes b)) 448, bad (decide (2 ≤ spMode b)) 528,
        bad (body && (spTopK b == 0 || decide (256 < spTopK b))) 536, bad (body && !finiteNonNeg (spInvTemp b)) 552,
        bad (body && !isTopP (spTopP b)) 584, bad (m1 && !isDrop (spDrop b)) 616,
        bad (m1 && (isNan (f32 (spKeep b)) || isInf (f32 (spKeep b)))) 648,
        bad (m1 && fmtDraws (spFmtOut b) && spRstream b == spDstream b) 712, bad (spRows b == 0) 776,
        bad (spCols b == 0 || decide (1048576 < spCols b)) 800]
    ++ [alignCheck b 0 64, alignCheck b 64 (if m1 then 64 else 4), alignCheck b 128 4, alignCheck b 192 16, alignCheck b 256 4,
        alignCheck b 320 4, (oddStride (spFmtX b) (spXRow b), atBit .loadAlign 384),
        (m1 && oddStride (spFmtOut b) (spOutRow b), atBit .loadAlign 448)]
    ++ [readCheck s p b 0 (extent (spRows b) (spXRow b) (rowBytes X (spCols b))),
        writeCheck s p b 64 (if m1 then extent (spRows b) (spOutRow b) (spOutBytes b) else 4 * spRows b),
        writeCheck s p b 128 (if spProb b = 0 then 0 else 4 * spRows b)]
    ++ ((spArrays b).map fun (lo, n) => readCheck s p b lo n)
    ++ [(decide (2147483648 < spItems b), failNone .loadTileCount), beCheck s Q (aclkUs (spEstimate b grant.length))]

/-! ### Mode 0 -/

/-- A row's parameters: inv_t, k and pt, or none for a bad record (R294, R295). -/
def spParams (s : State) (p b i : Nat) : Except Fail (Option (Nat × Nat × Nat)) :=
  if spParam b = 0 then .ok (some (spInvTemp b, spTopK b, spTopP b))
  else match loadNat s p (spParam b + 16 * i) 16 with
    | .error f => .error f
    | .ok r =>
      let inv := fld r 0 32
      let k := fld r 32 32
      let pt := fld r 64 32
      .ok (if finiteNonNeg inv && decide (1 ≤ k) && decide (k ≤ 256) && isTopP pt && fld r 96 32 == 0 then some (inv, k, pt) else none)

/-- A row's identifier: its row index, or its entry when bits [31:20] are 0. -/
def spIdent (s : State) (p b i : Nat) : Except Fail (Option Nat) :=
  if spId b = 0 then .ok (some i)
  else match loadNat s p (spId b + 4 * i) 4 with
    | .error f => .error f
    | .ok w => .ok (if w < 2 ^ 20 then some w else none)

/-- The cumulative values of step 4. -/
def cumulative : FV → List FV → List FV
  | _, [] => []
  | acc, e :: es => let c := fadd acc e; c :: cumulative c es

/-- Step 3: columns in descending order of z, equal values by lower column, the first k of them. -/
def topK (k : Nat) (zs : List FV) : List Nat :=
  (sortBy ((List.range zs.length).zip zs) fun a b => !flt a.2 b.2).map (·.1) |>.take k

/-- Steps 3 to 5 (R293): the token's column for tempered values, exponentials, their sum and the uniform value. -/
def pickToken (greedy : Bool) (k : Nat) (pt : FV) (zs es : List FV) (sum u : FV) : Nat :=
  let cand := topK k zs
  let first := cand.headD 0
  if greedy then first
  else
    let e (j : Nat) : FV := es.getD j pzero
    let cs := match cand with
      | [] => []
      | j :: rest => e j :: cumulative (e j) (rest.map e)
    let n := if feq pt fone then cs.length
      else
        let thr := fmul pt sum
        match cs.findIdx? (fun c => fle thr c) with
        | some i => i + 1
        | none => cs.length
    let t := fmul u (cs.getD (n - 1) pzero)
    match (cs.take n).findIdx? (fun c => flt t c) with
    | some i => cand.getD i first
    | none => cand.getD (n - 1) first

/-- What a row of mode 0 writes: its token and probability, and whether it is a row of R294 with a bad record. -/
structure Draw where
  token : Nat
  prob : FV
  nan : Bool
  bad : Bool
  deriving DecidableEq, Repr

def noToken (nan bad : Bool) : Draw :=
  { token := 0xFFFFFFFF, prob := if nan then .nan else pzero, nan := nan, bad := bad }

/-- R293 and R294 on a row of logits. -/
def drawRow (s : State) (z : Bool) (seed : Option W128) (dstream tstep : Nat) (params : Option (Nat × Nat × Nat))
    (ident : Option Nat) (xs : List FV) : Draw :=
  match params, ident with
  | some (inv, k, pt), some ident =>
    let greedy := isZero (f32 inv)
    let zs := if greedy then xs else xs.map fun x => fmul x (f32 inv)
    let m := rowMax zs
    if m = ninf then noToken false false
    else if isNan m || isInf m then noToken true false
    else
      let es := zs.map fun v => fExp s z (fsub v m)
      let sum := rowSum es
      let u := uniform (laneOf seed dstream ident tstep 0)
      let t := pickToken greedy k (f32 pt) zs es sum u
      { token := t, prob := fmul (es.getD t pzero) (fRecip s sum), nan := false, bad := false }
  | _, _ => noToken true true

/-- The draws of every row. -/
def spDrawsOf (s : State) (p b : Nat) (seed : Option W128) : Except Fail (List Draw) :=
  (List.range (spRows b)).mapM fun i => do
    let n ← rowLength s p (spLen b) (spCols b) i
    let params ← spParams s p b i
    let ident ← spIdent s p b i
    let xs ← loadRow s p (fmtOf (spFmtX b)) (fld b 0 48 + i * spXRow b) n
    pure (drawRow s (partOf s p).cfg.zg40 seed (spDstream b) (spTstep b) params ident xs)

/-- The written words of mode 0: tokens and probabilities; the rows of R294 count as NaN outputs (R300). -/
def spTokenRows (b : Nat) (ds : List Draw) : List OutRow :=
  ((List.range ds.length).zip ds).flatMap fun (i, d) =>
    let (pw, ev) := narrow .fp32 .nearest false d.prob
    let tok : OutRow := { va := fld b 64 48 + 4 * i, sva := 0, bytes := toLe 4 d.token, scales := [], ev := if d.nan then .nan else .none }
    tok :: (if spProb b = 0 then [] else
      [{ va := spProb b + 4 * i, sva := 0, bytes := toLe 4 pw, scales := [], ev := ev }])

/-! ### Mode 1 -/

/-- R296: the rows of dropout. -/
def spDropRows (s : State) (p b : Nat) (seed : Option W128) : Except Fail (List OutRow) :=
  (List.range (spRows b)).mapM fun i => do
    let xs ← loadRow s p (fmtOf (spFmtX b)) (fld b 0 48 + i * spXRow b) (spCols b)
    let ys := ((List.range xs.length).zip xs).map fun (j, x) =>
      if fle (f32 (spDrop b)) (uniform (laneOf seed (spDstream b) (spTstep b) i j)) then fmul x (f32 (spKeep b)) else pzero
    pure (outRow (spFmtOut b) (fun j => laneOf seed (spRstream b) (spTstep b) i j) (fld b 64 48 + i * spOutRow b) 0 ys)

/-- Put details into a result that has been left (R294). -/
def setDetails (s : State) (q a b : Nat) : State :=
  setQueue s q fun Q => { Q with result := Q.result.map fun r => if isError r.status then r else { r with a := a, b := b } }

/-- SAMPLE once its operands are ready. -/
def computeSample (s : State) (q : Nat) : State :=
  let Q := queueOf s q
  let p := Q.cfg.part
  match Q.cmd with
  | none => s
  | some c =>
    let b := c.body
    if spMode b = 1 then writeRows s q p (spDropRows s p b c.seed) c.outs none (spItems b)
    else match spDrawsOf s p b c.seed with
      | .error f => endEarly s q p f c.outs 0
      | .ok ds =>
        setDetails (writeRows s q p (.ok (spTokenRows b ds)) c.outs none (spItems b)) q
          (ds.filter fun d => d.token == 0xFFFFFFFF).length (ds.filter (·.bad)).length

def startSample (s : State) (q : Nat) (Q : Queue) (c : Cmd) : State :=
  let b := c.body
  startRows s q Q.cfg.part (spItems b) 0 (spOuts b)
    ((fld b 0 48, extent (spRows b) (spXRow b) (rowBytes (fmtOf (spFmtX b)) (spCols b))) ::
      (spArrays b).map fun (lo, n) => (fld b lo 48, n)) fun st => computeSample st q

/-- SAMPLE (R293 to R300). -/
def execSample (q : Nat) (s : State) : Host.Outcome State Fault Refusal :=
  .next (runCommand s q 0x140 checksSample (fun st Q c => startSample st q Q c))

/-! ### SEED_SET -/

/-- Checks of SEED_SET (R285). -/
def checksSeedSet (s : State) (Q : Queue) (c : Cmd) : List (Bool × Fail) :=
  reservedBody c.body [(137, 375)] ++ streamCheck s (partOf s Q.cfg.part) c.hdr false
    ++ [(bitOf c.body 136 && fld c.body 0 128 != 0, atBit .loadBadShape 0)]

/-- The slot change, which takes effect at the commit (R284). -/
def commitSeedSet (s : State) (p : Nat) (c : Cmd) : State :=
  let slot := fld c.body 128 8
  let seed := BitVec.ofNat 128 (fld c.body 0 128)
  if bitOf c.body 136 then setPart s p fun P => { P with seeds := eraseKey slot P.seeds }
  else setPart s p fun P => { P with seeds := insertKey slot seed P.seeds }

/-- SEED_SET (R282 to R285): it executes with nothing to do before its commit. -/
def execSeedSet (q : Nat) (s : State) : Host.Outcome State Fault Refusal :=
  .next (runCommand s q 0x141 checksSeedSet (fun st _ _ => setResult st q ⟨.completed, 0, 0, 0⟩))

end Sys2Proof.Machine
end

