-- ==== Sys2Proof/Machine/Recurrent.lean ====
section
/-! DEFINITION. RECUR_CELL and SCAN_LINEAR (R213 to R228): checks of Table 9-6, gate forms (Table 7-7), the chunked and
the windowed recurrence. -/

namespace Sys2Proof.Machine

/-! ### RECUR_CELL (Table 9-3) -/

def rFmtX (b : Nat) : Nat := fld b 640 8
def rFmtW (b : Nat) : Nat := fld b 648 8
def rForm (b : Nat) : Nat := fld b 656 2
def rStat (b : Nat) : Nat := fld b 658 2
def rSlot (b : Nat) : Nat := fld b 664 6
def rInDim (b : Nat) : Nat := fld b 672 16
def rCount (b : Nat) : Nat := fld b 688 24
def rRstream (b : Nat) : Nat := fld b 720 32
def rTstep (b : Nat) : Nat := fld b 752 32
def rList (b : Nat) : Nat := fld b 320 48
def rBias (b : Nat) : Nat := fld b 256 48
def rXRow (b : Nat) : Nat := fld b 384 48
def rHRow (b : Nat) : Nat := fld b 448 48
def rOutRow (b : Nat) : Nat := fld b 512 48
def rWCol (b : Nat) : Nat := fld b 576 48

/-- Gates of a form (R213). -/
def rGates (b : Nat) : Nat := if rForm b = 3 then 2 else 4

/-- Micro-operations of a gate form (Table 7-7): its own, and those of its functions, which compatibility mode replaces (R184). -/
def rOps (zg40 : Bool) (form : Nat) : Nat :=
  let sg := if zg40 then 10 else 9
  let th := if zg40 then 12 else 9
  [0, 3 * sg + 2 * th + 3, 2 * sg + th + 3, sg + 2].getD form 0

def rPasses (zg40 : Bool) (b : Nat) : Nat := passes (rOps zg40 (rForm b))

/-- The streams a command names: its list, or the header's stream. -/
def namedStreams (s : State) (p hdr body lo n : Nat) : Except Fail (Option (List Nat)) :=
  if fld body lo 48 = 0 then .ok (some [hStreamId hdr]) else readList s p body lo n

/-- Record `slot` of a RESIDENT stream of the partition. -/
def residentRecord (s : State) (p id slot : Nat) : Option (Stream × Record) :=
  match streamOf s id with
  | some st => if st.part = p ∧ st.st = .resident then
      (match (recordsOf s st)[slot]? with | some r => some (st, r) | none => none) else none
  | none => none

/-- Check 9 of Table 9-6 for commands on resident state: STREAM set, the header's stream first, every stream RESIDENT
with a record in the slot. DEDUCED, log entries 31 and 46. -/
def residentChecks (s : State) (p hdr lo slot : Nat) (listed : Bool) (ids : List Nat) : List (Bool × Fail) :=
  [(!hStream hdr, failAt .loadBadStream 4 0), (ids.head? != some (hStreamId hdr), failAt .loadBadStream 28 0)]
    ++ perEntry ids fun i id => (!inRange (partOf s p) id || (residentRecord s p id slot).isNone,
        if listed then inStruct .loadBadStream lo (4 * i) else failAt .loadBadStream 28 0)

/-- The record of the first named stream. -/
def firstRecord (s : State) (p slot : Nat) (ids : List Nat) : Option Record :=
  match ids with
  | id :: _ => (residentRecord s p id slot).map (·.2)
  | [] => none

/-- R216: the groups of a slot, as (granule index, engine, cohorts): up to four cohorts in ascending number whose granule
of that index lies in one engine. -/
def recurGroups (s : State) (slot : Nat) (cohorts : List Nat) : List (Nat × Nat × List Nat) :=
  let cs := (sortBy cohorts fun a b => decide (a ≤ b)).eraseDups
  let lists := cs.map fun c => (c, match cohortOf s c with | some co => co.granules.getD slot [] | none => [])
  let depth := lists.foldl (fun m x => max m x.2.length) 0
  (List.range depth).flatMap fun i =>
    let here := lists.filterMap fun (c, gs) => (gs[i]?).map fun g => (c, g / 64)
    let engines := (here.map (·.2)).eraseDups
    let groups := engines.flatMap fun e =>
      (piecesOf 4 (here.length + 1) ((here.filter (·.2 == e)).map (·.1))).map fun g => (i, e, g)
    sortBy groups fun a b => decide (a.2.2.headD 0 ≤ b.2.2.headD 0)

/-- Slots of an engine that hold no state (R106). -/
def stateFreeSlots (s : State) (e : Nat) : Nat := ((engineOf s e).slots.filter fun sl => sl.st != .state).length

def cohortsOf (s : State) (ids : List Nat) : List Nat := ids.filterMap fun id => (streamOf s id).map (·.cohort)

/-- Tiles of one RECUR_CELL item: L = G × E / 64 (R216). -/
def rLive (b : Nat) (r : Record) : Nat := rGates b * (recE r / 64)

/-- Steps of k that a gate takes (R213). -/
def gateSteps (form gate inDim n : Nat) : Nat :=
  if form = 2 && gate = 2 then inDim else if form = 2 && gate = 3 then n else inDim + n

/-- Busy cycles of the busiest engine of RECUR_CELL: each runs the groups whose granules it holds, a tile of 16 rows per cohort for
each gate and block of 64 elements (R102, R103, R216). -/
def recurCycles (b perDrain : Nat) (r : Record) (groups : List (Nat × Nat × List Nat)) : Nat :=
  let A := fmtOf (rFmtX b)
  let B := fmtOf (rFmtW b)
  let busy (e : Nat) : Nat :=
    let both := groups.any fun g => g.2.1 != e && g.2.1 / 2 == e / 2
    ((groups.filter (·.2.1 == e)).map fun (_, _, cs) =>
      let m := 16 * cs.length
      ((List.range (rGates b)).map fun g =>
        recE r / 64 * tileTime (tileCycles (rStat b) m 64 (gateSteps (rForm b) g (rInDim b) r.n) A B) (m * 64) perDrain both).foldl (· + ·) 0).foldl (· + ·) 0
  busyExtra (rStat b) A B + (groups.map fun g => busy g.2.1).foldl max 0

/-- Extents that RECUR_CELL reads, by address field, for element count `n`. -/
def rReadFields (b n : Nat) : List (Nat × Nat) :=
  let k := rInDim b + n
  [(0, extent (rCount b) (rXRow b) (rowBytes (fmtOf (rFmtX b)) (rInDim b))),
   (64, extent (rCount b) (rHRow b) (rowBytes (fmtOf (rFmtX b)) n)),
   (192, extent (rGates b * n) (rWCol b) (rowBytes (fmtOf (rFmtW b)) k))]
    ++ (if rBias b = 0 then [] else [(256, 4 * rGates b * n)])

/-- Checks of RECUR_CELL in the order of Table 3-4. -/
def checksRecurCell (s : State) (Q : Queue) (c : Cmd) : List (Bool × Fail) :=
  let p := Q.cfg.part
  let P := partOf s p
  let b := c.body
  let rd := namedStreams s p c.hdr b 320 (rCount b)
  let ids := match rd with | .ok (some xs) => xs | _ => []
  let known : Bool := match rd with | .ok (some _) => true | _ => false
  let listed := rList b != 0
  let fr := firstRecord s p (rSlot b) ids
  let X := fmtOf (rFmtX b)
  let bad (c : Bool) (lo : Nat) : Bool × Fail := (c, atBit .loadBadShape lo)
  let onRec (f : Record → List (Bool × Fail)) : List (Bool × Fail) := match fr with | some r => f r | none => []
  let recs := ids.filterMap fun id => (residentRecord s p id (rSlot b)).map (·.2)
  let groups := recurGroups s (rSlot b) (cohortsOf s ids)
  reservedBody b [(48, 16), (112, 16), (176, 16), (240, 16), (304, 16), (368, 16), (432, 16), (496, 16), (560, 16), (624, 16),
      (647, 1), (655, 1), (660, 4), (670, 2), (712, 8), (784, 752)]
    ++ [readFailed rd] ++ (if listed then listReserved 320 ids else [])
    ++ (if known then residentChecks s p c.hdr 320 (rSlot b) listed ids else streamCheck s P c.hdr true)
    ++ seedCheck P c.hdr (recs.any fun r => fmtDraws r.fmt)
    ++ [(!fmtLegalIn (rFmtX b) || recs.any (fun r => recFmt r != X), atBit .loadBadFormat 640),
        (!fmtLegalIn (rFmtW b), atBit .loadBadFormat 648), (!legalPair X (fmtOf (rFmtW b)), failNone .loadBadFormat),
        takerCheck (grantEngines s p).length]
    ++ [bad (fld b 0 48 == 0) 0, bad (fld b 64 48 == 0) 64, bad (fld b 128 48 == 0) 128, bad (fld b 192 48 == 0) 192]
    ++ (if listed then listTwice 320 ids else [])
    ++ onRec (fun r =>
      [(recs.any (fun x => x.n != r.n), failNone .loadBadShape),
       bad (decide (1 < rCount b) && decide (rXRow b < rowBytes X (rInDim b))) 384,
       bad (decide (1 < rCount b) && decide (rHRow b < rowBytes X r.n)) 448,
       bad (decide (1 < rCount b) && decide (rOutRow b < rowBytes (recFmt r) r.n)) 512,
       bad (decide (rWCol b < rowBytes (fmtOf (rFmtW b)) (rInDim b + r.n))) 576])
    ++ [bad (rForm b == 0) 656, bad (rStat b == 3) 658, bad (rInDim b == 0) 672,
        bad (rCount b == 0 || decide (1048576 < rCount b) || (!listed && rCount b != 1)) 688]
    ++ [alignCheck b 0 64, alignCheck b 64 64, alignCheck b 128 64, alignCheck b 192 64, alignCheck b 256 64, alignCheck b 320 4,
        (oddStride (rFmtX b) (rXRow b), atBit .loadAlign 384), (oddStride (rFmtX b) (rHRow b), atBit .loadAlign 448),
        (oddStride (rFmtX b) (rOutRow b), atBit .loadAlign 512), (oddStride (rFmtW b) (rWCol b), atBit .loadAlign 576)]
    ++ (if listed then [readCheck s p b 320 (4 * rCount b)] else [])
    ++ onRec (fun r =>
      ((rReadFields b r.n).map fun (lo, n) => readCheck s p b lo n)
        ++ [writeCheck s p b 128 (extent (rCount b) (rOutRow b) (rowBytes (recFmt r) r.n)),
            (decide (2147483648 < groups.length), failNone .loadTileCount),
            (groups.any fun g => decide (stateFreeSlots s g.2.1 < rLive b r), failAt .loadAccCapacity 0xFFFFFFFF (rLive b r)),
            beCheck s Q (aclkUs (recurCycles b (rPasses P.cfg.zg40 b) r groups))])

/-- The gate forms of Table 7-7: the new state and the output value. -/
def gateForm (s : State) (z : Bool) (form : Nat) (g : List FV) (x : FV) : FV × FV :=
  let a (i : Nat) : FV := g.getD i pzero
  let sg := fSigmoid s z
  let th := fTanh s z
  if form = 1 then
    let t := fmul (sg (a 0)) (th (a 2))
    let c := ffma (sg (a 1)) x t
    (c, fmul (sg (a 3)) (th c))
  else if form = 2 then
    let n := th (ffma (sg (a 0)) (a 3) (a 2))
    let h := ffma (sg (a 1)) (fsub x n) n
    (h, h)
  else
    let h := ffma (sg (a 0)) (fsub x (a 1)) (a 1)
    (h, h)

/-- Which steps a gate takes (R213): for GRU, xn only those of x and hn only those of h. -/
def gateTakes (form gate k inDim : Nat) : Bool :=
  if form = 2 && gate = 2 then decide (k < inDim) else if form = 2 && gate = 3 then decide (inDim ≤ k) else true

/-- A pre-activation element (R213). -/
def preAct (form gate inDim : Nat) (init : FV) (a w : List FV) : FV :=
  accumulate init (((List.range a.length).zip (List.zipWith exactMul a w)).map fun (k, p) =>
    if gateTakes form gate k inDim then some p else none)

/-- The weight columns. -/
def rWeights (s : State) (p b n : Nat) : Except Fail (List (List FV)) :=
  (List.range (rGates b * n)).mapM fun c => loadRow s p (fmtOf (rFmtW b)) (fld b 192 48 + c * rWCol b) (rInDim b + n)

/-- The bias words, +0 where there are none. -/
def rBiases (s : State) (p b n : Nat) : Except Fail (List FV) :=
  if rBias b = 0 then .ok (List.replicate (rGates b * n) pzero) else loadRow s p .fp32 (rBias b) (rGates b * n)

/-- What one list entry writes: its stream, its record's new fields, its out row and the event. -/
structure Advance where
  id : Nat
  rec_ : Record
  fields : List Nat
  out : List Nat
  ev : NumEvent
  deriving DecidableEq, Repr

/-- One entry of the list (R213 to R215). -/
def recurEntry (s : State) (p b : Nat) (seed : Option W128) (ws : List (List FV)) (bias : List FV) (r id : Nat) :
    Except Fail (Option Advance) :=
  match residentRecord s p id (rSlot b) with
  | none => .ok none
  | some (st, rc) => do
    let X := fmtOf (rFmtX b)
    let xs ← loadRow s p X (fld b 0 48 + r * rXRow b) (rInDim b)
    let hs ← loadRow s p X (fld b 64 48 + r * rHRow b) rc.n
    let old := (readState s st (rSlot b) rc).map (fieldValue rc)
    let z := (partOf s p).cfg.zg40
    let lane (u j : Nat) := laneOf seed (rRstream b) (id + u * 2 ^ 20) (rTstep b) j
    let cells := (List.range rc.n).map fun j =>
      let gates := (List.range (rGates b)).map fun g =>
        preAct (rForm b) g (rInDim b) (bias.getD (g * rc.n + j) pzero) (xs ++ hs) (ws.getD (g * rc.n + j) [])
      let (h, o) := gateForm s z (rForm b) gates (old.getD j pzero)
      let (f, ev) := narrowField rc (rmodeOf rc.fmt fun _ => lane 0 j) h
      let (ob, oev) := if rForm b = 1 then narrow (recFmt rc) (rmodeOf rc.fmt fun _ => lane 1 j) (fmtByte rc.fmt).sat o
        else (fieldState rc f, ev)
      (f, ob, worse ev oev)
    pure (some { id := id, rec_ := rc, fields := cells.map (·.1), out := cells.map (·.2.1),
                 ev := (cells.map (·.2.2)).foldl worse .none })

/-- The out rows of the entries. -/
def recurRows (b : Nat) (adv : List (Nat × Advance)) : List OutRow :=
  adv.map fun (r, a) => { va := fld b 128 48 + r * rOutRow b, sva := 0, bytes := packRow (recFmt a.rec_) a.out, scales := [], ev := a.ev }

/-- Write the new states of the entries and mark their streams dirty (R247). -/
def recurStates (s : State) (p slot : Nat) (adv : List Advance) : State :=
  markDirty (adv.foldl (fun x a => match streamOf x a.id with
    | some st => writeState x st slot a.rec_ a.fields
    | none => x) s) p (adv.map (·.id))

/-- R208: the lowest stream that a command on resident state names whose record is gone. -/
def lostStream (s : State) (p slot : Nat) (ids : List Nat) : Option Nat :=
  (ids.filter fun id => (residentRecord s p id slot).isNone).foldl
    (fun m id => match m with | none => some id | some x => some (min x id)) none

/-- RECUR_CELL once its operands are ready; lost state ends it (R208). -/
def computeRecurCell (s : State) (q : Nat) : State :=
  let Q := queueOf s q
  let p := Q.cfg.part
  match Q.cmd with
  | none => s
  | some c =>
    let b := c.body
    match lostStream s p (rSlot b) c.streams, firstRecord s p (rSlot b) c.streams with
    | some id, _ => endEarly s q p (failAt .faultUnrecovered id 0) c.outs 0
    | none, none => s
    | none, some rc =>
      let adv : Except Fail (List (Nat × Advance)) := do
        let ws ← rWeights s p b rc.n
        let bias ← rBiases s p b rc.n
        let xs ← ((List.range c.streams.length).zip c.streams).mapM fun (r, id) => do
          let a ← recurEntry s p b c.seed ws bias r id
          pure (r, a)
        pure (xs.filterMap fun (r, a) => a.map fun v => (r, v))
      match adv with
      | .error f => endEarly s q p f c.outs 0
      | .ok adv =>
        let work := (recurGroups s (rSlot b) (cohortsOf s c.streams)).length * rLive b rc
        match storeAll s p q (outWrites (recurRows b adv)) with
        | .error f => endEarly s q p f c.outs 0
        | .ok s1 => setResult (recurStates s1 p (rSlot b) (adv.map (·.2))) q
            (completedResult (outEvent (recurRows b adv)) (weightStall s p c (fld b 192 48)) none work)

/-- The grid of RECUR_CELL: L tiles per item, block by block with the gates of a block together, of 16 rows per cohort; an item is
bound to the engine that holds the granules (R186, R216). DESIGN CHOICE, log entry 171. -/
def recurGrid (cohorts : List Nat) (live gates perDrain : Nat) : Grid :=
  let n := cohorts.length
  { items := n, tiles := n * live, tm := n, tn := live, gm := 1, gn := live, byColumn := false, chunks := 1, passes := 1,
    lastPasses := 1, m := 64 * n, n := 64 * live, mt := 64, nt := 64, itemRows := cohorts.map (16 * ·), harrowPasses := perDrain,
    gates := gates, slots := live, live := live, spill := 0, spare := 0, harrowOnly := false, overlap := false, split := false,
    holds := false, haloWidth := 0, halo := [], scan := 0 }

/-- What RECUR_CELL reads. -/
def rReads (b n : Nat) : List (Nat × Nat) :=
  rowReads (fld b 0 48) (rXRow b) (rCount b) (rowBytes (fmtOf (rFmtX b)) (rInDim b))
    ++ rowReads (fld b 64 48) (rHRow b) (rCount b) (rowBytes (fmtOf (rFmtX b)) n)
    ++ rowReads (fld b 192 48) (rWCol b) (rGates b * n) (rowBytes (fmtOf (rFmtW b)) (rInDim b + n))
    ++ (if rBias b = 0 then [] else [(rBias b, 4 * rGates b * n)])

/-- The start of RECUR_CELL after stage B. -/
def startRecurCell (s : State) (q : Nat) (Q : Queue) (c : Cmd) : State :=
  let p := Q.cfg.part
  let b := c.body
  match namedStreams s p c.hdr b 320 (rCount b) with
  | .ok (some ids) => match firstRecord s p (rSlot b) ids with
    | none => s
    | some rc =>
      let groups := recurGroups s (rSlot b) (cohortsOf s ids)
      let w := newWork s p (recurGrid (groups.map (·.2.2.length)) (rLive b rc) (rGates b) (rPasses (partOf s p).cfg.zg40 b))
      let s1 := openWork s q { w with bound := (List.range groups.length).zip groups |>.map fun (i, g) => (g.2.1, i) }
      let outs := rowSpans (fld b 128 48) (rOutRow b) (rCount b) (rowBytes (recFmt rc) rc.n)
      gated (setCmd s1 q fun x => { x with outs := outs, streams := ids }) q p
        (rReads b rc.n) fun st => computeRecurCell st q
  | _ => s

/-- Whether a command on resident state waits in CHECK (R207, R234). -/
def recurWaits (s : State) (q : Nat) (lo n : Nat) : Bool :=
  let Q := queueOf s q
  match Q.cmd with
  | none => false
  | some c => match namedStreams s Q.cfg.part c.hdr c.body lo n with
    | .ok (some ids) => namedElsewhere s q ids || anyTransit s ids
    | _ => false

/-- RECUR_CELL (R213 to R217, R227, R228): it waits in CHECK while another executing command or a transit holds a stream. -/
def execRecurCell (q : Nat) (s : State) : Host.Outcome State Fault Refusal :=
  let body := match (queueOf s q).cmd with | some c => c.body | none => 0
  if recurWaits s q 320 (rCount body) then .next s
  else .next (runCommand s q 0x111 checksRecurCell (fun st Q c => startRecurCell st q Q c))

/-! ### SCAN_LINEAR (Table 9-5) -/

def lFmtA (b : Nat) : Nat := fld b 1024 8
def lFmtB (b : Nat) : Nat := fld b 1032 8
def lFmtY (b : Nat) : Nat := fld b 1040 8
def lFmtH (b : Nat) : Nat := fld b 1048 8
def lChans (b : Nat) : Nat := let n := fld b 1056 16; if n = 0 then 65536 else n
def lSteps (b : Nat) : Nat := fld b 1072 24
def lSeqs (b : Nat) : Nat := fld b 1096 24
def lChunk (b : Nat) : Nat := fld b 1120 13
def lWindow (b : Nat) : Nat := fld b 1136 13
def lDir (b : Nat) : Nat := fld b 1152 2
def lInit (b : Nat) : Nat := fld b 1154 2
def lWriteBack (b : Nat) : Bool := bitOf b 1156
def lSlot (b : Nat) : Nat := fld b 1158 6
def lRingLog (b : Nat) : Nat := fld b 1164 4
def lPos (b : Nat) : Nat := fld b 1168 32
def lRstream (b : Nat) : Nat := fld b 1200 32
def lTbase (b : Nat) : Nat := fld b 1232 32
def lReset (b : Nat) : Nat := fld b 320 48
def lHT (b : Nat) : Nat := fld b 256 48
def lList (b : Nat) : Nat := fld b 384 48
def lHSeq (b : Nat) : Nat := fld b 448 48
def lAStep (b : Nat) : Nat := fld b 512 48
def lASeq (b : Nat) : Nat := fld b 576 48
def lBStep (b : Nat) : Nat := fld b 640 48
def lBSeq (b : Nat) : Nat := fld b 704 48
def lYStep (b : Nat) : Nat := fld b 768 48
def lYSeq (b : Nat) : Nat := fld b 832 48
def lResetSeq (b : Nat) : Nat := fld b 896 48

/-- Whether the command works on resident state (R222). -/
def lResident (b : Nat) : Bool := lInit b == 2 || lWriteBack b

/-- Whether h0 is read and whether hT is written. -/
def lH0Used (b : Nat) : Bool := lInit b == 1
def lHTUsed (b : Nat) : Bool := lHT b != 0 && !lWriteBack b && lDir b != 2

/-- Steps that a and b hold, and bits of a bitmap. DEDUCED, log entry 156. -/
def lInputs (b : Nat) : Nat := if lDir b = 2 then 2 ^ lRingLog b else lSteps b

/-- Whether each (sequence, block) runs as one sequential item (R224). DEDUCED, log entry 30. -/
def lSequential (b : Nat) : Bool := lDir b == 2 || decide (lChunk b ≤ 1) || decide (lSteps b ≤ lChunk b)

def lChunks (b : Nat) : Nat := if lSequential b then 1 else ceilDiv (lSteps b) (max 1 (lChunk b))
def lBlocks (b : Nat) : Nat := ceilDiv (lChans b) 128

/-- Work items of the counter. DEDUCED, log entry 32. -/
def lItems (b : Nat) : Nat := lSeqs b * lBlocks b * lChunks b

/-- Loam units of the chunk summaries. -/
def lUnits (b : Nat) : Nat := if lSequential b then 0 else ceilDiv (lItems b * 1024) 4096

/-- The extent of a tensor of sequences and steps. -/
def lExtent (b seq step count bytes : Nat) : Nat := (lSeqs b - 1) * seq + (count - 1) * step + bytes

def lReadFields (b : Nat) : List (Nat × Nat) :=
  [(0, lExtent b (lASeq b) (lAStep b) (lInputs b) (rowBytes (fmtOf (lFmtA b)) (lChans b))),
   (64, lExtent b (lBSeq b) (lBStep b) (lInputs b) (rowBytes (fmtOf (lFmtB b)) (lChans b)))]
    ++ (if lH0Used b then [(192, extent (lSeqs b) (lHSeq b) (rowBytes (fmtOf (lFmtH b)) (lChans b)))] else [])
    ++ (if lReset b = 0 then [] else [(320, extent (lSeqs b) (lResetSeq b) (ceilDiv (lInputs b) 8))])

/-- What a tensor of sequences and steps is read of. -/
def lSpans (b va seq step count bytes : Nat) : List (Nat × Nat) :=
  (List.range (lSeqs b)).flatMap fun i => rowReads (va + i * seq) step count bytes

/-- What SCAN_LINEAR reads: of the inputs those that a sequence's positions need (R221), the initial states and the marks. -/
def lReads (b : Nat) : List (Nat × Nat) :=
  let A := rowBytes (fmtOf (lFmtA b)) (lChans b)
  let B := rowBytes (fmtOf (lFmtB b)) (lChans b)
  let bits := if lReset b = 0 then [] else rowReads (lReset b) (lResetSeq b) (lSeqs b) (ceilDiv (lInputs b) 8)
  (if lDir b = 2 then
      let first := lPos b + 1 - lWindow b - lSteps b
      let ring (va seq step bytes lo n : Nat) : List (Nat × Nat) := (List.range (lSeqs b)).flatMap fun i =>
        (rangeFrom lo n).map fun p => (va + i * seq + p % 2 ^ lRingLog b * step, bytes)
      if lPos b < lWindow b then [] else
        ring (fld b 0 48) (lASeq b) (lAStep b) A first (lPos b - first) ++ ring (fld b 64 48) (lBSeq b) (lBStep b) B first (lPos b + 1 - first)
    else lSpans b (fld b 0 48) (lASeq b) (lAStep b) (lSteps b) A ++ lSpans b (fld b 64 48) (lBSeq b) (lBStep b) (lSteps b) B)
    ++ (if lH0Used b then rowReads (fld b 192 48) (lHSeq b) (lSeqs b) (rowBytes (fmtOf (lFmtH b)) (lChans b)) else []) ++ bits

def lOuts (b : Nat) : List (Nat × Nat) :=
  ((List.range (lSeqs b)).flatMap fun s => rowSpans (fld b 128 48 + s * lYSeq b) (lYStep b) (lSteps b)
      (rowBytes (fmtOf (lFmtY b)) (lChans b)))
    ++ (if lHTUsed b then rowSpans (lHT b) (lHSeq b) (lSeqs b) (rowBytes (fmtOf (lFmtH b)) (lChans b)) else [])

/-- Check 8 on the body (Table 9-5). -/
def lReserved (b : Nat) : List (Bool × Fail) :=
  let d2 := lDir b == 2
  let noH := !lH0Used b && !lHTUsed b
  reservedBody b [(48, 16), (112, 16), (176, 16)] ++ zeroWhen b (!lH0Used b) [(192, 48)] ++ reservedBody b [(240, 16)]
    ++ zeroWhen b (lWriteBack b || d2) [(256, 48)] ++ reservedBody b [(304, 16), (368, 16), (432, 16)]
    ++ zeroWhen b noH [(448, 48)]
    ++ reservedBody b [(496, 16), (560, 16), (624, 16), (688, 16), (752, 16), (816, 16), (880, 16)]
    ++ zeroWhen b (lReset b == 0) [(896, 48)] ++ reservedBody b [(944, 80), (1031, 1), (1039, 1), (1047, 1), (1055, 1)]
    ++ zeroWhen b noH [(1048, 8)] ++ zeroWhen b d2 [(1120, 13)] ++ reservedBody b [(1133, 3)] ++ zeroWhen b (!d2) [(1136, 13)]
    ++ reservedBody b [(1149, 3), (1157, 1)] ++ zeroWhen b (!lResident b) [(1158, 6)] ++ zeroWhen b (!d2) [(1164, 4), (1168, 32)]
    ++ reservedBody b [(1264, 272)]

/-- The estimate of R224 in ACLK: four items interleave on a harrow, one step every 4 ACLK; phase 2 takes a chunk summary
in 16 HCLK and 4 ACLK, for every (sequence, block), which the furrows share out. -/
def lEstimate (b harrows : Nat) : Nat :=
  let rounds (items : Nat) : Nat := ceilDiv items (4 * max 1 harrows)
  if lSequential b then
    rounds (lSeqs b * lBlocks b) * 4 * (if lDir b = 2 then lSteps b * (lWindow b + 1) else lSteps b)
  else 2 * rounds (lItems b) * 4 * lChunk b + busiest (lSeqs b * lBlocks b) harrows * lChunks b * 25

/-- Check 9 of Table 9-6 for SCAN_LINEAR on plain sequences: STREAM clear, listed identifiers in range. -/
def plainChecks (P : Partition) (hdr : Nat) (ids : List Nat) : List (Bool × Fail) :=
  (hStream hdr, failAt .loadBadStream 4 0) :: perEntry ids fun i id => (!inRange P id, inStruct .loadBadStream 384 (4 * i))

/-- Checks of SCAN_LINEAR in the order of Table 3-4. -/
def checksScanLinear (s : State) (Q : Queue) (c : Cmd) : List (Bool × Fail) :=
  let p := Q.cfg.part
  let P := partOf s p
  let b := c.body
  let listed := lList b != 0
  let rd := if listed then readList s p b 384 (lSeqs b) else .ok (some [])
  let known : Bool := match rd with | .ok (some _) => true | _ => false
  let listIds := match rd with | .ok (some xs) => xs | _ => []
  let ids := if listed then listIds else if lResident b then [hStreamId c.hdr] else []
  let recs := if lResident b then ids.filterMap fun id => (residentRecord s p id (lSlot b)).map (·.2) else []
  let grant := grantFurrows s p
  let d2 := lDir b == 2
  let useH := lH0Used b || lHTUsed b
  let H := fmtOf (lFmtH b)
  let n := lChans b
  let rowA := rowBytes (fmtOf (lFmtA b)) n
  let rowB := rowBytes (fmtOf (lFmtB b)) n
  let rowY := rowBytes (fmtOf (lFmtY b)) n
  let scalar (fb : Nat) : Bool := fmtOf fb != .int8 && !isMx (fmtOf fb)
  let many := decide (1 < lSeqs b)
  let bad (c : Bool) (lo : Nat) : Bool × Fail := (c, atBit .loadBadShape lo)
  lReserved b ++ [readFailed rd] ++ listReserved 384 listIds
    ++ (if lResident b then (if known then residentChecks s p c.hdr 384 (lSlot b) listed ids else streamCheck s P c.hdr true)
        else plainChecks P c.hdr listIds)
    ++ seedCheck P c.hdr (fmtDraws (lFmtY b) || (lHTUsed b && fmtDraws (lFmtH b))
        || (lWriteBack b && recs.any fun r => fmtDraws r.fmt))
    ++ [(!fmtLegalIn (lFmtA b) || !scalar (lFmtA b), atBit .loadBadFormat 1024),
        (!fmtLegalIn (lFmtB b) || !scalar (lFmtB b), atBit .loadBadFormat 1032),
        (!fmtLegalOut (lFmtY b) || !scalar (lFmtY b), atBit .loadBadFormat 1040),
        (useH && ((if lHTUsed b then !fmtLegalOut (lFmtH b) else !fmtLegalIn (lFmtH b))
          || !(H == .fp32 || H == .bf16 || H == .fp16)), atBit .loadBadFormat 1048), takerCheck grant.length]
    ++ [bad (fld b 0 48 == 0) 0, bad (fld b 64 48 == 0) 64, bad (fld b 128 48 == 0) 128, bad (lH0Used b && fld b 192 48 == 0) 192,
        bad (lResident b && (!listed || lDir b != 0 || lFmtH b != 0)) 384]
    ++ listTwice 384 listIds
    ++ [bad (many && useH && decide (lHSeq b < rowBytes H n)) 448,
        bad (decide (1 < lInputs b) && decide (lAStep b < rowA)) 512, bad (many && decide (lASeq b < rowA)) 576,
        bad (decide (1 < lInputs b) && decide (lBStep b < rowB)) 640, bad (many && decide (lBSeq b < rowB)) 704,
        bad (decide (1 < lSteps b) && decide (lYStep b < rowY)) 768, bad (many && decide (lYSeq b < rowY)) 832,
        bad (many && lReset b != 0 && decide (lResetSeq b < ceilDiv (lInputs b) 8)) 896,
        bad (recs.any fun r => r.n != n) 1056, bad (lSteps b == 0) 1072,
        bad (lSeqs b == 0 || decide (1048576 < lSeqs b)) 1096, bad (!d2 && (lChunk b == 0 || decide (4096 < lChunk b))) 1120,
        bad (d2 && (lWindow b == 0 || decide (4096 < lWindow b) || decide (2 ^ lRingLog b < lWindow b + lSteps b))) 1136,
        bad (lDir b == 3) 1152, bad (lInit b == 3 || (d2 && (lInit b != 0 || lWriteBack b))) 1154,
        bad (d2 && (lRingLog b == 0 || decide (13 < lRingLog b))) 1164]
    ++ [alignCheck b 0 64, alignCheck b 64 64, alignCheck b 128 64, alignCheck b 192 64, alignCheck b 256 64, alignCheck b 384 4,
        (useH && oddStride (lFmtH b) (lHSeq b), atBit .loadAlign 448), (oddStride (lFmtA b) (lAStep b), atBit .loadAlign 512),
        (oddStride (lFmtA b) (lASeq b), atBit .loadAlign 576), (oddStride (lFmtB b) (lBStep b), atBit .loadAlign 640),
        (oddStride (lFmtB b) (lBSeq b), atBit .loadAlign 704), (oddStride (lFmtY b) (lYStep b), atBit .loadAlign 768),
        (oddStride (lFmtY b) (lYSeq b), atBit .loadAlign 832)]
    ++ ((lReadFields b).map fun (lo, k) => readCheck s p b lo k)
    ++ [writeCheck s p b 128 (lExtent b (lYSeq b) (lYStep b) (lSteps b) rowY),
        writeCheck s p b 256 (if lHTUsed b then extent (lSeqs b) (lHSeq b) (rowBytes H n) else 0),
        readCheck s p b 384 (if listed then 4 * lSeqs b else 0),
        (decide (2147483648 < lItems b), failNone .loadTileCount), loamCheck P (lUnits b),
        beCheck s Q (aclkUs (lEstimate b grant.length))]

/-- Element-wise fma on rows (R218). -/
def vfma (a h b : List FV) : List FV := List.zipWith (fun x yz => ffma x yz.1 yz.2) a (h.zip b)

/-- One step's inputs in processing order: its row a, its row b, and whether a mark closes the segment there. -/
structure ScanStep where
  t : Nat
  a : List FV
  b : List FV
  mark : Bool
  deriving DecidableEq, Repr

/-- The sequential recurrence of R218: the row of every step, and the final one. -/
def scanSequential (h : List FV) : List ScanStep → List (Nat × List FV) × List FV
  | [] => ([], h)
  | st :: rest =>
    let h1 := if st.mark then st.b else vfma st.a h st.b
    let (out, last) := scanSequential h1 rest
    ((st.t, h1) :: out, last)

/-- A step after phase 1 (R219): l, p and closed. -/
structure ScanLocal where
  t : Nat
  l : List FV
  p : List FV
  closed : Bool
  deriving DecidableEq, Repr

/-- Phase 1 of R219 after a chunk's first step. -/
def scanLocalFrom (l p : List FV) (closed : Bool) : List ScanStep → List ScanLocal
  | [] => []
  | st :: rest =>
    if st.mark then ⟨st.t, st.b, st.a, true⟩ :: scanLocalFrom st.b st.a true rest
    else
      let l1 := vfma st.a l st.b
      let p1 := if closed then p else List.zipWith fmul st.a p
      ⟨st.t, l1, p1, closed⟩ :: scanLocalFrom l1 p1 closed rest

/-- Phase 1 of R219 on a chunk, its first step setting l, p and closed. -/
def scanLocal : List ScanStep → List ScanLocal
  | [] => []
  | st :: rest => ⟨st.t, st.b, st.a, st.mark⟩ :: scanLocalFrom st.b st.a st.mark rest

/-- Phases 2 and 3 of R219 over the chunks in their order. -/
def scanChunks (carry : List FV) : List (List ScanStep) → List (Nat × List FV) × List FV
  | [] => ([], carry)
  | ch :: rest =>
    let loc := scanLocal ch
    let rows := loc.map fun x => (x.t, if x.closed then x.l else vfma x.p carry x.l)
    let next := match loc.getLast? with
      | some x => if x.closed then x.l else vfma x.p carry x.l
      | none => carry
    let (out, last) := scanChunks next rest
    (rows ++ out, last)

/-- The mark bit of step `t` of a sequence (R218, R226). -/
def resetBit (s : State) (p b sq t : Nat) : Except Fail Bool :=
  if lReset b = 0 ∨ lInputs b ≤ t then .ok false
  else match loadByte s p (lReset b + sq * lResetSeq b + t / 8) with
    | .error f => .error f
    | .ok x => .ok (x.getLsbD (t % 8))

/-- Row `t` of a and b of a sequence. -/
def scanInputs (s : State) (p b sq t : Nat) : Except Fail (List FV × List FV) := do
  let a ← loadRow s p (fmtOf (lFmtA b)) (fld b 0 48 + sq * lASeq b + t * lAStep b) (lChans b)
  let v ← loadRow s p (fmtOf (lFmtB b)) (fld b 64 48 + sq * lBSeq b + t * lBStep b) (lChans b)
  pure (a, v)

/-- The chunks of a sequence in processing order (R219, R220): for dir 1 steps and chunks descend, and the mark that closes
a segment at step t is that of step t + 1. -/
def scanOrder (s : State) (p b sq : Nat) : Except Fail (List (List ScanStep)) := do
  let lc := if lSequential b then lSteps b else lChunk b
  let chunks := piecesOf lc (lSteps b + 1) (List.range (lSteps b))
  let ordered := if lDir b = 1 then (chunks.map List.reverse).reverse else chunks
  ordered.mapM fun ch => ch.mapM fun t => do
    let (a, v) ← scanInputs s p b sq t
    let m ← if lDir b = 1 then resetBit s p b sq (t + 1) else resetBit s p b sq t
    pure { t := t, a := a, b := v, mark := m }

/-- The windowed backward output at position `pos` (R221): `n` steps below `q`. -/
def scanWindow (s : State) (p b sq : Nat) (g : List FV) (q : Nat) : Nat → Except Fail (List FV)
  | 0 => .ok g
  | n + 1 => do
    let ring := 2 ^ lRingLog b
    let m ← resetBit s p b sq ((q + 1) % ring)
    let (a, v) ← scanInputs s p b sq (q % ring)
    scanWindow s p b sq (if m then v else vfma a g v) (q - 1) n

/-- Outputs of dir 2: (row, position, values); positions below 0 are not computed. -/
def scanWindowed (s : State) (p b sq : Nat) : Except Fail (List (Nat × Nat × List FV)) :=
  ((List.range (lSteps b)).filter fun i => decide (lWindow b + lSteps b ≤ lPos b + 1 + i)).mapM fun i => do
    let pos := lPos b + 1 + i - lWindow b - lSteps b
    let (_, g) ← scanInputs s p b sq ((pos + lWindow b) % 2 ^ lRingLog b)
    let v ← scanWindow s p b sq g (pos + lWindow b - 1) (lWindow b)
    pure (i, pos, v)

/-- The initial state of a sequence (R222). -/
def scanInit (s : State) (p b sq id : Nat) : Except Fail (List FV) :=
  match lInit b with
  | 1 => loadRow s p (fmtOf (lFmtH b)) (fld b 192 48 + sq * lHSeq b) (lChans b)
  | 2 => match residentRecord s p id (lSlot b) with
    | some (st, rc) => .ok ((readState s st (lSlot b) rc).map (fieldValue rc))
    | none => .ok (List.replicate (lChans b) pzero)
  | _ => .ok (List.replicate (lChans b) pzero)

/-- The output rows of a sequence and its final state. -/
def scanSequence (s : State) (p b : Nat) (seed : Option W128) (sq id : Nat) : Except Fail (List OutRow × List FV) := do
  let emit (i t : Nat) (vs : List FV) : OutRow :=
    outRow (lFmtY b) (fun j => laneOf seed (lRstream b) (id + 2 * 2 ^ 20) (lTbase b + t) j)
      (fld b 128 48 + sq * lYSeq b + i * lYStep b) 0 vs
  if lDir b = 2 then
    let rows ← scanWindowed s p b sq
    pure (rows.map fun (i, pos, v) => emit i pos v, [])
  else
    let h ← scanInit s p b sq id
    let chunks ← scanOrder s p b sq
    let (rows, last) := if lSequential b then scanSequential h chunks.flatten else scanChunks h chunks
    pure (rows.map fun (t, v) => emit t t v, last)

/-- The final state's row at hT (R222, R223). -/
def scanFinalRow (b : Nat) (seed : Option W128) (sq id : Nat) (h : List FV) : OutRow :=
  outRow (lFmtH b) (fun j => laneOf seed (lRstream b) id (lTbase b + lSteps b - 1) j) (lHT b + sq * lHSeq b) 0 h

/-- A final state written back to its slot (R222, R223). -/
def scanAdvance (s : State) (p b : Nat) (seed : Option W128) (id : Nat) (h : List FV) : Option Advance :=
  match residentRecord s p id (lSlot b) with
  | none => none
  | some (_, rc) =>
    let cells := ((List.range h.length).zip h).map fun (j, x) =>
      narrowField rc (rmodeOf rc.fmt fun _ => laneOf seed (lRstream b) id (lTbase b + lSteps b - 1) j) x
    some { id := id, rec_ := rc, fields := cells.map (·.1), out := [], ev := (cells.map (·.2)).foldl worse .none }

/-- SCAN_LINEAR once its operands are ready. -/
def computeScanLinear (s : State) (q : Nat) : State :=
  let Q := queueOf s q
  let p := Q.cfg.part
  match Q.cmd with
  | none => s
  | some c =>
    let b := c.body
    let ident (sq : Nat) : Nat := if lList b = 0 then sq else c.loaded.getD sq 0
    let runs := (List.range (lSeqs b)).mapM fun sq => do
      let (rows, h) ← scanSequence s p b c.seed sq (ident sq)
      pure (sq, rows, h)
    match (if lResident b then lostStream s p (lSlot b) c.streams else none), runs with
    | some id, _ => endEarly s q p (failAt .faultUnrecovered id 0) c.outs 0
    | none, .error f => endEarly s q p f c.outs 0
    | none, .ok rs =>
      let rows := rs.flatMap (·.2.1) ++ (if lHTUsed b then rs.map fun (sq, _, h) => scanFinalRow b c.seed sq (ident sq) h else [])
      let adv := if lWriteBack b then rs.filterMap fun (sq, _, h) => scanAdvance s p b c.seed (ident sq) h else []
      match storeAll s p q (outWrites rows) with
      | .error f => endEarly s q p f c.outs 0
      | .ok s1 =>
        setResult (recurStates s1 p (lSlot b) adv) q
          (completedResult (worse (outEvent rows) ((adv.map (·.ev)).foldl worse .none)) none none (lItems b))

/-- The start of SCAN_LINEAR after stage B. -/
def startScanLinear (s : State) (q : Nat) (Q : Queue) (c : Cmd) : State :=
  let p := Q.cfg.part
  let b := c.body
  let list := if lList b = 0 then [] else (match readList s p b 384 (lSeqs b) with | .ok (some xs) => xs | _ => [])
  let ids := if lResident b then list else []
  let g := { harrowGrid (lItems b) with scan := if lSequential b then 0 else lChunks b }
  let s1 := openWork (charge s p (lUnits b) 0) q (newWork s p g)
  gated (setCmd s1 q fun x => { x with outs := lOuts b, streams := ids, chargeLoam := lUnits b, loaded := list }) q p
    (lReads b) fun st => computeScanLinear st q

/-- SCAN_LINEAR (R218 to R228): on resident state it waits in CHECK while a stream is held elsewhere. -/
def execScanLinear (q : Nat) (s : State) : Host.Outcome State Fault Refusal :=
  let body := match (queueOf s q).cmd with | some c => c.body | none => 0
  if lResident body && recurWaits s q 384 (lSeqs body) then .next s
  else .next (runCommand s q 0x110 checksScanLinear (fun st Q c => startScanLinear st q Q c))

end Sys2Proof.Machine
end

