-- ==== Sys2Proof/Machine/Pages.lean ====
section
/-! DEFINITION. KV pools, pages and the gleaner (R254 to R258, R266 to R275): where a page lies, how slots are found, and
the sharing of pages between streams. -/

namespace Sys2Proof.Machine

/-! ### Geometry (R255, R256) -/

/-- Bytes of an element of a pool's keys and values, and of a source row. -/
def wKv (K : Pool) : Nat := elemBits (fmtOf K.fmtKv) / 8
def wX (K : Pool) : Nat := elemBits (fmtOf K.fmtX) / 8
def pageBytes (K : Pool) : Nat := 32 * K.hkv * K.dh * wKv K
def srcBytes (K : Pool) : Nat := 16 * K.inDim * wX K

/-- A byte of a region that lies in a list of frames. -/
def regionAddr (base : Nat → Nat) (frames : List Nat) (off : Nat) : Nat := base (frames.getD (off / plotBytes) 0) + off % plotBytes

/-- Physical address of a byte of a page's slot: slots fill the pool's region from its start. -/
def slotAddr (K : Pool) (home : PageHome) (off : Nat) : Nat :=
  match home with
  | .loam i => regionAddr loamAddr K.loamFrames (i * pageBytes K + off)
  | .subsoil i => regionAddr subAddr K.subFrames (i * pageBytes K + off)
  | .dropped => 0

/-- Physical address of a byte of a source block: the blocks follow the subsoil slots. -/
def srcAddr (K : Pool) (id off : Nat) : Nat :=
  regionAddr subAddr K.subFrames (K.subSlots * pageBytes K + id * srcBytes K + off)

/-- The loam address of a directory unit, which follows the loam slots. -/
def unitAddr (K : Pool) (u : Nat) : Nat := regionAddr loamAddr K.loamFrames (ceilDiv (K.loamSlots * pageBytes K) 4096 * 4096 + u * 4096)

/-- The 64-byte lines of a run of bytes: addresses for a region whose lines never cross a frame. -/
def readRegion (s : State) (addr : Nat → Nat) (n : Nat) : Except Fail (List Byte) := do
  let lines ← (List.range (ceilDiv n 64)).mapM fun i => physLoad s (addr (64 * i)) (min 64 (n - 64 * i))
  pure lines.flatten

/-- The lines of a region are read for a partition (R334). -/
def useRegion (s : State) (p : Nat) (addr : Nat → Nat) (n : Nat) : State :=
  useLines s p ((List.range (ceilDiv n 64)).map fun i => addr (64 * i) / 64)

def writeRegion (s : State) (p q : Nat) (addr : Nat → Nat) (bs : List Byte) : Except Fail State :=
  ((List.range (ceilDiv bs.length 64)).zip (piecesOf 64 (bs.length + 1) bs)).foldlM
    (fun st (i, c) => physStore st p q (addr (64 * i)) c) s

/-! ### Pools -/

def poolOf (s : State) (p k : Nat) : Option Pool := lookupKey k (partOf s p).pools

def setPool (s : State) (p k : Nat) (f : Pool → Pool) : State :=
  setPart s p fun P => match lookupKey k P.pools with
    | some K => { P with pools := insertKey k (f K) P.pools }
    | none => P

def setPage (s : State) (p k id : Nat) (f : Page → Page) : State :=
  setPool s p k fun K => match lookupKey id K.recs with
    | some g => { K with recs := insertKey id (f g) K.recs }
    | none => K

def poolCount (s : State) (p k : Nat) (f : PoolCounts → PoolCounts) : State :=
  setPool s p k fun K => { K with counts := f K.counts }

def pageOf (K : Pool) (id : Nat) : Option Page := lookupKey id K.recs

/-- Loam and subsoil slots that pages hold. -/
def usedLoamSlots (K : Pool) : List Nat := K.recs.filterMap fun (_, g) => match g.home with | .loam i => some i | _ => none
def usedSubSlots (K : Pool) : List Nat := K.recs.filterMap fun (_, g) => match g.home with | .subsoil i => some i | _ => none

/-- The queue whose command a move belongs to. -/
def moveQueue (m : Move) : Option Nat := match m.cause with | .command q => some q | .page q _ => some q | _ => none

/-- Loam slots of a pool for which pages are on their way (R269). -/
def pledgedSlots (s : State) (p k : Nat) : List Nat := s.mem.moves.filterMap fun m => match m.cause, m.dest with
  | .page _ j, .loam i => if m.active && m.part == p && j == k then some i else none
  | _, _ => none

/-- The lowest number below `n` that a list does not hold. DESIGN CHOICE, log entry 36. -/
def lowestFree (used : List Nat) (n : Nat) : Option Nat :=
  (List.range (min n (used.length + 1))).find? fun i => !used.contains i

/-- The lowest `k` numbers below `n` that a list does not hold. -/
def lowestFrees (used : List Nat) (n k : Nat) : List Nat :=
  ((List.range (min n (used.length + k))).filter fun i => !used.contains i).take k

def freeIds (K : Pool) : Nat := K.pages - K.recs.length
def freeUnits (K : Pool) : Nat := K.dirUnits - K.unitsUsed.length

/-! ### Streams' directories (R257) -/

/-- The key of a directory entry. -/
def dirKey (layer idx : Nat) : Nat := layer * 4096 + idx

def dirEntry (st : Stream) (layer idx : Nat) : Option DirEntry := st.kv.bind fun kv => lookupKey (dirKey layer idx) kv.dir

def layerTokens (st : Stream) (layer : Nat) : Nat :=
  match st.kv with
  | some kv => (lookupKey layer kv.tokens).getD 0
  | none => 0

/-- kv_tokens: the largest token count over the layers (R257). -/
def maxTokens (kv : KvRoot) : Nat := kv.tokens.foldl (fun m x => max m x.2) 0

def setKv (s : State) (id : Nat) (f : KvRoot → KvRoot) : State := setStream s id fun st => { st with kv := st.kv.map f }

/-- The pages that a stream's directory names on a layer, or on every layer. -/
def dirPages (st : Stream) (sel : Nat → Bool) : List Nat :=
  match st.kv with
  | some kv => (kv.dir.filter fun e => sel (e.1 / 4096)).map (·.2.page)
  | none => []

/-! ### Eligibility and the gleaner (R268, R270) -/

/-- The pages of pool `k` on the layer of an executing ATTEND that lists a stream referencing them (R270). -/
def attendedPages (s : State) (p k : Nat) : List Nat :=
  s.queues.flatMap fun Q => match Q.cmd with
    | some c =>
      if Q.state == .run && Q.cfg.part == p && hOpcode c.hdr == 0x120 && fld c.body 872 3 == k then
        c.streams.flatMap fun id => match streamOf s id with
          | some st => dirPages st (· == fld c.body 864 6)
          | none => []
      else []
    | none => []

/-- Whether a page may be demoted or dropped (R270). -/
def eligible (attended : List Nat) (e : Nat × Page) : Bool :=
  e.2.pins == 0 && !e.2.busy && !e.2.srcLost && !attended.contains e.1

/-- The least recently used page of a list: smallest last_use, then lower identifier (R268). -/
def lru (xs : List (Nat × Page)) : Option (Nat × Page) :=
  xs.foldl (fun best e => match best with
    | none => some e
    | some b => if e.2.lastUse < b.2.lastUse then some e else best) none

def inLoam (g : Page) : Bool := match g.home with | .loam _ => true | _ => false
def inSubsoil (g : Page) : Bool := match g.home with | .subsoil _ => true | _ => false

/-- R268, R273: a page is dropped; it keeps identifier, references, pins, fill and source block. -/
def dropPage (s : State) (p k id : Nat) : State :=
  poolCount (setPage s p k id fun g => { g with home := .dropped }) p k fun c => { c with dropped := satAdd 32 c.dropped 1 }

/-- The number that stands for no queue: a store into a page's slot fails no command (Table 13-12). -/
def ownerless : Nat := 256

/-- Copy a page's bytes to another home; an uncorrectable error in its slot counts as a drop (R273). -/
def movePage (s : State) (p k id : Nat) (dest : PageHome) : State :=
  match poolOf s p k with
  | none => s
  | some K => match pageOf K id with
    | none => s
    | some g =>
      let s0 := useRegion s p (slotAddr K g.home) (pageBytes K)
      match readRegion s0 (slotAddr K g.home) (pageBytes K) with
      | .error _ => dropPage s0 p k id
      | .ok bs => match writeRegion s0 p ownerless (slotAddr K dest) bs with
        | .error _ => dropPage s0 p k id
        | .ok s1 => setPage s1 p k id fun x => { x with home := dest }

/-- Move a page and count the move, unless its slot's error drops it on the way. -/
def countedMove (s : State) (p k id : Nat) (dest : PageHome) (f : PoolCounts → PoolCounts) : State :=
  let s1 := movePage s p k id dest
  match (poolOf s1 p k).bind fun K => pageOf K id with
  | some g => if g.home = dest then poolCount s1 p k f else s1
  | none => s1

/-- Step 2 of R268: demote the least recently used eligible loam page into the lowest free subsoil slot. -/
def demoteStep (s : State) (p k : Nat) : Option (Nat × State) :=
  match poolOf s p k with
  | none => none
  | some K =>
    let att := attendedPages s p k
    match lowestFree (usedSubSlots K) K.subSlots, lru (K.recs.filter fun e => inLoam e.2 && eligible att e) with
    | some sub, some (id, g) => match g.home with
      | .loam i => some (i, countedMove s p k id (.subsoil sub) fun c => { c with demoted := satAdd 32 c.demoted 1 })
      | _ => none
    | _, _ => none

/-- R268: a loam slot for a page of pool `k`, and the state after the moves and drops that provide it. Steps 1 and 2 alone
when `onlyTwo` (R275). -/
def takeSlot (s : State) (p k : Nat) (onlyTwo : Bool) : Option (Nat × State) :=
  match poolOf s p k with
  | none => none
  | some K =>
    match lowestFree (usedLoamSlots K ++ pledgedSlots s p k) K.loamSlots with
    | some i => some (i, s)
    | none => match demoteStep s p k with
      | some r => some r
      | none =>
        if onlyTwo then none
        else
          let att := attendedPages s p k
          let loam := lru (K.recs.filter fun e => inLoam e.2 && eligible att e)
          match lru (K.recs.filter fun e => inSubsoil e.2 && eligible att e), loam with
          | some (id, _), some _ => demoteStep (dropPage s p k id) p k
          | _, some (id, g) => match g.home with
            | .loam i => some (i, dropPage s p k id)
            | _ => none
          | _, none => none

/-- Free slots plus eligible pages of a pool (R271), the pages in `own` apart. DEDUCED, log entry 33. -/
def slotsLeft (s : State) (p k : Nat) (own : List Nat) : Nat :=
  match poolOf s p k with
  | none => 0
  | some K =>
    let att := attendedPages s p k
    (K.loamSlots - (usedLoamSlots K).length - (pledgedSlots s p k).length) + (K.subSlots - (usedSubSlots K).length)
      + (K.recs.filter fun e => (inLoam e.2 || inSubsoil e.2) && eligible (att ++ own) e).length

/-- What executing commands of a partition have reserved under a number. -/
def reservedUnder (s : State) (p n : Nat) : Nat :=
  s.queues.foldl (fun m Q => match Q.cmd with
    | some c => if Q.cfg.part == p then c.reserved.foldl (fun m (i, x) => if i == n then m + x else m) m else m
    | none => m) 0

/-- Reservations outstanding in pool `k` (R271): slots under its number, identifiers under 8 more, directory units under 16 more. -/
def slotsReserved (s : State) (p k : Nat) : Nat := reservedUnder s p k
def idsReserved (s : State) (p k : Nat) : Nat := reservedUnder s p (k + 8)
def unitsReserved (s : State) (p k : Nat) : Nat := reservedUnder s p (k + 16)

/-! ### Sharing (R266) -/

/-- Lower the references, and pins, of a page by one entry; a page without references becomes free. -/
def unref (s : State) (p k : Nat) (e : DirEntry) : State :=
  setPool s p k fun K => match pageOf K e.page with
    | none => K
    | some g =>
      if g.refs ≤ 1 then { K with recs := eraseKey e.page K.recs }
      else { K with recs := insertKey e.page { g with refs := g.refs - 1, pins := if e.pin then g.pins - 1 else g.pins } K.recs }

/-- R266: release every entry of a stream, its root and its units. -/
def releaseKv (s : State) (id : Nat) : State :=
  match streamOf s id with
  | none => s
  | some st => match st.kv with
    | none => s
    | some kv =>
      let s1 := kv.dir.foldl (fun x e => unref x st.part kv.pool e.2) s
      let units := kv.unit :: kv.units.flatMap (·.2)
      setStream (setPool s1 st.part kv.pool fun K => { K with unitsUsed := K.unitsUsed.filter fun u => !units.contains u }) id
        fun x => { x with kv := none }

/-- Units that a copy of a root needs (R266): the root's and one per unit of each layer. DEDUCED, log entry 23. -/
def rootUnits (st : Stream) : Nat :=
  match st.kv with
  | some kv => 1 + (kv.units.map fun u => u.2.length).foldl (· + ·) 0
  | none => 0

/-- Take `n` directory units, lowest first. -/
def takeUnits (K : Pool) (n : Nat) : Option (List Nat × Pool) :=
  let us := lowestFrees K.unitsUsed K.dirUnits n
  if us.length = n then some (us, { K with unitsUsed := K.unitsUsed ++ us }) else none

/-- Hand out units to layers in order. -/
def dealUnits : List (Nat × List Nat) → List Nat → List (Nat × List Nat)
  | [], _ => []
  | (l, us) :: rest, pool => (l, pool.take us.length) :: dealUnits rest (pool.drop us.length)

/-- R266: a child's own root, naming the parent's pages with pin clear; refs of every page rise by one per child. -/
def shareKv (s : State) (parent child : Nat) : State :=
  match streamOf s parent with
  | none => s
  | some st => match st.kv with
    | none => s
    | some kv => match poolOf s st.part kv.pool with
      | none => s
      | some K => match takeUnits K (rootUnits st) with
        | none => s
        | some (us, K1) =>
          let pages := kv.dir.map (·.2.page)
          let K2 := { K1 with recs := K1.recs.map fun (i, g) => if pages.contains i then (i, { g with refs := g.refs + 1 }) else (i, g) }
          let root : KvRoot :=
            { pool := kv.pool, unit := us.headD 0, tokens := kv.tokens, units := dealUnits kv.units (us.drop 1),
              dir := kv.dir.map fun (i, e) => (i, { e with pin := false }) }
          setStream (setPool s st.part kv.pool fun _ => K2) child fun x => { x with kv := some root }

/-! ### PAGE_PIN (R275, R278) -/

def ppOp (b : Nat) : Nat := fld b 0 2
def ppLayers (b : Nat) : Nat × Nat := (fld b 8 6, fld b 16 6)
def ppPages (b : Nat) : Nat × Nat := (fld b 32 16, if fld b 48 16 = 0xFFFF then 4095 else fld b 48 16)

/-- The entries of a stream that a PAGE_PIN names. -/
def ppEntries (st : Stream) (b : Nat) : List (Nat × DirEntry) :=
  match st.kv with
  | none => []
  | some kv => kv.dir.filter fun (k, _) =>
      decide ((ppLayers b).1 ≤ k / 4096) && decide (k / 4096 ≤ (ppLayers b).2) && decide ((ppPages b).1 ≤ k % 4096)
        && decide (k % 4096 ≤ (ppPages b).2)

/-- The condition of streams that ATTEND and PAGE_PIN name (Table 11-6 check 9). -/
def kvStreamOk (s : State) (P : Partition) (id : Nat) : Bool :=
  inRange P id && (match streamOf s id with
    | some st => st.st == .idle || st.st == .resident || st.st == .parked
    | none => false)

/-- Checks of PAGE_PIN (Table 11-6). -/
def checksPagePin (s : State) (Q : Queue) (c : Cmd) : List (Bool × Fail) :=
  let p := Q.cfg.part
  let P := partOf s p
  let b := c.body
  let bad (c : Bool) (lo : Nat) : Bool × Fail := (c, atBit .loadBadShape lo)
  let pinned : List Nat := match streamOf s (hStreamId c.hdr) with
    | some st => if ppOp b = 0 then [] else (ppEntries st b).map (·.2.page)
    | none => []
  let k := match streamOf s (hStreamId c.hdr) with | some st => (st.kv.map (·.pool)).getD 0 | none => 0
  let after := slotsLeft s p k pinned
  reservedBody b [(2, 6), (14, 2), (22, 10), (64, 448)] ++ streamCheck s P c.hdr true
    ++ [(!kvStreamOk s P (hStreamId c.hdr), failAt .loadBadStream 28 0), bad (ppOp b == 3) 0,
        bad (decide ((ppLayers b).2 < (ppLayers b).1)) 8, bad (decide (4095 < fld b 32 16)) 32,
        bad (decide (4095 < fld b 48 16) && fld b 48 16 != 0xFFFF || decide ((ppPages b).2 < (ppPages b).1)) 48,
        (ppOp b != 0 && decide (after < slotsReserved s p k), failAt .loadQuota 0xFFFFFFFF 1)]

/-- Set or clear pin on one entry; answers whether it changed. -/
def pinEntry (s : State) (id : Nat) (pin : Bool) (k : Nat) (e : DirEntry) : State :=
  if e.pin = pin then s
  else match streamOf s id with
    | none => s
    | some st =>
      let pool := (st.kv.map (·.pool)).getD 0
      setPage (setKv s id fun kv => { kv with dir := insertKey k { e with pin := pin } kv.dir }) st.part pool e.page
        fun g => { g with pins := if pin then g.pins + 1 else g.pins - 1 }

/-- Whether a page of a pool lies in subsoil. -/
def pageBelow (s : State) (p k id : Nat) : Bool := match (poolOf s p k).bind fun K => pageOf K id with
  | some g => inSubsoil g
  | none => false

/-- The named pages that lie in subsoil wait for the plot mover, in order (R269, R275). -/
def queuePages (s : State) (p k q : Nat) (ids : List Nat) : State :=
  let moves := (ids.filter (pageBelow s p k)).map fun id =>
    ({ part := p, plot := id, dest := .loam 0, cause := .page q k, index := 0, active := false, writes := [] } : Move)
  { s with mem := { s.mem with moves := s.mem.moves ++ moves } }

/-- PAGE_PIN's effect (R275): a stream retired meanwhile ends it with STREAM_BAD_STATE. With op 2 the command ends once the mover has
moved the pages, or nothing is to be moved; the entry 40 among its reservations says that the mover has them. -/
def effectPagePin (s : State) (q : Nat) (Q : Queue) (c : Cmd) : State :=
  let p := Q.cfg.part
  let b := c.body
  let id := hStreamId c.hdr
  match streamOf s id with
  | none => setResult s q ⟨.streamBadState, 0, 0, 0⟩
  | some st =>
    if st.st = .retired then setResult s q ⟨.streamBadState, 0, 0, 0⟩
    else
      let es := ppEntries st b
      let pin := ppOp b != 0
      let changed := (es.filter fun e => e.2.pin != pin).length
      let s1 := es.foldl (fun x (k, e) => pinEntry x id pin k e) s
      let k := (st.kv.map (·.pool)).getD 0
      let pages := (es.map (·.2.page)).eraseDups
      if ppOp b = 2 && pages.any (pageBelow s1 p k) then queuePages (setCmd s1 q fun x => { x with done := changed, paging := true }) p k q pages
      else setResult s1 q ⟨.completed, 0, 0, changed⟩

end Sys2Proof.Machine
end

