-- ==== Sys2Proof/Machine/Attend.lean ====
section
/-! DEFINITION. ATTEND (R259 to R265, R271 to R274, R277 to R280): projection and append, rebuilding of dropped pages, and
attention over a stream's history. -/

namespace Sys2Proof.Machine

/-! ### The body (Table 11-4) -/

def aScale (b : Nat) : Nat := fld b 704 32
def aTag (b : Nat) : Nat := fld b 736 32
def aRstream (b : Nat) : Nat := fld b 768 32
def aFmtQ (b : Nat) : Nat := fld b 800 8
def aFmtX (b : Nat) : Nat := fld b 808 8
def aFmtW (b : Nat) : Nat := fld b 816 8
def aFmtOut (b : Nat) : Nat := fld b 824 8
def aStreams (b : Nat) : Nat := fld b 832 24
def aNew (b : Nat) : Nat := fld b 856 7
def aLayer (b : Nat) : Nat := fld b 864 6
def aPool (b : Nat) : Nat := fld b 872 3
def aGroup (b : Nat) : Nat := fld b 880 8
def aWindow (b : Nat) : Nat := fld b 1024 32
def aBias (b : Nat) : Nat := fld b 256 48
def aList (b : Nat) : Nat := fld b 320 48
def aLse (b : Nat) : Nat := fld b 384 48
def aQRow (b : Nat) : Nat := fld b 448 48
def aOutRow (b : Nat) : Nat := fld b 512 48
def aXRow (b : Nat) : Nat := fld b 576 48
def aWCol (b : Nat) : Nat := fld b 640 48

/-- Columns of W: 2 × hkv × dh. -/
def aCols (K : Pool) : Nat := 2 * K.hkv * K.dh

/-- Query heads. -/
def aHeads (b : Nat) (K : Pool) : Nat := aGroup b * K.hkv

/-- Rows of q, out and x. -/
def aRows (b : Nat) : Nat := aStreams b * aNew b

/-- The first visible position of query `i` (R260). -/
def visibleFrom (b p0 i : Nat) : Nat := if aWindow b = 0 then 0 else p0 + i + 1 - aWindow b

/-- The page indices that hold a position some query of a stream sees. -/
def visiblePages (b p0 : Nat) : List Nat :=
  rangeFrom (visibleFrom b p0 0 / 16) ((p0 + aNew b - 1) / 16 + 1 - visibleFrom b p0 0 / 16)

/-- Whether an append at `p0` lands in a shared page (R267). -/
def sharedNext (K : Pool) (st : Stream) (layer p0 : Nat) : Bool :=
  p0 % 16 != 0 && (match dirEntry st layer (p0 / 16) with
    | some e => (match pageOf K e.page with | some g => decide (1 < g.refs) | none => false)
    | none => false)

/-- New pages of an append (R271). -/
def newPages (p0 new : Nat) : Nat := ceilDiv (p0 + new) 16 - ceilDiv p0 16

/-- Dropped pages that the items of streams will read, each once. -/
def droppedPages (s : State) (K : Pool) (b : Nat) (ids : List Nat) : List (Nat × Page) :=
  (ids.flatMap fun id => match streamOf s id with
    | none => []
    | some st => (visiblePages b (layerTokens st (aLayer b))).filterMap fun i => (dirEntry st (aLayer b) i).bind fun e =>
        (pageOf K e.page).bind fun g => if g.home = .dropped then some (e.page, g) else none).eraseDups

/-- Directory units that an append needs: the root, and new units of the layer (R257). DEDUCED, log entry 33. -/
def appendUnits (st : Stream) (layer p0 new : Nat) : Nat :=
  let have_ := match st.kv with | some kv => ((lookupKey layer kv.units).getD []).length | none => 0
  (if st.kv.isNone then 1 else 0) + (ceilDiv (ceilDiv (p0 + new) 16) 1024 - have_)

/-- What ATTEND needs of a pool over its streams: slots, identifiers, directory units (R271). -/
def attendNeeds (s : State) (K : Pool) (b : Nat) (ids : List Nat) : Nat × Nat × Nat :=
  let (n, u) := ids.foldl (fun (n, u) id => match streamOf s id with
    | none => (n, u)
    | some st =>
      let p0 := layerTokens st (aLayer b)
      (n + newPages p0 (aNew b) + (if sharedNext K st (aLayer b) p0 then 1 else 0), u + appendUnits st (aLayer b) p0 (aNew b))) (0, 0)
  (n + (droppedPages s K b ids).length, n, u)

/-- Compute cycles of a rebuild, in WS (R272). -/
def rebuildCycles (K : Pool) (x w : Fmt) (fill : Nat) : Nat :=
  let (p, _, l, _) := pairRates x w
  ceilDiv (aCols K) 64 * ceilDiv K.inDim 64 * max (fill * p) l + l + 12

/-- Nanoseconds of a rebuild: the source block at 64 B per HCLK of 1.10 GHz, then phase 1 at an ACLK of `mhz` (R104, R272). -/
def rebuildNs (K : Pool) (x w : Fmt) (fill mhz : Nat) : Nat :=
  ceilDiv (srcBytes K / 64 * 10 * mhz + rebuildCycles K x w fill * 11000) (11 * max 1 mhz)

/-- Slots that an attention item holds (R265). -/
def aSlots (K : Pool) : Nat := 2 + ceilDiv K.dh 64

/-- Work items (R265). -/
def aItems (b : Nat) (K : Pool) : Nat := aStreams b * ceilDiv (aCols K) 64 + aStreams b * K.hkv

/-- The estimate of R265 in ACLK, divided by the engines granted. -/
def aEstimate (s : State) (K : Pool) (b : Nat) (ids : List Nat) (engines : Nat) : Nat :=
  let (_, _, _, s2) := pairRates (fmtOf (aFmtQ b)) (fmtOf K.fmtKv)
  let total := ids.foldl (fun acc id => match streamOf s id with
    | none => acc
    | some st =>
      let p0 := layerTokens st (aLayer b)
      acc + ((visiblePages b p0).length * (ceilDiv (2 * K.dh) s2 + 32 * ceilDiv K.dh 64) + 12) * K.hkv) 0
  let drops := ((droppedPages s K b ids).map fun (_, g) =>
    srcBytes K / 64 * 14 / 11 + rebuildCycles K (fmtOf (aFmtX b)) (fmtOf (aFmtW b)) g.fill).foldl (· + ·) 0
  ceilDiv (total + drops) (max 1 engines)

/-- Extents that ATTEND reads, by address field. -/
def aReadFields (b : Nat) (K : Pool) : List (Nat × Nat) :=
  [(0, extent (aRows b) (aQRow b) (rowBytes (fmtOf (aFmtQ b)) (aHeads b K * K.dh))),
   (128, extent (aRows b) (aXRow b) (rowBytes (fmtOf (aFmtX b)) K.inDim)),
   (192, extent (aCols K) (aWCol b) (rowBytes (fmtOf (aFmtW b)) K.inDim))]
    ++ (if aBias b = 0 then [] else [(256, 4 * aCols K)])

/-- What ATTEND reads of its operands. -/
def aReads (b : Nat) (K : Pool) : List (Nat × Nat) :=
  rowReads (fld b 0 48) (aQRow b) (aRows b) (rowBytes (fmtOf (aFmtQ b)) (aHeads b K * K.dh))
    ++ rowReads (fld b 128 48) (aXRow b) (aRows b) (rowBytes (fmtOf (aFmtX b)) K.inDim)
    ++ rowReads (fld b 192 48) (aWCol b) (aCols K) (rowBytes (fmtOf (aFmtW b)) K.inDim)
    ++ (if aBias b = 0 then [] else [(aBias b, 4 * aCols K)])

/-- The pool to which a stream is bound: that of its root, or of an executing ATTEND that will create the root (R257). DEDUCED, log
entry 172. -/
def boundPool (s : State) (id : Nat) : Option Nat := (streamOf s id).bind fun st => match st.kv with
  | some kv => some kv.pool
  | none => s.queues.findSome? fun R => match R.cmd with
    | some d => if R.state == .run && hOpcode d.hdr == 0x120 && d.streams.contains id then some (aPool d.body) else none
    | none => none

def aOutBytes (b : Nat) (K : Pool) : Nat := rowBytes (fmtOf (aFmtOut b)) (aHeads b K * K.dh)

def aOuts (b : Nat) (K : Pool) : List (Nat × Nat) :=
  rowSpans (fld b 64 48) (aOutRow b) (aRows b) (aOutBytes b K)
    ++ (if aLse b = 0 then [] else [(aLse b, 4 * aRows b * aHeads b K)])

/-- Checks of ATTEND in the order of Table 3-4. -/
def checksAttend (s : State) (Q : Queue) (c : Cmd) : List (Bool × Fail) :=
  let p := Q.cfg.part
  let P := partOf s p
  let b := c.body
  let listed := aList b != 0
  let rd := namedStreams s p c.hdr b 320 (aStreams b)
  let known : Bool := match rd with | .ok (some _) => true | _ => false
  let ids := match rd with | .ok (some xs) => xs | _ => []
  let pool := poolOf s p (aPool b)
  let onPool (f : Pool → List (Bool × Fail)) : List (Bool × Fail) := match pool with | some K => f K | none => []
  let grant := grantEngines s p
  let bound (id : Nat) : Bool := match boundPool s id with
    | some k => k == aPool b
    | none => true
  let atEntry (i : Nat) : Fail := if listed then inStruct .loadBadStream 320 (4 * i) else failAt .loadBadStream 28 0
  let bad (c : Bool) (lo : Nat) : Bool × Fail := (c, atBit .loadBadShape lo)
  let align (fb stride lo : Nat) : Bool × Fail := (oddStride fb stride, atBit .loadAlign lo)
  let scalar (fb : Nat) : Bool := fmtLegalIn fb && !isMx (fmtOf fb)
  let many := decide (1 < aRows b)
  let overflow := ids.any fun id => match streamOf s id with
    | some st => decide (65536 < layerTokens st (aLayer b) + aNew b)
    | none => false
  reservedBody b [(48, 16), (112, 16), (176, 16), (240, 16), (304, 16), (368, 16), (432, 16), (496, 16), (560, 16), (624, 16),
      (688, 16), (807, 1), (815, 1), (823, 1), (831, 1), (863, 1), (870, 2), (875, 5), (888, 136), (1056, 480)]
    ++ [readFailed rd] ++ (if listed then listReserved 320 ids else [])
    ++ [(!hStream c.hdr, failAt .loadBadStream 4 0), (known && ids.head? != some (hStreamId c.hdr), failAt .loadBadStream 28 0)]
    ++ perEntry ids (fun i id => (!kvStreamOk s P id || !bound id, atEntry i))
    ++ seedCheck P c.hdr (fmtDraws (aFmtOut b))
    ++ [(!scalar (aFmtQ b), atBit .loadBadFormat 800), (!scalar (aFmtX b), atBit .loadBadFormat 808),
        (!scalar (aFmtW b), atBit .loadBadFormat 816), (!fmtLegalOut (aFmtOut b) || isMx (fmtOf (aFmtOut b)), atBit .loadBadFormat 824),
        (!legalPair (fmtOf (aFmtX b)) (fmtOf (aFmtW b)), failNone .loadBadFormat)]
    ++ onPool (fun K => [(fmtOf (aFmtX b) != fmtOf K.fmtX, atBit .loadBadFormat 808),
        (!legalPair (fmtOf (aFmtQ b)) (fmtOf K.fmtKv), failNone .loadBadFormat)])
    ++ [(pool.isNone, atBit .loadUnitDisabled 872), takerCheck grant.length]
    ++ (if listed then listTwice 320 ids else [])
    ++ onPool (fun K =>
      [bad (many && decide (aQRow b < rowBytes (fmtOf (aFmtQ b)) (aHeads b K * K.dh))) 448,
       bad (many && decide (aOutRow b < aOutBytes b K)) 512, bad (many && decide (aXRow b < rowBytes (fmtOf (aFmtX b)) K.inDim)) 576,
       bad (decide (aWCol b < rowBytes (fmtOf (aFmtW b)) K.inDim)) 640, bad (decide (K.layers ≤ aLayer b)) 864])
    ++ [bad (isNan (f32 (aScale b)) || isInf (f32 (aScale b)) || isZero (f32 (aScale b))) 704,
        bad (aStreams b == 0 || decide (1048576 < aStreams b) || (!listed && aStreams b != 1)) 832,
        bad (aNew b == 0 || decide (64 < aNew b)) 856, (overflow, failNone .loadBadShape),
        bad (aGroup b == 0 || decide (64 < aGroup b * aNew b)) 880, bad (decide (65536 < aWindow b)) 1024]
    ++ [alignCheck b 0 64, alignCheck b 64 64, alignCheck b 128 64, alignCheck b 192 64, alignCheck b 256 64, alignCheck b 320 4,
        alignCheck b 384 4, align (aFmtQ b) (aQRow b) 448, align (aFmtOut b) (aOutRow b) 512, align (aFmtX b) (aXRow b) 576,
        align (aFmtW b) (aWCol b) 640]
    ++ onPool (fun K =>
      ((aReadFields b K).map fun (lo, n) => readCheck s p b lo n)
        ++ [writeCheck s p b 64 (extent (aRows b) (aOutRow b) (aOutBytes b K)),
            readCheck s p b 320 (if listed then 4 * aStreams b else 0),
            writeCheck s p b 384 (if aLse b = 0 then 0 else 4 * aRows b * aHeads b K)])
    ++ onPool (fun K =>
      let (slots, nid, units) := attendNeeds s K b ids
      let own := ids.flatMap fun id => match streamOf s id with | some st => dirPages st (· == aLayer b) | none => []
      [(decide (2147483648 < aItems b K), failNone .loadTileCount),
       (!(grant.any fun e => decide (aSlots K ≤ (freeSlots s e).length)), failAt .loadAccCapacity 0xFFFFFFFF (aSlots K)),
       (decide (slotsLeft s p (aPool b) own < slots + slotsReserved s p (aPool b)) || decide (freeIds K < nid + idsReserved s p (aPool b))
          || decide (freeUnits K < units + unitsReserved s p (aPool b)),
         failAt .loadQuota 0xFFFFFFFF 1),
       beCheck s Q (aclkUs (aEstimate s K b ids grant.length))])

/-! ### The running evaluation -/

/-- The state, a failure that ended it, pages rebuilt and the time spent on them, what is appended, the rows that a page's source block
holds beyond its fill, the slots and identifiers taken, and the event. -/
structure Kv where
  s : State
  fail : Option Fail
  rebuilt : Nat
  ns : Nat
  appends : List Append
  rows : List (Nat × Nat)
  slots : Nat
  ids : Nat
  ev : NumEvent
  deriving DecidableEq, Repr

/-- What every part of the evaluation needs: partition, queue, body, pool number, columns of W, bias, time of stage B. -/
structure AttendCtx where
  p : Nat
  q : Nat
  b : Nat
  k : Nat
  ws : List (List FV)
  bias : List FV
  us : Nat
  seed : Option W128
  deriving DecidableEq, Repr

/-- Continue unless the evaluation has failed. -/
def Kv.andThen (x : Kv) (f : Kv → Kv) : Kv := match x.fail with | some _ => x | none => f x

def Kv.failWith (x : Kv) (f : Fail) : Kv := { x with fail := some f }

/-- Phase 1 on a source row (R259): the narrowed key and value bits of its columns, with their event. -/
def projectRow (cx : AttendCtx) (K : Pool) (xs : List FV) : List Nat × NumEvent :=
  let f := fmtOf K.fmtX
  let cells := (List.range (aCols K)).map fun c =>
    let ps := addendsFor f (.scalar xs) (.scalar (cx.ws.getD c []))
    narrow (fmtOf K.fmtKv) (rmodeOf K.fmtKv fun _ => 0) (fmtByte K.fmtKv).sat (accumulate (cx.bias.getD c pzero) (ps.map some))
  (cells.map (·.1), (cells.map (·.2)).foldl worse .none)

/-- The vectors of a token: offset within the page and bytes, for each KV head's key and value (R255). -/
def tokenVectors (K : Pool) (t : Nat) (bits : List Nat) : List (Nat × List Byte) :=
  let f := fmtOf K.fmtKv
  (List.range K.hkv).flatMap fun g =>
    let off := (g * 16 + t) * K.dh * wKv K
    let key := (bits.drop (g * K.dh)).take K.dh
    let val := (bits.drop (K.hkv * K.dh + g * K.dh)).take K.dh
    [(off, packRow f key), (pageBytes K / 2 + off, packRow f val)]

/-- Write a token's vectors into a page's slot. A line that cannot take them stays poisoned, and its next read drops the page (R273). -/
def writeToken (s : State) (cx : AttendCtx) (K : Pool) (home : PageHome) (t : Nat) (bits : List Nat) : State :=
  (tokenVectors K t bits).foldl (fun st (off, bs) =>
    (lineChunks (bs.length + 1) off bs).foldl (fun x (o, c) => match physStore x cx.p ownerless (slotAddr K home o) c with
      | .ok y => y
      | .error _ => x) st) s

/-- Bytes laid over others at an offset. -/
def layOver (base : List Byte) (off : Nat) (bs : List Byte) : List Byte := base.take off ++ bs ++ base.drop (off + bs.length)

/-- The bytes of a page with the tokens of its rows; the other positions hold what `base` holds. -/
def pageImage (K : Pool) (base : List Byte) (rows : List (List Nat)) : List Byte :=
  (((List.range rows.length).zip rows).flatMap fun (t, w) => tokenVectors K t w).foldl (fun x (off, bs) => layOver x off bs) base

/-- R272: rebuild a dropped page from its source block, in a slot of the gleaner's, and give its bytes. The rows are those written, by
this command too; what the other positions hold is free. DEDUCED, log entry 173. -/
def rebuildPage (cx : AttendCtx) (stream idx id : Nat) (x : Kv) : Kv × List Byte :=
  match poolOf x.s cx.p cx.k with
  | none => (x, [])
  | some K => match pageOf K id with
    | none => (x, [])
    | some g =>
      let lost (y : Kv) : Kv × List Byte := (y.failWith (failAt .memRecomputeFailed stream idx), [])
      if g.srcLost || g.wTag != aTag cx.b || g.layer != aLayer cx.b then lost x
      else match takeSlot x.s cx.p cx.k false with
        | none => (x.failWith (failNone .loadQuota), [])
        | some (i, s0) =>
          let s1 := useRegion s0 cx.p (srcAddr K id) (srcBytes K)
          match readRegion s1 (srcAddr K id) (srcBytes K) with
          | .error _ => lost { x with s := setPage s1 cx.p cx.k id fun r => { r with srcLost := true } }
          | .ok bs =>
            let f := fmtOf K.fmtX
            let n := max g.fill ((lookupKey id x.rows).getD 0)
            let rows := (piecesOf (K.inDim * wX K) 17 bs).take n
            let bits := rows.map fun r => (projectRow cx K (((piecesOf (wX K) (K.inDim + 1) r).map ofLe).map (elemFV f))).1
            let (free, s2) := takeFree s1 (pageBytes K)
            let image := pageImage K ((rangeFrom free (pageBytes K)).map Config.freeByte) bits
            let s3 := match writeRegion s2 cx.p ownerless (slotAddr K (.loam i)) image with | .ok y => y | .error _ => s2
            let ns := rebuildNs K f (fmtOf (aFmtW cx.b)) n x.s.pwr.aclk
            let s4 := poolCount (setPage s3 cx.p cx.k id fun r => { r with home := .loam i }) cx.p cx.k fun n =>
              { n with recomputed := satAdd 32 n.recomputed 1, recomputeNs := satAdd 48 n.recomputeNs ns }
            ({ x with s := s4, rebuilt := x.rebuilt + 1, ns := x.ns + ns, slots := x.slots + 1 }, image)

/-- The bytes of a page, rebuilt first when it was dropped or its slot has an uncorrectable error (R272, R273). The page
becomes busy and recently used. -/
def presentPage (cx : AttendCtx) (stream idx id : Nat) (x : Kv) : Kv × List Byte :=
  match poolOf x.s cx.p cx.k with
  | none => (x, [])
  | some K => match pageOf K id with
    | none => (x, [])
    | some g =>
      let (x1, bytes) := if g.home = .dropped then rebuildPage cx stream idx id x
        else
          let u := useRegion x.s cx.p (slotAddr K g.home) (pageBytes K)
          match readRegion u (slotAddr K g.home) (pageBytes K) with
          | .ok bs => ({ x with s := u }, bs)
          | .error _ => rebuildPage cx stream idx id { x with s := dropPage u cx.p cx.k id }
      (x1.andThen fun y => { y with s := setPage y.s cx.p cx.k id fun r => { r with busy := true, lastUse := cx.us } }, bytes)

/-- A new page for a stream's layer: the lowest free identifier in a slot of the gleaner's. -/
def allocPage (cx : AttendCtx) (x : Kv) : Option (Nat × Kv) :=
  match poolOf x.s cx.p cx.k with
  | none => none
  | some K => match lowestFree (K.recs.map (·.1)) K.pages, takeSlot x.s cx.p cx.k false with
    | some id, some (i, s1) =>
      let g : Page := { home := .loam i, wTag := aTag cx.b, lastUse := cx.us, refs := 1, pins := 0, fill := 0,
                        layer := aLayer cx.b, busy := true, srcLost := false }
      some (id, { x with s := setPool s1 cx.p cx.k fun J => { J with recs := insertKey id g J.recs }, slots := x.slots + 1, ids := x.ids + 1 })
    | _, _ => none

/-- R267: copy a shared page, of bytes `pb`, and its source block for a stream, whose entry then names the copy; a source block that
cannot be read is lost for both (R273). DEDUCED, log entry 34. -/
def copyPage (cx : AttendCtx) (stream idx : Nat) (e : DirEntry) (pb : List Byte) (x : Kv) : Kv :=
  match allocPage cx x with
  | none => x.failWith (failNone .loadQuota)
  | some (id, y) => match poolOf y.s cx.p cx.k with
    | none => y
    | some K => match pageOf K e.page, pageOf K id with
      | some g, some n =>
        let s0 := useRegion y.s cx.p (srcAddr K e.page) (srcBytes K)
        let src := readRegion s0 (srcAddr K e.page) (srcBytes K)
        let s1 := match writeRegion s0 cx.p ownerless (slotAddr K n.home) pb with | .ok z => z | .error _ => s0
        let s2 := match src with
          | .ok sb => (match writeRegion s1 cx.p ownerless (srcAddr K id) sb with | .ok z => z | .error _ => s1)
          | .error _ => setPage s1 cx.p cx.k e.page fun r => { r with srcLost := true }
        let badSrc : Bool := match src with | .ok _ => g.srcLost | .error _ => true
        let s3 := setPage s2 cx.p cx.k id fun r =>
          { r with wTag := g.wTag, fill := g.fill, srcLost := badSrc, pins := if e.pin then 1 else 0 }
        let s4 := setKv (unref s3 cx.p cx.k e) stream fun kv =>
          { kv with dir := insertKey (dirKey (aLayer cx.b) idx) { e with page := id } kv.dir }
        { y with s := poolCount s4 cx.p cx.k fun n => { n with copied := satAdd 32 n.copied 1 } }
      | _, _ => y

/-- The page that holds position `pos` of a stream's layer, made ready for an append: a new page, a copy of a shared one,
or the page itself, rebuilt where it was dropped. Answers the page and whether it is new. DEDUCED, log entry 35. -/
def pageForAppend (cx : AttendCtx) (stream idx : Nat) (fresh : List (Nat × Nat)) (x : Kv) : Kv × Option (Nat × Bool) :=
  match lookupKey idx fresh with
  | some id => (x, some (id, true))
  | none => match (streamOf x.s stream).bind fun st => dirEntry st (aLayer cx.b) idx with
    | none => match allocPage cx x with
      | some (id, y) => (y, some (id, true))
      | none => (x.failWith (failNone .loadQuota), none)
    | some e => match (poolOf x.s cx.p cx.k).bind fun K => pageOf K e.page with
      | none => (x, none)
      | some g =>
        let shared := decide (1 < g.refs)
        let (y, pb) := if shared || g.home == .dropped then presentPage cx stream idx e.page x else (x, [])
        match y.fail with
        | some _ => (y, none)
        | none =>
          let z := if shared then copyPage cx stream idx e pb y else y
          (z, ((streamOf z.s stream).bind fun st => dirEntry st (aLayer cx.b) idx).map fun n => (n.page, false))

/-- Append new token `i` of list entry `r` (R259): its keys, values and source row. `fresh` holds the new pages so far. -/
def appendToken (cx : AttendCtx) (r stream p0 : Nat) (acc : Kv × List (Nat × Nat)) (i : Nat) : Kv × List (Nat × Nat) :=
  let (x, fresh) := acc
  match x.fail with
  | some _ => acc
  | none =>
    let pos := p0 + i
    match pageForAppend cx stream (pos / 16) fresh x with
    | (y, none) => (y, fresh)
    | (y, some (id, isNew)) =>
      let fresh1 := if isNew then insertKey (pos / 16) id fresh else fresh
      match poolOf y.s cx.p cx.k with
      | none => (y, fresh1)
      | some K => match pageOf K id, loadElems y.s cx.p (fmtOf K.fmtX) (fld cx.b 128 48 + (r * aNew cx.b + i) * aXRow cx.b) K.inDim with
        | some g, .ok raw =>
          let (bits, ev) := projectRow cx K (raw.map (elemFV (fmtOf K.fmtX)))
          let t := pos % 16
          let rowB := K.inDim * wX K
          let s1 := writeToken y.s cx K g.home t bits
          let s2 := match writeRegion s1 cx.p ownerless (fun o => srcAddr K id (t * rowB + o)) (packRow (fmtOf K.fmtX) raw) with
            | .error _ => setPage s1 cx.p cx.k id fun h => { h with srcLost := true }
            | .ok z => z
          ({ y with s := setPage s2 cx.p cx.k id fun h => { h with wTag := aTag cx.b }, rows := insertKey id (t + 1) y.rows,
                    ev := worse y.ev ev }, fresh1)
        | _, .error f => (y.failWith f, fresh1)
        | none, _ => (y, fresh1)

/-- Phase 1 of a stream: every new token, and the record of what its commit will make visible (R264). DEDUCED, log entry 38. -/
def appendStream (cx : AttendCtx) (x : Kv) (r stream : Nat) : Kv :=
  x.andThen fun x => match streamOf x.s stream with
    | none => x
    | some st =>
      let p0 := layerTokens st (aLayer cx.b)
      let (y, fresh) := (List.range (aNew cx.b)).foldl (appendToken cx r stream p0) (x, [])
      { y with appends := y.appends ++ [⟨stream, cx.k, aLayer cx.b, aNew cx.b, fresh⟩] }

/-- The keys or values of a page for a KV head: 16 rows of dh values. -/
def pageVectors (K : Pool) (bytes : List Byte) (g base : Nat) : List (List FV) :=
  let f := fmtOf K.fmtKv
  (List.range 16).map fun t =>
    (piecesOf (wKv K) (K.dh + 1) ((bytes.drop (base + (g * 16 + t) * K.dh * wKv K)).take (K.dh * wKv K))).map fun e => elemFV f (ofLe e)

/-- The running m, l and o of R261. -/
structure Soft where
  m : FV
  l : FV
  o : List FV
  deriving DecidableEq, Repr

/-- One page of R261: the visible rows of keys and values. -/
def attendPage (s : State) (z : Bool) (scale : FV) (fp16 : Bool) (q : List FV) (acc : Soft) (rows : List (List FV × List FV)) : Soft :=
  let sc := rows.map fun (k, _) => fmul scale (accumulate pzero ((List.zipWith exactMul q k).map some))
  let mn := fmax acc.m (rowMax sc)
  let c := fExp s z (fsub acc.m mn)
  let t : Fmt := if fp16 then .fp16 else .bf16
  let pr := sc.map fun v => elemFV t (narrow t .nearest false (fExp s z (fsub v mn))).1
  { m := mn
    l := fadd (fmul acc.l c) (pr.foldl accStep pzero)
    o := ((List.range acc.o.length).zip acc.o).map fun (d, v) =>
      fadd (fmul v c) ((List.zipWith (fun w (r : List FV × List FV) => exactMul w (r.2.getD d pzero)) pr rows).foldl accStep pzero) }

/-- The pages of a stream after its append: directory entries, then the new pages. -/
def historyPage (s : State) (cx : AttendCtx) (appends : List Append) (stream idx : Nat) : Option Nat :=
  match (appends.find? (·.stream == stream)).bind fun a => lookupKey idx a.pages with
  | some id => some id
  | none => ((streamOf s stream).bind fun st => dirEntry st (aLayer cx.b) idx).map (·.page)

/-- Out and lse of one query row and head. -/
def attendHead (s : State) (cx : AttendCtx) (K : Pool) (pages : List (Nat × List Byte)) (p0 row i h : Nat) :
    Except Fail (List FV × FV) := do
  let z := (partOf s cx.p).cfg.zg40
  let fq := fmtOf (aFmtQ cx.b)
  let q ← loadRow s cx.p fq (fld cx.b 0 48 + row * aQRow cx.b + h * K.dh * elemBits fq / 8) K.dh
  let g := h / max 1 (aGroup cx.b)
  let lo := visibleFrom cx.b p0 i
  let hi := p0 + i
  let fp16 : Bool := fmtOf K.fmtKv == Fmt.fp16
  let acc : Soft := pages.foldl (fun (a : Soft) (idx, bytes) =>
    let ks := pageVectors K bytes g 0
    let vs := pageVectors K bytes g (pageBytes K / 2)
    let rows : List (List FV × List FV) := ((List.range 16).zip (ks.zip vs)).filterMap fun (t, kv) =>
      if lo ≤ idx * 16 + t ∧ idx * 16 + t ≤ hi then some kv else none
    if rows.isEmpty then a else attendPage s z (f32 (aScale cx.b)) fp16 q a rows)
    { m := ninf, l := pzero, o := List.replicate K.dh pzero }
  let r := fRecip s acc.l
  pure (acc.o.map fun v => fmul v r, fadd acc.m (fLog s z acc.l))

/-- The attention of one list entry: its pages made present, then out and lse of its rows. -/
def attendStream (cx : AttendCtx) (acc : Kv × List OutRow) (r stream : Nat) : Kv × List OutRow :=
  let (x, out) := acc
  match x.fail, streamOf x.s stream with
  | none, some st =>
    let p0 := layerTokens st (aLayer cx.b)
    let idxs := visiblePages cx.b p0
    let (y, pages) := idxs.foldl (fun (z, ps) idx => match z.fail, historyPage z.s cx z.appends stream idx with
      | none, some id =>
        let (w, bs) := presentPage cx stream idx id z
        (w, ps ++ [(idx, bs)])
      | _, _ => (z, ps)) (x, [])
    match y.fail, poolOf y.s cx.p cx.k with
    | none, some K =>
      let rows : Except Fail (List (List OutRow)) := (List.range (aNew cx.b)).mapM fun i => do
        let row := r * aNew cx.b + i
        let heads : List (List FV × FV) ← (List.range (aHeads cx.b K)).mapM fun h => attendHead y.s cx K pages p0 row i h
        let o := outRow (aFmtOut cx.b) (fun j => laneOf cx.seed (aRstream cx.b) 0 row j) (fld cx.b 64 48 + row * aOutRow cx.b) 0
          (heads.flatMap (·.1))
        let lse := if aLse cx.b = 0 then [] else
          ((List.range heads.length).zip heads).map fun (h, v) =>
            let (w, ev) := narrow .fp32 .nearest false v.2
            ({ va := aLse cx.b + (row * aHeads cx.b K + h) * 4, sva := 0, bytes := toLe 4 w, scales := [], ev := ev } : OutRow)
        pure (o :: lse)
      match rows with
      | .ok rs => (y, out ++ rs.flatten)
      | .error f => (y.failWith f, out)
    | _, _ => (y, out)
  | _, _ => acc

/-- Give back what a failed ATTEND allocated (R264): new identifiers, and busy marks. -/
def releaseAppends (s : State) (p : Nat) (appends : List Append) : State :=
  appends.foldl (fun x a => setPool x p a.pool fun K =>
    { K with recs := K.recs.filter fun e => !(a.pages.map (·.2)).contains e.1 }) s

/-- New pages of executing ATTENDs on pool `k`, which no directory names yet. -/
def appendingPages (s : State) (p k : Nat) : List Nat :=
  s.queues.flatMap fun Q => match Q.cmd with
    | some c => if Q.cfg.part == p then c.appends.flatMap fun a => if a.pool == k then a.pages.map (·.2) else [] else []
    | none => []

/-- Clear the busy marks of a pool's pages that no executing ATTEND reads; the committing command has left its queue. DEDUCED, log
entry 37. -/
def clearBusy (s : State) (p k : Nat) : State :=
  let others := attendedPages s p k ++ appendingPages s p k
  setPool s p k fun K => { K with recs := K.recs.map fun (i, g) => (i, { g with busy := g.busy && others.contains i }) }

/-- ATTEND once its operands are ready; without a slot because of busy pages, it waits again (R270). DEDUCED, log entry 39. -/
def computeAttend (s : State) (q : Nat) : State :=
  let Q := queueOf s q
  let p := Q.cfg.part
  match Q.cmd with
  | none => s
  | some c =>
    let b := c.body
    match poolOf s p (aPool b) with
    | none => s
    | some K0 =>
      let ws := (List.range (aCols K0)).mapM fun i => loadRow s p (fmtOf (aFmtW b)) (fld b 192 48 + i * aWCol b) K0.inDim
      let bias := if aBias b = 0 then .ok (List.replicate (aCols K0) pzero) else loadRow s p .fp32 (aBias b) (aCols K0)
      match ws, bias with
      | .error f, _ | _, .error f => endEarly s q p f c.outs 0
      | .ok ws, .ok bias =>
        let cx : AttendCtx := { p := p, q := q, b := b, k := aPool b, ws := ws, bias := bias,
                                us := (c.start.getD s.now) / 1000, seed := c.seed }
        let entries := (List.range c.streams.length).zip c.streams
        let x1 := entries.foldl (fun x (r, id) => appendStream cx x r id)
          { s := s, fail := none, rebuilt := 0, ns := 0, appends := [], rows := [], slots := 0, ids := 0, ev := .none }
        let (x2, rows) := entries.foldl (fun acc (r, id) => attendStream cx acc r id) (x1, [])
        let used (r : Nat × Nat) : Nat := if r.1 = cx.k then x2.slots else if r.1 = cx.k + 8 then x2.ids else 0
        let s1 := setCmd x2.s q fun y => { y with appends := x2.appends, reserved := y.reserved.map fun r => (r.1, r.2 - used r) }
        let endAt (f : Fail) : State :=
          let s2 := if f.status = .memRecomputeFailed then
              poolCount s1 p cx.k fun n => { n with failed := satAdd 32 n.failed 1 } else s1
          endEarly s2 q p f c.outs 0
        match x2.fail with
        | some f => if f.status = .loadQuota then setCmd s q fun x => { x with waiting := some s.now } else endAt f
        | none => match storeAll s1 p q (outWrites rows) with
          | .error f => endAt f
          | .ok s2 =>
            setResult s2 q (completedResult (worse x2.ev (outEvent rows)) (weightStall s p c (fld b 192 48))
              (if x2.rebuilt = 0 then none else some (x2.rebuilt, x2.ns)) (aItems b K0))

/-- R264 at the commit of an ATTEND, after it has left its queue: on success token counts, fills and directory entries rise; otherwise
the identifiers are given back. -/
def commitAttend (s : State) (p : Nat) (c : Cmd) (ok : Bool) : State :=
  let k := aPool c.body
  let s1 := clearBusy s p k
  if !ok then releaseAppends s1 p c.appends
  else c.appends.foldl (fun x a => match streamOf x a.stream, poolOf x p a.pool with
    | some st, some K =>
      let p0 := layerTokens st a.layer
      let last := p0 + a.count
      -- the root and new directory units
      let (rootU, K1) := match st.kv with
        | some kv => (kv.unit, K)
        | none => match takeUnits K 1 with | some (us, J) => (us.headD 0, J) | none => (0, K)
      let root : KvRoot := st.kv.getD { pool := a.pool, unit := rootU, tokens := [], units := [], dir := [] }
      let have_ := (lookupKey a.layer root.units).getD []
      let need := ceilDiv (ceilDiv last 16) 1024 - have_.length
      let (fresh, K2) := match takeUnits K1 need with | some (us, J) => (us, J) | none => ([], K1)
      let dir1 := a.pages.foldl (fun d (idx, id) => insertKey (dirKey a.layer idx) { page := id, pin := false } d) root.dir
      let root1 : KvRoot := { root with
        tokens := insertKey a.layer last root.tokens
        units := if have_.length + fresh.length = 0 then root.units else insertKey a.layer (have_ ++ fresh) root.units
        dir := dir1 }
      let x1 := setStream (setPool x p a.pool fun _ => K2) a.stream fun y => { y with kv := some root1, kvTokens := maxTokens root1 }
      let touched := rangeFrom (p0 / 16) ((last - 1) / 16 + 1 - p0 / 16)
      let x2 := touched.foldl (fun y idx => match lookupKey (dirKey a.layer idx) dir1 with
        | some e => setPage y p a.pool e.page fun g => { g with fill := min 16 (last - 16 * idx) }
        | none => y) x1
      poolCount x2 p a.pool fun n => { n with appended := satAdd 48 n.appended a.count }
    | _, _ => x) s1

/-- The grid of ATTEND: projection items, then attention items, each of its rows and holding the slots of R265. DESIGN CHOICE, log
entry 171. -/
def attendGrid (b : Nat) (K : Pool) : Grid :=
  let n := aItems b K
  let proj := aStreams b * ceilDiv (aCols K) 64
  { items := n, tiles := n, tm := n, tn := 1, gm := 1, gn := 1, byColumn := false, chunks := 1, passes := 1, lastPasses := 1,
    m := 64 * n, n := 64, mt := 64, nt := 64, itemRows := List.replicate proj (aNew b) ++ List.replicate (n - proj) (aGroup b * aNew b),
    harrowPasses := 1, gates := 1, slots := aSlots K, live := aSlots K, spill := 0, spare := 0, harrowOnly := false, overlap := false,
    split := false, holds := false, haloWidth := 0, halo := [], scan := 0 }

/-- R265: an attention item starts after the projection items of its stream. -/
def attendAfter (b : Nat) (K : Pool) : List (Nat × List Nat) :=
  let per := ceilDiv (aCols K) 64
  (List.range (aStreams b)).flatMap fun r => (List.range K.hkv).map fun g =>
    (aStreams b * per + r * K.hkv + g, rangeFrom (r * per) per)

/-- The start of ATTEND after stage B: reservations (R271), the work record and the window fence. -/
def startAttend (s : State) (q : Nat) (Q : Queue) (c : Cmd) : State :=
  let p := Q.cfg.part
  let b := c.body
  match poolOf s p (aPool b), namedStreams s p c.hdr b 320 (aStreams b) with
  | some K, .ok (some ids) =>
    let (slots, nid, units) := attendNeeds s K b ids
    let s1 := openWork s q { newWork s p (attendGrid b K) with after := attendAfter b K }
    let held := [(aPool b, slots), (aPool b + 8, nid), (aPool b + 16, units)]
    gated (setCmd s1 q fun x => { x with outs := aOuts b K, streams := ids, reserved := held }) q p
      (aReads b K) fun st => computeAttend st q
  | _, _ => s

/-- STREAM operations that exclude an ATTEND on a stream (R265): a fork, an export with KV, an import into a target, a
retirement or a PAGE_PIN. -/
def excludesAttend (c : Cmd) : Bool :=
  let op := hOpcode c.hdr
  op == 0x301 || op == 0x306 || op == 0x320 || (op == 0x304 && bitOf c.body 137) || (op == 0x305 && bitOf c.body 144)

/-- R207: whether a command advances resident state. -/
def advancesState (c : Cmd) : Bool := hOpcode c.hdr == 0x111 || (hOpcode c.hdr == 0x110 && lResident c.body)

/-- R207, R265: whether an ATTEND waits in CHECK. -/
def attendWaits (s : State) (q : Nat) : Bool :=
  let Q := queueOf s q
  match Q.cmd with
  | none => false
  | some c => match namedStreams s Q.cfg.part c.hdr c.body 320 (aStreams c.body) with
    | .ok (some ids) => anyTransit s ids || !(queuesWhere s fun R => match R.cmd with
        | some d => R.state == .run && d.streams.any ids.contains
            && (excludesAttend d || advancesState d || (hOpcode d.hdr == 0x120 && aLayer d.body == aLayer c.body))
        | none => false).all (· == q)
    | _ => false

/-- ATTEND (R259 to R274, R277 to R280). -/
def execAttend (q : Nat) (s : State) : Host.Outcome State Fault Refusal :=
  if attendWaits s q then .next s else .next (runCommand s q 0x120 checksAttend (fun st Q c => startAttend st q Q c))

end Sys2Proof.Machine
end

