-- ==== Sys2Proof/Machine/Transitions.lean ====
section
/-! DEFINITION. How a stream moves between its states (R233 to R242): images and their reservations, cohorts and granules,
parking, resuming, retiring, losses, boundary moves (R249), and what an abort takes back (R252). -/

namespace Sys2Proof.Machine

/-! ### Images (R241) -/

/-- Bytes of a layout's fallow image. -/
def imageBytes (rs : List Record) : Nat := (rs.map recBytes).foldl (· + ·) 0

/-- Quota units of 4 KiB of an image. -/
def imageUnits (rs : List Record) : Nat := ceilDiv (imageBytes rs) 4096

/-- Frames of an image. -/
def imageFrames (rs : List Record) : Nat := max 1 (ceilDiv (imageBytes rs) plotBytes)

/-- The lowest run of `n` consecutive free frames of the first of some slices that has one. -/
def runIn (s : State) (n : Nat) (slices : List Nat) : Option (List Nat) :=
  slices.findSome? fun sl =>
    let free := freeInSlice s sl
    (free.find? fun f => (rangeFrom f n).all free.contains).map fun f => rangeFrom f n

/-- A run in the partition's ways. -/
def takeRun (s : State) (p n : Nat) : Option (List Nat) := runIn s n (partSlices s (partOf s p))

/-- Bytes filled with zeros to `n`. -/
def padTo (n : Nat) (bs : List Byte) : List Byte := bs ++ List.replicate (n - bs.length) 0

/-- The image of a resident stream: its records back to back, each rounded up to 64 bytes. DEDUCED, log entry 40. -/
def stateImage (s : State) (st : Stream) : List Byte :=
  let rs := recordsOf s st
  ((List.range rs.length).zip rs).flatMap fun (i, r) => padTo (recBytes r) (packFields (fieldBits r) (readState s st i r))

/-- The fields of a record in the bytes of its part of an image. -/
def imageFields (r : Record) (bs : List Byte) : List Nat :=
  let x := ofLe (bs.take (recBytes r))
  (List.range r.n).map fun i => fld x (fieldBits r * i) (fieldBits r)

/-- Write an image into a resident stream's granules. -/
def loadImage (s : State) (st : Stream) (bs : List Byte) : State :=
  let rs := recordsOf s st
  (((List.range rs.length).zip rs).foldl (fun (x, rest) (i, r) =>
    (writeState x st i r (imageFields r rest), rest.drop (recBytes r))) (s, bs)).1

/-- The bytes of a PARKED stream's image, or its uncorrectable error. -/
def readImage (s : State) (st : Stream) : Except Fail (List Byte) :=
  physLoad s (loamAddr (st.image.headD 0)) (imageBytes (recordsOf s st))

/-- The lines of a PARKED stream's image are read. -/
def useImage (s : State) (st : Stream) : State :=
  if st.st = .parked then
    useLines s st.part (rangeFrom (loamAddr (st.image.headD 0) / 64) (ceilDiv (imageBytes (recordsOf s st)) 64))
  else s

/-- The plaintext of a stream's records, wherever they are. -/
def recordBytes (s : State) (st : Stream) : Except Fail (List Byte) :=
  if st.st = .resident then .ok (stateImage s st) else readImage s st

/-- Give back an image's frames and quota. -/
def freeImage (s : State) (id : Nat) : State :=
  match streamOf s id with
  | none => s
  | some st =>
    if st.image.isEmpty then s
    else setStream (uncharge s st.part (imageUnits (recordsOf s st)) 0) id fun x => { x with image := [], imageAddr := 0 }

/-- Reserve an image for queue `q`'s command at check 20: its units and frames. -/
def reserveImage (s : State) (p q : Nat) (rs : List Record) : Option (Nat × List Nat × State) :=
  match takeRun s p (imageFrames rs) with
  | none => none
  | some fs =>
    if loamLeft (partOf s p) < imageUnits rs then none
    else some (imageUnits rs, fs, setCmd (charge s p (imageUnits rs) 0) q fun c =>
      { c with resFrames := c.resFrames ++ fs, chargeLoam := c.chargeLoam + imageUnits rs })

/-- Reserve several images in order; nothing when one finds no room. -/
def reserveImages (s : State) (p q : Nat) : List (List Record) → Option (List (Nat × List Nat) × State)
  | [] => some ([], s)
  | rs :: rest => match reserveImage s p q rs with
    | none => none
    | some (u, fs, s1) => match reserveImages s1 p q rest with
      | none => none
      | some (xs, s2) => some ((u, fs) :: xs, s2)

/-- Release a reservation of queue `q`'s command. -/
def dropReservation (s : State) (p q units : Nat) (frames : List Nat) : State :=
  setCmd (uncharge s p units 0) q fun c =>
    { c with resFrames := c.resFrames.filter (!frames.contains ·), chargeLoam := c.chargeLoam - units }

/-- Turn a reservation into an image of a layout: the reserved frames with their charge, whatever the quota is by now, or others
where a slice failure has taken them and quota is left (R241, R517). The reservation is released either way. -/
def claimImage (s : State) (p q units : Nat) (frames : List Nat) (rs : List Record) : Option (List Nat) × State :=
  let s1 := dropReservation s p q units frames
  let fit := frames.length == imageFrames rs && frames.all fun f => !s.flt.frames.contains f && !s.flt.slices.contains (f / 768)
  if fit then (some frames, charge s1 p (imageUnits rs) 0)
  else match takeRun s1 p (imageFrames rs) with
    | none => (none, s1)
    | some fs => if loamLeft (partOf s1 p) < imageUnits rs then (none, s1) else (some fs, charge s1 p (imageUnits rs) 0)

/-! ### Cohorts (R106, R239) -/

/-- Granules that cohorts hold. -/
def usedGranules (s : State) : List Nat := s.cohorts.flatMap fun (_, c) => c.granules.flatten

/-- Free granules of an engine, downward from 63 (R106): a slot with a product tile holds no state. -/
def freeGranules (s : State) (used : List Nat) (e : Nat) : List Nat :=
  (List.range 64).reverse.filterMap fun g => match (engineOf s e).slots[g / 4]? with
    | some sl => if (sl.st == .free || sl.st == .state) && !used.contains (e * 64 + g) then some (e * 64 + g) else none
    | none => none

/-- `n` granules: of the lowest-indexed engine that has them all free, else across engines in ascending index. -/
def takeGranules (s : State) (p n : Nat) : Option (List Nat) :=
  let es := grantEngines s p
  let used := usedGranules s
  match es.find? fun e => decide (n ≤ (freeGranules s used e).length) with
  | some e => some ((freeGranules s used e).take n)
  | none =>
    let all := es.flatMap (freeGranules s used)
    if n ≤ all.length then some (all.take n) else none

/-- Hand out granules to the records in order. -/
def dealGranules : List Record → List Nat → List (List Nat)
  | [], _ => []
  | r :: rs, gs => gs.take (recGranules r) :: dealGranules rs (gs.drop (recGranules r))

/-- A slot that holds state (Table 4-4). -/
def stateSlot : Slot := { st := .state, q := 0, tile := 0, lost := false }

/-- The slots of new state granules enter STATE. -/
def enterState (s : State) (gs : List Nat) : State := gs.foldl (fun x g => setSlot x (g / 64) (g % 64 / 4) stateSlot) s

/-- The slots of granules given back leave STATE with the last state granule. -/
def leaveState (s : State) (gs : List Nat) : State :=
  let used := usedGranules s
  gs.foldl (fun x g => if (rangeFrom (g / 4 * 4) 4).any used.contains then x else setSlot x (g / 64) (g % 64 / 4) freeSlot) s

/-- Whether two slots of a partition hold the same layout: equal digests, hence equal contents (R232). DEDUCED, log entry 159. -/
def sameLayout (P : Partition) (a b : Nat) : Bool := a == b || ((lookupKey a P.layouts).isSome && lookupKey a P.layouts == lookupKey b P.layouts)

/-- The lowest-numbered cohort of a layout with a free row (R239): the layout that its members have now. -/
def openCohort (s : State) (p layout : Nat) : Option (Nat × Cohort) :=
  s.cohorts.find? fun (_, c) => c.part == p && decide (c.members.length < 16)
    && (c.members.any fun (_, id) => match streamOf s id with | some y => sameLayout (partOf s p) y.layout layout | none => false)

/-- The lowest free cohort number, from 0 to 12,287. -/
def freeCohort (s : State) : Option Nat := lowestFree (s.cohorts.map (·.1)) 12288

/-- Put a stream into a cohort, at its lowest free row, or into a new one; nothing when there is no room. -/
def joinCohort (s : State) (id : Nat) : Option State :=
  match streamOf s id with
  | none => none
  | some st =>
    let place (x : State) (n row : Nat) (c : Cohort) : State :=
      setStream { x with cohorts := insertKey n { c with members := insertKey row id c.members } x.cohorts } id
        fun y => { y with cohort := n, row := row }
    match openCohort s st.part st.layout with
    | some (n, c) => (lowestFree (c.members.map (·.1)) 16).map fun row => place s n row c
    | none =>
      let rs := recordsOf s st
      match freeCohort s, takeGranules s st.part ((rs.map recGranules).foldl (· + ·) 0) with
      | some n, some gs =>
        some (place (enterState s gs) n 0 { part := st.part, layout := st.layout, members := [], granules := dealGranules rs gs })
      | _, _ => none

/-- A stream's row of a cohort is free again; the granules go back with the last member (R239). -/
def releaseRow (s : State) (n row id : Nat) : State :=
  match cohortOf s n with
  | none => s
  | some c =>
    if lookupKey row c.members != some id then s
    else
      let left := eraseKey row c.members
      if left.isEmpty then leaveState { s with cohorts := eraseKey n s.cohorts } c.granules.flatten
      else { s with cohorts := insertKey n { c with members := left } s.cohorts }

/-- A resident stream leaves its cohort. -/
def leaveCohort (s : State) (id : Nat) : State :=
  match streamOf s id with
  | none => s
  | some st =>
    if st.st != .resident then s
    else releaseRow (setStream s id fun x => { x with cohort := 0, row := 0 }) st.cohort st.row id

/-! ### Transitions (Table 10-2) -/

/-- A stream is PARKED with its image in frames. -/
def storeParked (s : State) (q id : Nat) (frames : List Nat) (bs : List Byte) : State :=
  match streamOf s id with
  | none => s
  | some st =>
    let addr := loamAddr (frames.headD 0)
    let s1 := match physStore s st.part q addr bs with
      | .ok x => x
      | .error _ => s
    setStream s1 id fun x => { x with st := .parked, cohort := 0, row := 0, image := frames, imageAddr := addr, transit := true }

/-- RESIDENT to PARKED, into the claimed frames. -/
def toParked (s : State) (q id : Nat) (frames : List Nat) : State :=
  match streamOf s id with
  | none => s
  | some st => storeParked (leaveCohort s id) q id frames (stateImage s st)

/-- R236: a stream whose state is gone is IDLE with lost set; its image and granules go back. R237 keeps undef. DEDUCED, log entry 158. -/
def toLost (s : State) (id : Nat) : State :=
  setStream (freeImage (leaveCohort s id) id) id fun x => { x with st := .idle, lost := true }

/-- An uncorrectable error in a PARKED stream's image (Table 10-2, R252): the stream is lost, whichever command read it. -/
def loseImage (s : State) (id : Nat) (f : Fail) : State :=
  setStream (toLost s id) id fun x => { x with lastStatus := statusCode f.status }

/-- A stream at zero state: every state word and residual is +0. -/
def zeroImage (rs : List Record) : List Byte := List.replicate (imageBytes rs) 0

/-- IDLE or PARKED to RESIDENT; the failure that ends it otherwise, with the state it leaves (Tables 10-2, 10-11). -/
def toResident (s : State) (id : Nat) : Option Fail × State :=
  match streamOf s id with
  | none => (some (failAt .streamBadState 0 0), s)
  | some st => match joinCohort (useImage s st) id with
    | none => (some (failAt .streamNoRoom 0 0), s)
    | some s1 =>
      let rs := recordsOf s st
      let image : Except Fail (List Byte) := if st.st = .parked then readImage s1 st else .ok (zeroImage rs)
      match image with
      | .error f => (some f, loseImage (useImage s st) id f)
      | .ok bs =>
        let s2 := setStream (freeImage s1 id) id fun x =>
          { x with st := .resident, lost := false, transit := st.st == .parked }
        match streamOf s2 id with
        | some st2 => (none, loadImage s2 st2 bs)
        | none => (none, s2)

/-- Retirement: granules or image freed, KV references released (R266). -/
def retireStream (s : State) (id : Nat) : State :=
  setStream (releaseKv (freeImage (leaveCohort s id) id) id) id fun x =>
    { x with st := .retired, undef := false, imageAddr := 0 }

/-- Whether a stream may be retired. -/
def retirable (st : Stream) : Bool := st.st != .retired

/-- Whether a stream may be parked (R237). -/
def parkable (st : Stream) : Bool := st.st == .resident && !st.undef

/-- A boundary move of R249 when its step commits: its status, and the state. A move that fails changes nothing but
releases its reservation (R241). -/
def boundaryMove (s : State) (p q : Nat) (m : BMove) : Status × State :=
  let free := dropReservation s p q m.units m.frames
  let done (x : State) : Status × State := (.completed, setStream x m.id fun y => { y with lastStatus := 0 })
  match streamOf s m.id with
  | none => (.streamBadState, free)
  | some st =>
    if m.op = 1 then
      if parkable st then
        match claimImage s p q m.units m.frames (recordsOf s st) with
        | (some fs, s1) => done (toParked s1 q m.id fs)
        | (none, s1) => (.faultUnrecovered, s1)
      else (.streamBadState, free)
    else if m.op = 2 then
      if st.st = .parked then
        match toResident s m.id with
        | (none, s1) => done s1
        | (some f, s1) => (f.status, s1)
      else (.streamBadState, free)
    else if retirable st then done (retireStream s m.id)
    else (.streamBadState, free)

/-- R207: whether an executing command that names the stream, or an earlier move of it that waits, holds a boundary move back. -/
def moveBlocked (s : State) (p : Nat) (m : BMove) : Bool :=
  ((partOf s p).deferred.takeWhile (· != m)).any (·.id == m.id)
    || s.queues.any fun R => match R.cmd with
        | some d => R.state == .run && d.streams.contains m.id && (advancesState d || (m.op == 3 && hOpcode d.hdr == 0x120))
        | none => false

/-- Whether a boundary move is accepted: its stream's state allows it (R249). -/
def moveAccepted (s : State) (m : BMove) : Bool :=
  match streamOf s m.id with
  | none => false
  | some st => if m.op = 1 then parkable st else if m.op = 2 then st.st == .parked else retirable st

/-- An accepted move waits with its reservation, which its command no longer holds (R207). DEDUCED, log entry 45. -/
def deferMove (s : State) (p q : Nat) (m : BMove) : State :=
  setPart (setCmd s q fun c => { c with resFrames := c.resFrames.filter (!m.frames.contains ·), chargeLoam := c.chargeLoam - m.units }) p
    fun P => { P with deferred := P.deferred ++ [m] }

/-- The moves of a partition that nothing holds back any more take effect. -/
def runDeferred (s : State) (p : Nat) : State :=
  (partOf s p).deferred.foldl (fun x m =>
    if moveBlocked x p m then x
    else (boundaryMove (setPart x p fun P => { P with deferred := P.deferred.filter (· != m) }) p ownerless m).2) s

/-! ### Allocation (R238) -/

/-- The lowest `n` FREE or RETIRED identifiers of a partition's range. -/
def allocIds (s : State) (P : Partition) (n : Nat) : Option (List Nat) :=
  let used := s.streams.filterMap fun (id, st) => if inRange P id && st.st != .retired then some (id - P.cfg.firstStream) else none
  let ids := lowestFrees used P.cfg.streams n
  if ids.length = n then some (ids.map (· + P.cfg.firstStream)) else none

/-- A new descriptor (Table 10-1). -/
def newStream (p layout model id tag : Nat) : Stream :=
  { part := p, st := .idle, layout := layout, model := model, parent := id, tag := tag, step := 0, cohort := 0, row := 0,
    image := [], imageAddr := 0, blobUnits := 0, kv := none, kvTokens := 0, lastStatus := 0, dirty := false, transit := false,
    undef := false, lost := false }

/-- Set an entry of the stream table. -/
def putStream (s : State) (id : Nat) (st : Stream) : State := { s with streams := insertKey id st s.streams }

/-- Restore an entry of the stream table. -/
def restoreStream (s : State) (id : Nat) (prior : Option Stream) : State :=
  match prior with
  | some st => putStream s id st
  | none => { s with streams := eraseKey id s.streams }

/-- The entries of streams as they are. -/
def snapshot (s : State) (ids : List Nat) : List (Nat × Option Stream) := ids.map fun id => (id, streamOf s id)

/-! ### What an abort takes back (R252) -/

/-- A child, or a created stream, is taken out of the table. -/
def undoChild (s : State) (id : Nat) (prior : Option Stream) : State :=
  restoreStream (releaseKv (freeImage (leaveCohort s id) id) id) id prior

/-- Whether a stream still has the row of a cohort in which its state stood: STREAM_PARK gives it back at its commit only, so that an
abort finds the state there (R252). DEDUCED, log entry 44. -/
def rowKept (s : State) (id : Nat) (prior : Stream) : Bool :=
  match cohortOf s prior.cohort with | some c => lookupKey prior.row c.members == some id | none => false

/-- A park is taken back: the descriptor is as before, and the state still stands in its granules. -/
def undoPark (s : State) (id : Nat) (prior : Stream) : State :=
  match streamOf s id with
  | none => s
  | some st => if st.st == .parked && rowKept s id prior then putStream (freeImage s id) id prior else s

/-- The frames and the charge of a parked stream's image go to queue `q`'s command, which gives them back at its commit. DEDUCED, log
entry 44. -/
def keepImage (s : State) (q : Nat) (st : Stream) : State :=
  let units := if st.image.isEmpty then 0 else imageUnits (recordsOf s st)
  setCmd (charge s st.part units 0) q fun c => { c with resFrames := c.resFrames ++ st.image, chargeLoam := c.chargeLoam + units }

/-- A resume is taken back: the descriptor is as before, with its image in the frames that the command has kept. -/
def undoResume (s : State) (q id : Nat) (prior : Stream) : State :=
  match streamOf s id with
  | none => s
  | some st =>
    if st.st != .resident then s
    else
      let units := if prior.image.isEmpty then 0 else imageUnits (recordsOf s prior)
      setCmd (putStream (leaveCohort s id) id prior) q fun c =>
        { c with resFrames := c.resFrames.filter (!prior.image.contains ·), chargeLoam := c.chargeLoam - units }

/-- At the commit of a STREAM_PARK the rows of the streams that it has parked are given back. -/
def releaseRows (s : State) (c : Cmd) : State :=
  if hOpcode c.hdr = 0x302 then c.undo.foldl (fun x (id, prior) => match prior, streamOf x id with
    | some y, some st => if st.st == .resident && st.cohort == y.cohort && st.row == y.row then x else releaseRow x y.cohort y.row id
    | some y, none => releaseRow x y.cohort y.row id
    | none, _ => x) s
  else s

/-- R252: a STREAM command that ends with class 0x8 leaves every descriptor as before. -/
def undoStreams (s : State) (q : Nat) (c : Cmd) : State :=
  c.undo.foldl (fun x (id, prior) =>
    match hOpcode c.hdr, prior with
    | 0x302, some st => undoPark x id st
    | 0x303, some st => undoResume x q id st
    | _, _ => undoChild x id prior) s

end Sys2Proof.Machine
end

