-- ==== Sys2Proof/Machine/Commit.lean ====
section
/-! DEFINITION. How a command ends: its status at the queue head (R78 to R81, R84), the completion record (Table 3-3), what
a commit gives back, swaths settled by fences and ticks (R247, R248, R250, R420 to R424), and aborts (R87 to R92). -/

namespace Sys2Proof.Machine

/-! ### The ring (R65 to R67) -/

/-- Ring size in 64-byte units. -/
def ringUnits (Q : Queue) : Nat := 2 ^ (Q.cfg.ringLog2 - 6)

/-- Address of the unit at a count. -/
def ringAddr (Q : Queue) (count : Nat) : Nat := Q.cfg.base + count % ringUnits Q * 64

/-- Units from the head to a count, modulo 2^32. -/
def ringDiff (a b : Nat) : Nat := (a + 2 ^ 32 - b % 2 ^ 32) % 2 ^ 32

/-- The units by which the head passes a header: the header alone when the command exceeds the ring (R67). -/
def headStep (Q : Queue) (units : Nat) : Nat := if ringUnits Q < 1 + units then 1 else 1 + units

/-- The commands that lie whole between a count and the tail, by their headers. -/
def issuedFrom (s : State) (Q : Queue) : Nat → Nat → Nat
  | 0, _ => 0
  | fuel + 1, pos =>
    if ringDiff Q.tail pos = 0 then 0
    else match loadNat s Q.cfg.part (ringAddr Q pos) 64 with
      | .error _ => 0
      | .ok h =>
        let n := headStep Q (hUnits h)
        if ringDiff Q.tail pos < n then 0 else 1 + issuedFrom s Q fuel ((pos + n) % 2 ^ 32)

/-- The sequence number that the next command submitted will have: every command the tail covers is issued (R90). DEDUCED, log entry 55. -/
def issuedEnd (s : State) (q : Nat) : Nat :=
  let Q := queueOf s q
  let fuel := ringDiff Q.tail Q.head
  match Q.cmd with
  | some c => Q.seq + 1 + issuedFrom s Q fuel ((Q.head + headStep Q (hUnits c.hdr)) % 2 ^ 32)
  | none => Q.seq + issuedFrom s Q fuel Q.head

/-! ### Completion -/

/-- Whether a status class counts as completed with valid outputs. -/
def isDone (st : Status) : Bool := statusClass st == 0 || statusClass st == 3

/-- Start time of a record: the time at which execution began; the end time where it did not execute, and for TIMESTAMP
(Table 3-3, R86). -/
def startTime (s : State) (c : Cmd) : Nat := if hOpcode c.hdr = 0x003 then s.now else c.start.getD s.now

/-- The completion record (Table 3-3). -/
def recordBits (s : State) (q : Nat) (Q : Queue) (c : Cmd) (r : Result) : Nat :=
  putFld (statusCode r.status) 0 16 + putFld (hOpcode c.hdr) 28 12 + putFld q 40 8 + putFld Q.cfg.part 48 2 + putFld 1 63 1
    + putFld Q.seq 128 64 + putFld (hUserTag c.hdr) 192 64 + putFld (startTime s c) 256 64 + putFld s.now 320 64
    + putFld r.a 384 32 + putFld r.b 416 32 + putFld r.work 448 32

/-- Whether the owner of a queue is in a function-level reset: its host memory gets no record and it raises nothing (R444). -/
def ownerResets (s : State) (Q : Queue) : Bool := (pciFn s Q.cfg.owner).resetting

/-- Whether an address lies in a host plot whose requests carry a function's identifier. -/
def hostPlotOf (s : State) (p va fn : Nat) : Bool :=
  match locate s p va with
  | .ok (.host _ f) => f == fn
  | _ => false

/-- R78.1, R79, R84, R91: write the record when it is asked for and its address is aligned, mapped and writable. DEDUCED, log entry 48. -/
def writeRecord (s : State) (q : Nat) (Q : Queue) (c : Cmd) (r : Result) : State :=
  let a := hRecordAddr c.hdr
  if hRecord c.hdr && r.status != .loadBadRecord && a % 64 == 0 && mappedWrite s Q.cfg.part a 64 && !(ownerResets s Q && hostPlotOf s Q.cfg.part a Q.cfg.owner) then
    match storeOnce s Q.cfg.part q a (toLe 64 (recordBits s q Q c r)) with
    | .ok s1 => s1
    | .error _ => s
  else s

/-- R78.2, R75: signal the command's fence. DEDUCED, log entry 47. -/
def signalOf (s : State) (p : Nat) (c : Cmd) (r : Result) : State :=
  if hSignal c.hdr then signalCore s p (hSignalFence c.hdr) (hSignalValue c.hdr % 2 ^ 63) (isError r.status) else s

/-- R78.3: raise the queue's interrupt. -/
def irqOf (s : State) (Q : Queue) (c : Cmd) : State :=
  if hIrq c.hdr && !ownerResets s Q then raiseMsix s Q.cfg.owner Q.cfg.vector else s

/-- R81: count and capture a failed command. -/
def captureErr (e : ErrCapture) (st seq op : Nat) : ErrCapture :=
  if e.count = 0 then { count := 1, status := st, seq := seq, opcode := op } else { e with count := satAdd 32 e.count 1 }

/-- R340, R312: drain what the command left in the write-combining buffer; a write of its own that has failed, there or behind a plot
move, ends it. -/
def settleWcb (s : State) (q : Nat) (r : Result) : State × Result :=
  let s1 := drainWhere s fun e => e.queues.contains q
  let Q := queueOf s1 q
  match Q.cmd with
  | none => (s1, r)
  | some c => match c.late with
    | some f =>
      if isDone r.status then
        (drainWhere (havoc s1 Q.cfg.part q c.outs) fun e => e.queues.contains q, failResult f r.work)
      else (s1, r)
    | none => (s1, r)

/-- R111: held slots that the commit gives back: those of a holding or consuming command, not those that an earlier command left
for a successor that never reached its stage B. -/
def settleHeld (s : State) (q : Nat) (c : Cmd) (r : Result) : State :=
  let keeps : Bool := fld c.body 548 2 == 1 || fld c.body 548 2 == 2
  if (isError r.status && (isConsumer c || c.start.isSome)) || (isConsumer c && !keeps) then
    (if (queueOf s q).held.isEmpty then s else releaseHeld s q)
  else s

/-! ### Drill channels and queue pairs at the end of a command -/

def channelNo (s : State) (n : Nat) : Channel := s.drill.getD n noChannel

def setChannel (s : State) (n : Nat) (f : Channel → Channel) : State := { s with drill := modifyAt n f s.drill }

/-- The address at which a descriptor stores the CRC (Table 15-2). -/
def ddCrcAddr (d : Nat) : Nat := fld d 320 48

/-- The descriptor at which a channel command works (R363): its address and itself, the first that has not completed. -/
def currentDesc (s : State) (q : Nat) : Option (Nat × Nat) :=
  let Q := queueOf s q
  match Q.cmd with
  | some c => if (hOpcode c.hdr == 0x200 || hOpcode c.hdr == 0x201) && Q.state == .run && Q.result.isNone && c.waiting.isNone
      then (channelNo s Q.cfg.channel).store[c.done]? else none
  | none => none

/-- Whether a byte lies in a host plot to which the device may not write (R436, R496). DEDUCED, log entry 103. -/
def hostShut (s : State) (p va : Nat) : Bool :=
  (match lookupKey (va / plotBytes) (partOf s p).plots with | some pl => pl.home == .host | none => false)
    && (match locate s p va with | .ok _ => false | .error _ => true)

/-- The current descriptor of a channel command completes: its CRC is stored (R360, R363), or discarded where the device may not write
it (R436). -/
def finishDesc (s : State) (q : Nat) : State :=
  match currentDesc s q with
  | none => s
  | some (_, d) =>
    let Q := queueOf s q
    let crc := toLe 4 ((channelNo s Q.cfg.channel).crc ^^^ 0xFFFFFFFF).toNat
    let noStore := ddCrcAddr d == 0 || hostShut s Q.cfg.part (ddCrcAddr d)
    match (if noStore then .ok s else storeBytes s Q.cfg.part q (ddCrcAddr d) crc) with
    | .ok s1 => setCmd s1 q fun c => { c with done := c.done + 1, outs := if ddCrcAddr d = 0 then c.outs else c.outs ++ [(ddCrcAddr d, 4)] }
    | .error f => endEarly s q Q.cfg.part f (match Q.cmd with | some c => c.outs | none => []) (match Q.cmd with | some c => c.done | none => 0)

/-- The opcodes that occupy their drill channel (R355). -/
def onChannel (op : Nat) : Bool := op == 0x200 || op == 0x201 || op == 0x210 || op == 0x220

/-- At its commit a command leaves its channel IDLE, unless an error or a disable has moved it on (Tables 15-1, 15-4). -/
def leaveChannel (s : State) (q : Nat) (Q : Queue) (c : Cmd) (r : Result) : State :=
  if onChannel (hOpcode c.hdr) && Q.cfg.kind == 2 then
    setChannel s Q.cfg.channel fun ch =>
      if ch.cur == some q then
        { ch with
          cur := none
          st := if ch.st == .run then .idle else ch.st
          store := []
          retry := []
          counts := { ch.counts with
            cmds := if isDone r.status then satAdd 32 ch.counts.cmds 1 else ch.counts.cmds
            desc := satAdd 48 ch.counts.desc r.work } }
      else ch
  else s

/-- At its end a command waits on no queue pair and holds no barrier (R459). -/
def leaveNet (s : State) (q : Nat) (Q : Queue) : State :=
  if Q.cfg.kind == 4 then
    setPart { s with net := { s.net with qps := s.net.qps.map fun (i, x) =>
        (i, { x with sends := x.sends.filter (· != q), recvs := x.recvs.filter (· != q) }) } } Q.cfg.part
      fun P => { P with barriers := P.barriers.filter (·.q != q) }
  else s

/-! ### The commit -/

/-- What the queue is after a commit (Table 3-1). -/
def afterCommit (now : Nat) (Q : Queue) (c : Cmd) (r : Result) : Queue :=
  let head := (Q.head + headStep Q (hUnits c.hdr)) % 2 ^ 32
  { Q with
    state := if Q.cfg.halt && isError r.status then .halted else if ringDiff Q.tail head = 0 then .empty else .fetch
    head := head
    since := now
    seq := (Q.seq + 1) % 2 ^ 64
    cmd := none
    result := none
    counter := 0
    redispatch := []
    doomed := eraseKey Q.seq Q.doomed
    err := if isError r.status then captureErr Q.err (statusCode r.status) Q.seq (hOpcode c.hdr) else Q.err }

/-- No taker serves the command of a queue any more. -/
def leaveTakers (s : State) (q : Nat) : State :=
  let off (x : Option (Nat × Bool)) : Option (Nat × Bool) := match x with
    | some (i, b) => if i = q then none else some (i, b)
    | none => none
  { s with field := { s.field with
    engines := s.field.engines.map fun E => { E with cur := off E.cur }
    harrows := s.field.harrows.map fun H => { H with cur := off H.cur } } }

/-- What a command gives back as its status commits: its takers, its readers' places, quota and frames, channel and queue
pairs (R241, R315, R321). -/
def giveBack (s : State) (q : Nat) (Q : Queue) (c : Cmd) (r : Result) : State :=
  let s0 := if c.work.isSome then leaveTakers s q else s
  let s1 := setReaders s0 Q.cfg.part q (c.windows.map fun (w, i) => w * 4096 + i) false
  leaveNet (leaveChannel (uncharge s1 Q.cfg.part c.chargeLoam c.chargeSub) q Q c r) q Q

/-- The streams of its partition that a command on resident state names: those it has started with, its list, or its header's where
it has not read the list. -/
def statesNamed (s : State) (p : Nat) (c : Cmd) : List Nat :=
  let op := hOpcode c.hdr
  let listed (lo n : Nat) : List Nat := match namedStreams s p c.hdr c.body lo n with | .ok (some xs) => xs | _ => [hStreamId c.hdr]
  let ids := if !c.streams.isEmpty then c.streams
    else if op = 0x111 then listed 320 (rCount c.body)
    else if op = 0x110 ∧ lResident c.body = true then listed 384 (lSeqs c.body) else []
  ids.filter (inRange (partOf s p))

/-- R228, R237: a command on resident state that ends with class 0x2, or 0x6 to 0x8, whether it has begun or not, leaves the state of
the streams that it names undefined. -/
def undefNamed (s : State) (p : Nat) (c : Cmd) (r : Result) : State :=
  if advancesState c && [2, 6, 7, 8].contains (statusClass r.status) then
    (statesNamed s p c).foldl (fun x id => match streamOf x id with
      | some st => if st.undef then x else markUndef x id
      | none => x) s
  else s

/-! ### Window fills (R320, Table 13-9) -/

def wfOutLen (b : Nat) : Nat := fld b 128 32
def wfPos (b : Nat) : Nat := fld b 160 12
def wfWin (b : Nat) : Nat := fld b 172 3

def winOf (s : State) (p w : Nat) : Option Window := lookupKey w (partOf s p).windows

def setWin (s : State) (p w : Nat) (f : Window → Window) : State :=
  setPart s p fun P => match lookupKey w P.windows with
    | some x => { P with windows := insertKey w (f x) P.windows }
    | none => P

/-- The slot of fill `k` (R320). -/
def fillSlot (w : Window) (k : Nat) : Nat := k % max 1 w.slots.length

def setSlotState (w : Window) (i : Nat) (st : WinState) : Window :=
  { w with slots := modifyAt i (fun sl => { sl with st := st }) w.slots }

/-- The number of a fill (R320), kept with its command since it began to execute. -/
def fillNumberOf (c : Cmd) : Option Nat := c.fill.map (·.1)

/-- Whether a fill has begun to write its slot. -/
def fillBegun (c : Cmd) : Bool := c.fill.any (·.2)

/-- At its commit a fill that has begun to write leaves its slot READY, or FAILED with its status, unless re-homing has failed it already
(R517), and is counted (Tables 13-9, 13-14).
DEDUCED, log entry 139. -/
def settleFill (s : State) (p : Nat) (c : Cmd) (r : Result) : State :=
  match winOf s p (wfWin c.body), fillNumberOf c with
  | some w, some k =>
    if !fillBegun c then s
    else
      let whole : Bool := match w.slots[fillSlot w k]? with
        | some sl => (match sl.st with | .filling _ _ => true | _ => false)
        | none => false
      let ok := isDone r.status && whole
      let st : WinState := if ok then .ready (wfPos c.body) (wfOutLen c.body) else .failed (wfPos c.body) ⟨r.status, r.a, r.b⟩
      setPartMem (if whole then setWin s p (wfWin c.body) fun x => setSlotState x (fillSlot w k) st else s) p fun m =>
        if ok then { m with windowFills := satAdd 32 m.windowFills 1 } else { m with windowFailed := satAdd 32 m.windowFailed 1 }
  | _, _ => s

/-- Effects that the owning chapters tie to the commit: SEED_SET (R284), ATTEND (R264) and WINDOW_FILL (R320). -/
def atCommit (s : State) (p : Nat) (c : Cmd) (r : Result) : State :=
  if hOpcode c.hdr = 0x141 then (if isDone r.status then commitSeedSet s p c else s)
  else if hOpcode c.hdr = 0x120 then commitAttend s p c (isDone r.status)
  else if hOpcode c.hdr = 0x220 then settleFill s p c r
  else s

/-- Requests ended under R326 and R327 and commands ended under R465 and R474 are counted (Tables 13-14, 21-10). -/
def countEnded (s : State) (p : Nat) (st : Status) : State :=
  match st with
  | .memUncorrectable => setPartMem s p fun m => { m with uncorrectable := satAdd 32 m.uncorrectable 1 }
  | .memFarTimeout => setPartMem s p fun m => { m with farTimeouts := satAdd 32 m.farTimeouts 1 }
  | .pwrThermal | .pwrRefused =>
    { s with pwr := { s.pwr with counts := { s.pwr.counts with shed := satAdd 32 s.pwr.counts.shed 1 } } }
  | _ => s

/-- The status of queue `q`'s command commits (R78): everything but the settling of swaths that its signal may bring. -/
def commitBase (s : State) (q : Nat) : State :=
  match (queueOf s q).cmd, (queueOf s q).result with
  | some _, some r0 =>
    let (s1, r) := settleWcb s q r0
    let Q := queueOf s1 q
    match Q.cmd with
    | none => s1
    | some c =>
      let p := Q.cfg.part
      let s2 := giveBack (releaseRows (undefNamed (settleHeld s1 q c r) p c r) c) q Q c r
      let s3 := setQueue s2 q fun X => afterCommit s.now X c r
      let s4 := atCommit (countEnded s3 p r.status) p c r
      let s5 := irqOf (signalOf (writeRecord s4 q Q c r) p c r) Q c
      runDeferred (if Q.cfg.halt && isError r.status then raiseEvent s5 0 p else s5) p
  | _, _ => s

/-! ### Swaths -/

def closeSwath (s : State) (p q : Nat) : State := setPart s p fun P => { P with swaths := P.swaths.filter (·.q != q) }

/-- R237: the dirty streams of a step that ends without committing become undefined. -/
def undefDirty (s : State) (ids : List Nat) : State :=
  ids.foldl (fun x id => match streamOf x id with
    | some st => if st.dirty then markUndef x id else x
    | none => x) s

/-- A step that ends without committing, with its command's result left for the commit. -/
def stopSwath (s : State) (p : Nat) (w : Swath) (r : Result) : State :=
  setResult (undefDirty (closeSwath s p w.q) w.streams) w.q r

/-- The publication record (R248): status, moves applied and failed, the first that failed and its status, tick, time and
sequence number. -/
def pubBits (s : State) (w : Swath) (st : Status) (moves : List Status) : Nat :=
  let failed := (List.range moves.length).filter fun i => moves.getD i .completed != .completed
  putFld (statusCode st) 0 16 + putFld 1 63 1 + putFld (moves.length - failed.length) 64 32 + putFld failed.length 96 32
    + putFld (failed.headD 0xFFFFFFFF) 128 32
    + putFld (match failed with | i :: _ => statusCode (moves.getD i .completed) | [] => 0) 160 16
    + putFld w.tick 192 64 + putFld s.now 256 64 + putFld w.seq 320 64

/-- Run the boundary moves in list order (R248, R249): their statuses, and the state. One that an executing command holds back (R207)
is recorded as applied and takes effect after that command. DEDUCED, log entry 45. -/
def runMoves (s : State) (p q : Nat) : List BMove → List Status × State
  | [] => ([], s)
  | m :: rest =>
    let (st, s1) := if moveBlocked s p m && moveAccepted s m then (Status.completed, deferMove s p q m) else boundaryMove s p q m
    let (xs, s2) := runMoves s1 p q rest
    (st :: xs, s2)

/-- Count a committed step, and an overrun with its lateness (Table 10-12, R424, R425). -/
def countStep (s : State) (p : Nat) (late : Option Nat) (failed : Nat) : State :=
  setPart s p fun P => { P with counts := { P.counts with
    movesFailed := satAdd 32 P.counts.movesFailed failed
    tickCommits := satAdd 48 P.counts.tickCommits 1
    tickLate := match late with | some _ => satAdd 32 P.counts.tickLate 1 | none => P.counts.tickLate
    tickLateNs := match late with | some n => satAdd 48 P.counts.tickLateNs n | none => P.counts.tickLateNs } }

/-- R248: a step commits: steps rise, moves take effect, the publication record is written, and the status commits.
`late` is the lateness of R424. -/
def commitSwath (s : State) (p : Nat) (w : Swath) (late : Option Nat) : State :=
  let st : Status := if late.isSome then .completedLate else .completed
  let s1 := w.streams.foldl (fun x id => setStream x id fun y => { y with step := (y.step + 1) % 2 ^ 64 }) (closeSwath s p w.q)
  let (moves, s2) := runMoves s1 p w.q w.moves
  let s3 := countStep s2 p late (moves.filter (· != .completed)).length
  match storeOnce s3 p w.q w.pub (toLe 64 (pubBits s3 w st moves)) with
  | .error f => commitBase (setResult s3 w.q (failResult f w.streams.length)) w.q
  | .ok s4 => commitBase (setResult s4 w.q ⟨st, min (late.getD 0) (2 ^ 32 - 1), 0, w.streams.length⟩) w.q

/-- The open steps of the device in the order of their opening (R422). -/
def openSwaths (s : State) : List (Nat × Swath) :=
  let order (w : Swath) : Nat := match (queueOf s w.q).cmd with | some c => c.order | none => 0
  sortBy ((List.range 4).flatMap fun p => (partOf s p).swaths.map fun w => (p, w))
    fun a b => decide (order a.2 ≤ order b.2)

/-- Whether a step's done value has just been reached. -/
def doneNow (s : State) (p : Nat) (w : Swath) : Bool :=
  w.doneAt.isNone && decide (w.doneValue ≤ (fenceOf (partOf s p) w.doneFence).value)

/-- R247.4 to R247.6: the first open step whose done value has been reached: it ends on the error bit, commits late after
its edge, or waits for its edge. -/
def settleOne (s : State) : State :=
  match (openSwaths s).find? fun (p, w) => doneNow s p w with
  | none => s
  | some (p, w) =>
    if (fenceOf (partOf s p) w.doneFence).err then commitBase (stopSwath s p w ⟨.abortUpstream, 0, 0, 0⟩) w.q
    else match w.overrunAt with
      | some edge => commitSwath s p w (some (s.now - edge))
      | none => setPart s p fun P => { P with swaths := P.swaths.map fun x =>
          if x.q == w.q then { x with doneAt := some s.now } else x }

/-- Settle open steps until none has news. -/
def settleSwaths : Nat → State → State
  | 0, s => s
  | n + 1, s => settleSwaths n (settleOne s)

/-- Settle every open step: each settles or notes its done value at most once. -/
def settled (s : State) : State := settleSwaths (openSwaths s).length s

/-- The status of a queue's command commits, and what its signal settles. -/
def commitQueue (s : State) (q : Nat) : State := settled (commitBase s q)

/-- A fence is signalled from outside a command (R75, R77). -/
def signalFence (s : State) (p f v : Nat) (err : Bool) : State := settled (signalCore s p f v err)

/-! ### Aborts -/

/-- Whether a harrow-only item has put its first output past stage 12 when an abort is accepted: a free value. DEDUCED, log entry 174. -/
def pastStage12 (free f : Nat) : Bool := (Config.freeWord (free + f)).getLsbD 0

/-- R88: every tile or item of a command that a taker holds is discarded, its tile counter closed and its redispatch list emptied;
accumulating and draining slots and gate tiles whose set is not whole are given up: slots return to FREE, but those of a holding or
consuming command to HELD, until its commit (R111). A harrow-only item with an output past stage 12 stays, and finishes. -/
def discardItems (s : State) (q : Nat) : State :=
  let work := (queueOf s q).cmd.bind (·.work)
  let holds := match work with | some w => w.grid.holds | none => false
  let clean (sl : Slot) : Slot :=
    if (sl.st == .accum || sl.st == .drain) && sl.q == q then (if holds then { sl with st := .held } else freeSlot) else sl
  let (free, s0) := takeFree s 96
  let keep (f : Nat) (it : Item) : Option Item :=
    if it.q != q then some it else if pastStage12 free f then some { it with out := true } else none
  let s1 := { s0 with field := { s0.field with
    engines := s0.field.engines.map fun E => { E with slots := E.slots.map clean, items := E.items.filter (·.q != q) }
    harrows := s0.field.harrows.zipIdx.map fun (H, f) =>
      { H with items := H.items.filterMap (keep f), intake := H.intake.filter fun d => d.q != q || decide (d.need ≤ d.gates) } } }
  setQueue s1 q fun Q => { Q with
    redispatch := []
    cmd := Q.cmd.map fun c => { c with work := c.work.map fun w => { w with closed := true } } }

/-- Tiles written or descriptors, streams and messages finished when a command is stopped (Table 3-3). -/
def workDone (Q : Queue) (c : Cmd) : Nat :=
  match c.work with
  | some w => w.written
  | none => match Q.result with | some r => r.work | none => c.done

/-- Moves of queue `q`'s command that have no slot are dropped, with their reservations left to the commit. -/
def dropMoves (s : State) (q : Nat) : State :=
  { s with mem := { s.mem with moves := s.mem.moves.filter fun m => !(moveQueue m == some q && !m.active) } }

def movesLeft (s : State) (q : Nat) : Bool := s.mem.moves.any fun m => moveQueue m == some q

/-- Whether a message of queue `q`'s command has been sent and is not acknowledged: an abort lets it finish (R459). -/
def sendStarted (s : State) (q : Nat) : Bool := s.net.qps.any fun (_, x) => x.sends.contains q

/-- Take back or undo what the command of queue `q` has done so far, for an early end of class 0x8 (Table 0-5, R237, R252,
R264). -/
def stopEffects (s : State) (q : Nat) (c : Cmd) : State :=
  let p := (queueOf s q).cfg.part
  let op := hOpcode c.hdr
  let s0 := match c.waiting with
    | some since => setCmd (if passedFence s p q c then s else stallTime s p (s.now - since)) q fun x => { x with waiting := none }
    | none => s
  let s1 := discardItems s0 q
  let s2 := if op = 0x110 ∨ op = 0x111 then c.streams.foldl markUndef s1 else s1
  let s3 := if 0x300 ≤ op ∧ op ≤ 0x303 then undoStreams s2 q c else s2
  havoc s3 p q c.outs

/-- An executing or waiting command ends with a status (R87, R91, R250): the swath it opened closes, plot moves in slots
and a message that has started finish first (R315, R459), so does the current descriptor of a channel command (R366), and its result
waits for the commit. DEDUCED, log entry 56. -/
def stopCmd (s0 : State) (q : Nat) (st : Status) (a : Nat) : State :=
  let s := finishDesc s0 q
  let Q := queueOf s q
  match Q.cmd with
  | none => s
  | some c =>
    let r : Result := ⟨st, a, 0, workDone Q c⟩
    if (queueOf s0 q).result.isNone && Q.result.isSome then s
    else match (partOf s Q.cfg.part).swaths.find? (·.q == q) with
    | some w => stopSwath s Q.cfg.part w r
    | none =>
      let s1 := dropMoves s q
      if movesLeft s1 q || sendStarted s1 q then setCmd s1 q fun x => { x with ending := x.ending.orElse fun _ => some r }
      else setResult (if Q.state = .run then stopEffects s1 q c else s1) q r

/-- Whether the command of a queue can still be ended: its status is not yet that of an earlier cause (R92). -/
def stoppable (Q : Queue) : Bool :=
  (match Q.cmd with | some c => c.ending.isNone | none => false)
    && (match Q.result with | some r => isDone r.status | none => true)

/-- End the commands of queue `q` with sequence numbers from `first` to `last` that have not committed: the one at the
head now, those not fetched when they come to it (R87, R88). Answers how many. -/
def endRange (s : State) (q first last : Nat) (st : Status) : Nat × State :=
  let Q := queueOf s q
  let stop := min (last + 1) (issuedEnd s q)
  let (n, s1) := if Q.cmd.isSome && decide (first ≤ Q.seq) && decide (Q.seq < stop) && stoppable Q
    then (1, stopCmd s q st 0) else (0, s)
  let from_ := max first (if Q.cmd.isSome then Q.seq + 1 else Q.seq)
  let rest := (rangeFrom from_ (stop - from_)).filter fun i => (lookupKey i Q.doomed).isNone
  (n + rest.length, setQueue s1 q fun X => { X with doomed := rest.foldl (fun d i => insertKey i st d) X.doomed })

/-- R90: an abort request on a queue: its status and count. Where the range holds only a command that has ended for an earlier cause and
has not committed, it ends none, and the reply is ABORT_TOO_LATE. DESIGN CHOICE, log entry 175. -/
def abortRange (s : State) (q first last : Nat) : Status × Nat × State :=
  if issuedEnd s q ≤ last then (.loadBadShape, 0, s)
  else
    let (n, s1) := endRange s q first last .aborted
    if n = 0 then (.abortTooLate, 0, s1) else (.completed, n, s1)

/-! ### Ticks -/

/-- R250: the step ends at the edge, and the commands of its abandon entries with it. -/
def abandonSwath (s : State) (p : Nat) (w : Swath) : State :=
  let s1 := setPart s p fun P => { P with counts := { P.counts with tickAbandoned := satAdd 32 P.counts.tickAbandoned 1 } }
  let s2 := commitBase (stopSwath s1 p w ⟨.abortTick, 0, 0, 0⟩) w.q
  w.abandon.foldl (fun x e =>
    let Q := queueOf x e.q
    if Q.state != .disabled && Q.cfg.part == p then (endRange x e.q 0 e.last .abortTick).2 else x) s2

/-- A step whose tick's edge arrives at `t`, with its done value reached by the latch or not (R421, R422): it commits, is abandoned, or
runs late. -/
def arriveSwath (t : Nat) (s : State) (e : Nat × Nat × Bool) : State :=
  let (p, q, reached) := e
  match (partOf s p).swaths.find? (·.q == q) with
  | none => s
  | some w =>
    if w.overrunAt.isSome then s
    else if reached then commitSwath s p w none
    else if (partOf s p).cfg.abandon then abandonSwath s p w
    else setPart s p fun P => { P with swaths := P.swaths.map fun x => if x.q == w.q then { x with overrunAt := some t } else x }

/-- Every open step whose tick is `n` or lower is settled at the latch of tick `n` (R420), by what holds there; what their signals bring
is settled after them. -/
def latchSwaths (s : State) (n t : Nat) : State :=
  settled ((((openSwaths s).filter fun (_, w) => decide (w.tick ≤ n)).map fun (p, w) => (p, w.q, w.doneAt.isSome)).foldl (arriveSwath t) s)

end Sys2Proof.Machine
end

