-- ==== Sys2Proof/Machine/Slew.lean ====
section
/-! DEFINITION. The slew limiter (R467, R468): unit currents, the admission of starts, and ballast; with the voltage that
goes with a frequency (R472, Table 21-6). -/

namespace Sys2Proof.Machine

/-! ### Voltage -/

/-- A table of (MHz, mV) rows read at a frequency, linear between rows and flat beyond its ends. -/
def voltsAt : List (Nat × Nat) → Nat → Nat
  | [], _ => 0
  | [(_, v)], _ => v
  | (f, v) :: (g, w) :: rest, x =>
    if x ≤ f then v
    else if x ≤ g then v + (w - v) * (x - f) / max 1 (g - f)
    else voltsAt ((g, w) :: rest) x

/-- Table 21-6: typical and ceiling voltages. -/
def typicalVolts : List (Nat × Nat) := [(400, 580), (1000, 660), (1400, 750), (1650, 820)]
def ceilingVolts : List (Nat × Nat) := [(400, 620), (1000, 700), (1400, 780), (1650, 850)]

/-- The operating voltage at a frequency: the profile's, whose rows above the ceiling are refused (R472); the typical one
without a profile. DEDUCED, log entry 77. -/
def operatingVolts (s : State) (mhz : Nat) : Nat :=
  let rows := match s.boot.profile with
    | some pr => pr.volts.filter fun r => decide (r.2 ≤ voltsAt ceilingVolts r.1)
    | none => []
  min (voltsAt (if rows.isEmpty then typicalVolts else rows) mhz) (voltsAt ceilingVolts mhz)

/-! ### Time by frequency (Table 21-10) -/

/-- The counters with the time since the last change of ACLK added to the class of its present frequency. -/
def timeCounts (s : State) : PwrCounts :=
  let c := s.pwr.counts
  let t := if s.boot.dev == .run && s.boot.clocks then s.now - s.pwr.since else 0
  let f := s.pwr.aclk
  if 1400 < f then { c with boostNs := c.boostNs + t }
  else if f = 1400 then { c with nominalNs := c.nominalNs + t }
  else if 400 < f then { c with belowNs := c.belowNs + t }
  else { c with floorNs := c.floorNs + t }

/-! ### Unit currents (Table 21-4) -/

/-- Current of a matrix engine for an operand format, in mA. -/
def formatCurrent (f : Fmt) : Nat :=
  match f with
  | .mxE2M3 | .mxE3M2 | .mxE2M1 => 1450
  | .bf16 | .fp16 | .fp32 => 1100
  | _ => 1300

/-- The operand formats of an engine command. -/
def operandFormats (c : Cmd) : List Fmt :=
  let byte (lo : Nat) : Fmt := fmtOf (fld c.body lo 8)
  match hOpcode c.hdr with
  | 0x111 => [byte 640, byte 648]
  | 0x120 => [byte 800, byte 816]
  | _ => [byte 512, byte 520]

/-- The current that a unit draws for a command, scaled by frequency and voltage. DEDUCED, log entry 76. -/
def unitCurrent (s : State) (harrow : Bool) (c : Cmd) : Nat :=
  let base := if harrow then 350 else ((operandFormats c).map formatCurrent).foldl max 0
  base * s.pwr.aclk * s.pwr.vdd / (1400 * 750)

/-! ### Admission and ballast -/

/-- The number of a taker in the limiter's lists. -/
def unitNo (harrow : Bool) (i : Nat) : Nat := if harrow then 192 + i else i

def setPwr (s : State) (f : Power → Power) : State := { s with pwr := f s.pwr }

def hasUnit (xs : List SlewUnit) (u : Nat) : Bool := xs.any (·.taker == u)

def dropUnit (xs : List SlewUnit) (u : Nat) : List SlewUnit := xs.filter (·.taker != u)

/-- What one window allows: 30 A (R467). -/
def slewAllowance : Nat := 30000

/-- Energy that a unit has spent in ballast, in 10^-15 J. DEDUCED, log entry 78. -/
def ballastEnergy (s : State) (x : SlewUnit) : Nat := x.current * s.pwr.vdd * (s.now - x.since)

/-- A unit leaves ballast: its energy is counted. -/
def leaveBallast (s : State) (u : Nat) : State :=
  let spent := ((s.pwr.ballast.filter (·.taker == u)).map (ballastEnergy s)).foldl (· + ·) 0
  setPwr s fun P => { P with ballast := dropUnit P.ballast u, counts := { P.counts with ballast := P.counts.ballast + spent } }

/-- A unit draws a current. -/
def drawUnit (s : State) (u cur : Nat) : State :=
  setPwr s fun P => { P with drawing := dropUnit P.drawing u ++ [⟨u, cur, s.now⟩] }

/-- Whether a unit may start its item now; the state after the request (R468): a unit at work or in ballast starts at once,
another one when the window's sum still fits and none waits before it. -/
def askStart (s : State) (u cur : Nat) : Bool × State :=
  if hasUnit s.pwr.drawing u then (true, drawUnit s u cur)
  else if hasUnit s.pwr.ballast u then (true, drawUnit (leaveBallast s u) u cur)
  else if hasUnit s.pwr.waiting u then (false, s)
  else if s.pwr.waiting.isEmpty && decide (s.pwr.admitted + cur ≤ slewAllowance) then
    (true, drawUnit (setPwr s fun P => { P with admitted := P.admitted + cur }) u cur)
  else (false, setPwr s fun P => { P with waiting := P.waiting ++ [⟨u, cur, s.now⟩], waited := true, acted := true })

/-- A unit that runs out of work enters ballast. -/
def enterBallast (s : State) (u : Nat) : State :=
  match s.pwr.drawing.find? (·.taker == u) with
  | some x => setPwr s fun P => { P with drawing := dropUnit P.drawing u, ballast := P.ballast ++ [⟨u, x.current, s.now⟩] }
  | none => s

/-- Release ballast in the order of entry while a window's fall fits. -/
def releaseBallast : Nat → State → State
  | 0, s => s
  | n + 1, s => match s.pwr.ballast with
    | [] => s
    | x :: _ =>
      if s.pwr.released + x.current ≤ slewAllowance then
        releaseBallast n (setPwr (leaveBallast s x.taker) fun P => { P with released := P.released + x.current })
      else s

end Sys2Proof.Machine
end

