-- ==== Sys2Proof/Machine/Steps.lean ====
section
/-! DEFINITION. The steps by which takers work through a command: taking an item (R130 to R133, R404 to R406), halo bands
(R143), draining a tile (R168), split-K arrivals and reductions (R135, R136), phase 2 of a scan (R224), the end of a
stream's transit (R234), and the commit of the status at a queue's head (R78). -/

namespace Sys2Proof.Machine

/-! ### Work that is left (R405) -/

/-- Items that the counter hands out: none of a command whose items are bound to engines (R110, R216). -/
def countedItems (c : Cmd) (w : Work) : Nat := if w.grid.holds || hOpcode c.hdr == 0x111 then 0 else w.grid.items

/-- The work of a queue's executing command while takers may still take from it: it has passed the window fence, its
status is not that of a failure, and its counter is not closed (R88, R133, R321). -/
def openWorkOf (Q : Queue) : Option (Cmd × Work) :=
  match Q.cmd with
  | none => none
  | some c => match c.work with
    | none => none
    | some w =>
      if Q.state == .run && !w.closed && c.waiting.isNone && c.ending.isNone
          && (match Q.result with | some r => isDone r.status | none => true)
      then some (c, w) else none

/-- A taker: a furrow's harrow, or a matrix engine. -/
def takerGranted (w : Work) (harrow : Bool) (i : Nat) : Bool :=
  if harrow then w.grantHarrows.contains i else w.grantEngines.contains i

/-- The bound items of an engine, ascending (R110, R216). -/
def boundItems (w : Work) (harrow : Bool) (i : Nat) : List Nat :=
  if harrow then [] else sortBy ((w.bound.filter (·.1 == i)).map (·.2)) fun a b => decide (a ≤ b)

/-- R265: whether the items that must finish before an item starts have finished. -/
def mayStart (w : Work) (x : Nat) : Bool := ((lookupKey x w.after).getD []).all w.phase1.contains

/-- The item a taker gets: bound to it, from the redispatch list lowest first, or by fetch-and-add on the counter
(R110, R130, R133, R216). -/
inductive Source where
  | bound (w : Nat)
  | again (w : Nat)
  | fresh (w : Nat)
  deriving DecidableEq, Repr

/-- Where a taker's next item of a queue's command comes from. An item that waits for others (R265) is not given out before they have
finished. DESIGN CHOICE, log entry 183. -/
def itemSource (s : State) (harrow : Bool) (i q : Nat) : Option (Source × Work) :=
  let Q := queueOf s q
  match openWorkOf Q with
  | none => none
  | some (c, w) => match boundItems w harrow i, Q.redispatch.filter (mayStart w) with
    | b :: _, _ => some (.bound b, w)
    | [], r :: rest => some (.again (rest.foldl min r), w)
    | [], [] => if Q.counter < countedItems c w ∧ mayStart w Q.counter = true then some (.fresh Q.counter, w) else none

/-- Whether a command has work that a taker may take (R405). -/
def hasWork (s : State) (harrow : Bool) (i q : Nat) : Bool :=
  match itemSource s harrow i q with
  | none => false
  | some (_, w) => takerGranted w harrow i

/-- Slots of an engine that a command's products hold. -/
def accumSlots (s : State) (e q : Nat) : Nat := ((engineOf s e).slots.filter fun sl => sl.st == .accum && sl.q == q).length

/-- R406 and R108: whether a taker has room for a command. A bound item of a holding command uses the slot it holds
already; the slots that products of the same command hold count as available. DESIGN CHOICE, log entry 179. -/
def canServe (s : State) (harrow : Bool) (i q : Nat) : Bool :=
  if harrow then (engineOf s (2 * i)).items.isEmpty && (engineOf s (2 * i + 1)).items.isEmpty
  else
    (harrowOf s (i / 2)).items.isEmpty
      && (match openWorkOf (queueOf s q) with
        | some (_, w) => w.grid.holds || decide (w.grid.slots ≤ (freeSlots s i).length + accumSlots s i q)
        | none => false)

/-- The stage-B order of a queue's command. -/
def orderOf (Q : Queue) : Nat := match Q.cmd with | some c => c.order | none => 0

/-- Whether the command of queue `a` ranks before that of queue `b`: LC before BE, earlier stage B, lower index (R405). -/
def ranksBefore (s : State) (a b : Nat) : Bool :=
  let A := queueOf s a
  let B := queueOf s b
  if A.cfg.be != B.cfg.be then B.cfg.be
  else if orderOf A != orderOf B then decide (orderOf A < orderOf B)
  else decide (a ≤ b)

/-- The commands that have work for a taker, in the order of R405. -/
def ranked (s : State) (harrow : Bool) (i : Nat) : List Nat :=
  sortBy ((queuesWhere s fun Q => (openWorkOf Q).isSome).filter (hasWork s harrow i)) (ranksBefore s)

def takerItems (s : State) (harrow : Bool) (i : Nat) : List Item :=
  if harrow then (harrowOf s i).items else (engineOf s i).items

def takerCur (s : State) (harrow : Bool) (i : Nat) : Option (Nat × Bool) :=
  if harrow then (harrowOf s i).cur else (engineOf s i).cur

/-- The first command of the order that the taker can serve, with whether it is a fallback (R405). -/
def firstServed (s : State) (harrow : Bool) (i : Nat) (qs : List Nat) : Option (Nat × Bool) :=
  match qs.find? (canServe s harrow i) with
  | some q => some (q, qs.head? != some q)
  | none => none

/-- R405: the command that a taker serves next. It stays with its command while that has work, unless it took it under the
fallback rule; it is not free while it holds an item of its command. -/
def chooseWork (s : State) (harrow : Bool) (i : Nat) : Option (Nat × Bool) :=
  match takerCur s harrow i with
  | some (q, fb) =>
    if !fb && hasWork s harrow i q then (if canServe s harrow i q then some (q, false) else none)
    else if (takerItems s harrow i).any (·.q == q) then none
    else firstServed s harrow i (ranked s harrow i)
  | none => firstServed s harrow i (ranked s harrow i)

/-- R132: whether a taker may request: it holds no item, or, with overlap, one. -/
def mayRequest (s : State) (harrow : Bool) (i : Nat) : Bool :=
  match takerItems s harrow i with
  | [] => true
  | [it] => !harrow && (match openWorkOf (queueOf s it.q) with | some (_, w) => w.grid.overlap | none => false)
  | _ => false

/-! ### Halo bands (R142, R143) -/

/-- The neighbour link between two neighbouring furrows: the 88 east links row by row, then the 84 south links (Table
24-7). -/
def linkBetween (f g : Nat) : Nat :=
  let a := min f g
  if max f g = a + 1 then a / 12 * 11 + a % 12 else 88 + a

/-- Furrows linked to a furrow: its neighbours in the field of twelve columns that serve the same command and are not
fenced (R21, R22). -/
def linkedFurrows (s : State) (w : Work) (f : Nat) : List Nat :=
  let near := (if 12 ≤ f then [f - 12] else []) ++ (if f + 12 < 96 then [f + 12] else [])
    ++ (if f % 12 = 0 then [] else [f - 1]) ++ (if f % 12 = 11 then [] else [f + 1])
  near.filter fun g => !s.flt.furrows.contains g && !s.flt.links.contains (linkBetween f g) && (w.grantEngines.any (·/2 == g) || w.grantHarrows.contains g)

/-- The spatial neighbours of a tile on the sides that have a halo: north, south, west, east. A side whose halo field is 0 has no
bands, and what R154 reads there is not counted. DESIGN CHOICE, log entry 176. -/
def haloTiles (g : Grid) (t : Nat) : List Nat :=
  let W := max 1 g.haloWidth
  let n := t % max 1 g.tn
  let side (i : Nat) (ok : Bool) (u : Nat) : List Nat := if g.halo.getD i false && ok then [u] else []
  side 0 (decide (W ≤ n)) (t - W) ++ side 1 (decide (n + W < g.tn)) (t + W)
    ++ side 2 (n % W != 0) (t - 1) ++ side 3 (n % W != W - 1 && decide (n + 1 < g.tn)) (t + 1)

/-- R143: furrow `f` stages a tile of queue `q`'s command: each band it needs comes over a link from a neighbour that still
holds it, or from memory. -/
def stageTile (q f : Nat) (s : State) (t : Nat) : State :=
  match (queueOf s q).cmd.bind (·.work) with
  | none => s
  | some w =>
    let near := linkedFurrows s w f
    let bands := haloTiles w.grid t
    let linked := (bands.filter fun u => near.any fun g => lookupKey g w.staged == some u).length
    let s1 := setCounts s q fun c => { c with
      haloLink := satAdd 48 c.haloLink linked
      haloMem := satAdd 48 c.haloMem (bands.length - linked) }
    setCmd s1 q fun c => { c with work := c.work.map fun x => { x with staged := insertKey f t x.staged } }

/-! ### Taking an item -/

/-- What taking an item from its source changes at the queue. -/
def takeSource (s : State) (i q : Nat) : Source → State
  | .bound x => setCmd s q fun c => { c with work := c.work.map fun w => { w with bound := w.bound.filter (· != (i, x)) } }
  | .again x => setQueue s q fun Q => { Q with
      redispatch := Q.redispatch.erase x
      counts := { Q.counts with redispatched := satAdd 32 Q.counts.redispatched 1 } }
  | .fresh _ => setQueue s q fun Q => { Q with
      counter := Q.counter + 1
      counts := { Q.counts with itemsTaken := satAdd 48 Q.counts.itemsTaken 1 } }

def sourceItem : Source → Nat
  | .bound x => x
  | .again x => x
  | .fresh x => x

/-- The tiles of an item. An item of a scan, of phase 1 or 3, stands for itself (R224), and so does a tile bound to the slot of a
holding or consuming command (R109, R110). -/
def tilesOf (g : Grid) (w : Nat) : List Nat := if g.scan = 0 && !g.holds then itemTiles g w else [w]

/-- The tiles that the slots an engine takes are tagged with: one slot per tile while slots last. Without spill and overlap it takes all L
slots, those of a clipped group or of R265 beyond its tiles under the last tile. DESIGN CHOICE, log entry 178. -/
def slotTags (g : Grid) (tiles : List Nat) (room : Nat) : List Nat :=
  let want := if g.overlap || g.slots != g.live then tiles.length else max tiles.length g.slots
  (tiles ++ List.replicate (want - tiles.length) (tiles.getLastD 0)).take (min want room)

/-- An engine's slots for an item enter ACCUM: the held slots of its tiles, or free ones in ascending order (R106). -/
def takeSlots (s : State) (e q : Nat) (w : Work) (tiles : List Nat) : State :=
  if w.grid.holds then
    setEngine s e fun E => { E with slots := E.slots.map fun sl =>
      if sl.st == .held && sl.q == q && tiles.contains sl.tile then { sl with st := .accum } else sl }
  else
    let free := freeSlots s e
    ((slotTags w.grid tiles free.length).zip free).foldl
      (fun x (t, i) => setSlot x e i { st := .accum, q := q, tile := t, lost := false }) s

/-- The tiles of an item that find no slot (R139). -/
def spilledTiles (s : State) (e : Nat) (w : Work) (tiles : List Nat) : List Nat :=
  if w.grid.holds || w.grid.slots == w.grid.live then [] else tiles.drop (freeSlots s e).length

/-- Passes over k of an item: those of its chunk (R127, R141). -/
def itemPasses (g : Grid) (x : Nat) : Nat := if itemChunk g x + 1 = g.chunks then g.lastPasses else g.passes

/-- R140: a tile without a slot lives in a spare tilth bank of the furrow with spill = 1 while one of the four tiles that each holds is
free, else in loam. DESIGN CHOICE, log entry 181. -/
def placeSpill (w : Work) (e t : Nat) : Work :=
  let mine := w.spilled.filter fun (o, _, loam) => o / 2 == e / 2 && !loam
  { w with spilled := w.spilled ++ [(e, t, !(w.grid.spill == 1 && decide (mine.length < 4 * w.grid.spare)))] }

/-- The tiles of an item without slots enter the spill area, and each is swapped once per pass (R140, R141). -/
def spillItem (s : State) (e q x : Nat) (w : Work) (tiles : List Nat) : State :=
  match spilledTiles s e w tiles with
  | [] => s
  | ts =>
    setCmd (setCounts s q fun c => { c with spillSwaps := satAdd 48 c.spillSwaps (ts.length * itemPasses w.grid x) }) q
      fun c => { c with work := c.work.map fun w => ts.foldl (fun v t => placeSpill v e t) w }

/-- The next blocks load into the engine's stationary operand registers (R95, R98). The model does not follow their contents. DESIGN
CHOICE, log entry 180. -/
def loadOperands (s : State) (e : Nat) : State :=
  let (k, s1) := takeFree s 1
  setEngine s1 e fun E => { E with operands := (k :: E.operands).take 2 }

/-- The (sequence, block) pair to which an item of a scan belongs. -/
def pairOf (g : Grid) (x : Nat) : Nat := x / max 1 g.scan

/-- Whether all phase-1 items of a (sequence, block) pair have finished (R224). -/
def pairFinished (w : Work) (pair : Nat) : Bool :=
  (rangeFrom (pair * w.grid.scan) w.grid.scan).all w.phase1.contains

/-- Furrow `f` finishes an item: a phase-1 item of a scan is noted, with the furrow that finished the last of its pair (R224); another's
tiles are written. -/
def itemWritten (f : Nat) (it : Item) (w : Work) : Work :=
  if w.grid.scan != 0 && decide (it.index < w.grid.items) then
    let w1 := { w with phase1 := (it.index :: w.phase1).eraseDups }
    if pairFinished w1 (pairOf w.grid it.index) then { w1 with finisher := insertKey (pairOf w.grid it.index) f w1.finisher } else w1
  else { w with written := w.written + it.tiles.length }

/-- A harrow completes the item it holds: its tile is written. One that an abort let finish counts in the record's work (R88). -/
def completeHarrow (s : State) (f : Nat) : State :=
  match (harrowOf s f).items with
  | [] => s
  | it :: rest =>
    let s1 := setCmd (setHarrow s f fun H => { H with items := rest }) it.q fun c => { c with work := c.work.map (itemWritten f it) }
    if it.out then
      let more (r : Result) : Result := { r with work := r.work + it.tiles.length }
      setQueue s1 it.q fun Q => { Q with result := Q.result.map more, cmd := Q.cmd.map fun c => { c with ending := c.ending.map more } }
    else s1

/-- A taker takes an item of a queue's command. The input regions of its tiles are staged with it, once. DESIGN CHOICE, log entry 177. -/
def takeItem (s : State) (harrow : Bool) (i q : Nat) (fb : Bool) : State :=
  match itemSource s harrow i q with
  | none => s
  | some (src, w) =>
    let x := sourceItem src
    let tiles := tilesOf w.grid x
    let it : Item := { q := q, index := x, tiles := tiles, out := false }
    let s1 := takeSource s i q src
    let f := if harrow then i else i / 2
    let s2 := if w.grid.haloWidth = 0 then s1 else tiles.foldl (stageTile q f) s1
    if harrow then setHarrow s2 i fun H => { H with items := [it], cur := some (q, fb) }
    else
      setEngine (loadOperands (takeSlots (spillItem s2 i q x w tiles) i q w tiles) i) i fun E => { E with items := E.items ++ [it], cur := some (q, fb) }

/-- The number in Table 24-4 under which a column tests a taker: engines 0 to 15, then harrows. -/
def testNumber (harrow : Bool) (i : Nat) : Nat := if harrow then 16 + i / 12 else i / 24 * 2 + i % 2

/-- Whether periodic BIST has claimed a taker (R524). -/
def claimedTaker (s : State) (harrow : Bool) (i : Nat) : Bool :=
  let f := if harrow then i else i / 2
  s.flt.bist.claims.any fun c => c.col == f % 12 && c.target == testNumber harrow i

/-- Whether a taker exists, is enabled by the profile and is not fenced. -/
def takerUp (s : State) (harrow : Bool) (i : Nat) : Bool :=
  let f := if harrow then i else i / 2
  furrowEnabled s f && !s.flt.furrows.contains f && (harrow || !s.flt.engines.contains i)

/-- The taker serves nothing any more; it goes into ballast (R468). -/
def idleTaker (s : State) (harrow : Bool) (i : Nat) : State :=
  enterBallast (if harrow then setHarrow s i fun H => { H with cur := none }
    else setEngine s i fun E => { E with cur := none }) (unitNo harrow i)

/-- The current that a taker asks for with a queue's command. -/
def startCurrent (s : State) (harrow : Bool) (q : Nat) : Nat :=
  match (queueOf s q).cmd with | some c => unitCurrent s harrow c | none => 0

/-- A taker starts an item of a queue's command once the slew limiter grants it (R468). -/
def startItem (s : State) (harrow : Bool) (i q : Nat) (fb : Bool) : State :=
  match askStart s (unitNo harrow i) (startCurrent s harrow q) with
  | (true, s1) => takeItem s1 harrow i q fb
  | (false, s1) => s1

/-- WORK_ITEM_TAKE (R130 to R133, R405, R406): a free taker takes its next item. A harrow first completes the one it
holds. -/
def workItemTake (s : State) (harrow : Bool) (i : Nat) : State :=
  if !takerUp s harrow i then s
  else
    let s1 := if harrow then completeHarrow s i else s
    if claimedTaker s harrow i || !mayRequest s1 harrow i then s1
    else match chooseWork s1 harrow i with
      | some (q, fb) => startItem s1 harrow i q fb
      | none => if (takerItems s1 harrow i).isEmpty then idleTaker s1 harrow i else s1

def execWorkItemTake (harrow : Bool) (i : Nat) (s : State) : Host.Outcome State Fault Refusal :=
  .next (workItemTake s harrow i)

/-! ### Finished tiles -/

/-- Remove a tile from the items an engine holds of a queue; an item without tiles has ended. -/
def dropTile (s : State) (e q t : Nat) : State :=
  setEngine s e fun E => { E with items := (E.items.map fun it =>
    if it.q == q then { it with tiles := it.tiles.filter (· != t) } else it).filter fun it => !it.tiles.isEmpty }

/-- The first tile of an engine's items of a queue that has no slot (R139). -/
def unslotted (s : State) (e q : Nat) : Option Nat :=
  let E := engineOf s e
  let tags := (E.slots.filter fun sl => sl.st == .accum && sl.q == q).map (·.tile)
  (E.items.flatMap fun it => if it.q == q then it.tiles else []).find? fun t => !tags.contains t

/-- The slots of a finished tile: HELD for a command that holds or consumes (R109, R111), else given to a spilled tile or
FREE. -/
def leaveSlots (s : State) (e q t : Nat) (holds : Bool) : State :=
  let next := unslotted s e q
  let stays (x : Nat × Nat × Bool) : Bool := x.1 != e || !(x.2.1 == t || next == some x.2.1)
  let s1 := setCmd s q fun c => { c with work := c.work.map fun w => { w with spilled := w.spilled.filter stays } }
  setEngine s1 e fun E => { E with slots := E.slots.map fun sl =>
    if sl.st == .accum && sl.q == q && sl.tile == t then
      (if holds then { sl with st := .held }
       else match next with
        | some u => { sl with tile := u }
        | none => freeSlot)
    else sl }

/-- Count tiles of a queue's command as written. -/
def countWritten (s : State) (q n : Nat) : State :=
  setCmd s q fun c => { c with work := c.work.map fun w => { w with written := w.written + n } }

/-- Whether a command's finished tiles go through the harrow: all but those of MX_GEMM with out_mode 1 (R109). -/
def drainsTiles (c : Cmd) : Bool := !(hOpcode c.hdr == 0x100 && fld c.body 548 2 == 1)

/-- The item at which an engine works, with its lowest tile that is left. -/
def nextTile (s : State) (e : Nat) : Option (Item × Nat) :=
  match (engineOf s e).items with
  | [] => none
  | it :: _ => it.tiles.head?.map fun t => (it, t)

/-- Words of the intake buffer that an entry takes: what the harrow has not read yet; a set of gate tiles that are not all there keeps the
room of all of them, so that it can be completed. DESIGN CHOICE, log entry 182. -/
def intakeWords (d : Drained) : Nat :=
  if d.gates < d.need then ceilDiv (d.words * d.need) (max 1 d.gates)
  else min d.words (ceilDiv (d.left * 128 * max 1 d.need) (1000 * max 1 d.passes))

/-- Words of a harrow's intake buffer that are taken. -/
def intakeUsed (xs : List Drained) : Nat := (xs.map intakeWords).foldl (· + ·) 0

/-- An entry with one more tile of its set, and with all of them the time that the harrow needs (R168, R186). -/
def addGate (words : Nat) (d : Drained) : Drained :=
  let x := { d with words := d.words + words, gates := d.gates + 1 }
  if x.gates < x.need then x else { x with left := ceilDiv (x.words / max 1 x.need * x.passes) 128 * 1000 }

/-- A new entry goes behind the others, but E0's before E1's that started with it (R168). -/
def insertDrained (d : Drained) (xs : List Drained) : List Drained :=
  let after (x : Drained) : Bool := d.engine % 2 == 0 && x.engine % 2 == 1 && x.start == d.start
  xs.takeWhile (fun x => !after x) ++ d :: xs.dropWhile fun x => !after x

/-- A harrow's intake buffer with one more tile, unless it has no room for it (R168, R186). -/
def intakeTile (now e q words : Nat) (g : Grid) (xs : List Drained) : Option (List Drained) :=
  let open_ (x : Drained) : Bool := x.engine == e && x.q == q && decide (x.gates < x.need)
  if xs.any open_ then some (xs.map fun x => if open_ x then addGate words x else x)
  else
    let d := addGate words ⟨e, q, now, 0, 0, max 1 g.gates, g.harrowPasses, 0⟩
    if 16384 < intakeUsed xs + intakeWords d then none else some (insertDrained d xs)

/-- Whether a tile is the last that an engine holds of an item on which others wait (R265): the item is noted as finished. -/
def noteFinished (w : Work) (it : Item) (t : Nat) : Work :=
  if !w.after.isEmpty && it.tiles.all (· == t) then { w with phase1 := (it.index :: w.phase1).eraseDups } else w

/-- TILE_DRAIN (R168): the lowest tile left of an engine's item drains once the intake buffer has room for the whole
tile. -/
def tileDrain (s : State) (e : Nat) : State :=
  match nextTile s e with
  | none => s
  | some (it, t) => match (queueOf s it.q).cmd with
    | none => s
    | some c => match c.work with
      | none => s
      | some w =>
        let leave (x : State) : State :=
          let x1 := setCmd x it.q fun c => { c with work := c.work.map fun w => noteFinished w it t }
          countWritten (leaveSlots (dropTile x1 e it.q t) e it.q t w.grid.holds) it.q 1
        if w.grid.split then s
        else if !drainsTiles c then leave s
        else match intakeTile s.now e it.q (tileWords w.grid it.index t) w.grid (harrowOf s (e / 2)).intake with
          | none => s
          | some xs => leave (setHarrow s (e / 2) fun H => { H with intake := xs })

def execTileDrain (e : Nat) (s : State) : Host.Outcome State Fault Refusal := .next (tileDrain s e)

/-- The key under which an item's arrival value at a tile is kept (R136). -/
def drawnKey (item t : Nat) : Nat := item * 2 ^ 40 + t

/-- A writer's ready bit (R135): tile and position. -/
def setReady (w : Work) (t a : Nat) : Work := { w with ready := (w.ready ++ [(t, a)]).eraseDups }

/-- The arrival value of an item at a tile: the one it has drawn before (R136), or one fetch-and-add. -/
def drawArrival (w : Work) (item t : Nat) : Nat × Work :=
  match lookupKey (drawnKey item t) w.drawn with
  | some a => (a, w)
  | none =>
    let a := (lookupKey t w.arrivals).getD 0
    (a, { w with arrivals := insertKey t (a + 1) w.arrivals, drawn := insertKey (drawnKey item t) a w.drawn })

/-- Scratch position `a` of a tile (R134). -/
def scratchKey (t a : Nat) : Nat := t * 64 + a

/-- A writer's partial stands in the scratch position of its arrival value with its chunk, and the ready bit is set (R135). -/
def writePartial (w : Work) (item t a : Nat) : Work :=
  let c := itemChunk w.grid item
  setReady { w with scratch := insertKey (scratchKey t a) (c, (lookupKey (partKey t c) w.partials).getD []) w.scratch } t a

/-- SPLITK_ARRIVAL (R135, R136): the engine draws the tile's arrival value; below C - 1 it writes its partial, sets the
ready bit and frees the slot, else it becomes the tile's reducer and keeps its own partial. A tile that the engine already
reduces is passed over. -/
def splitkArrival (s : State) (e : Nat) : State :=
  match (engineOf s e).items.head? with
  | none => s
  | some it => match (queueOf s it.q).cmd.bind (·.work) with
    | none => s
    | some w =>
      if !w.grid.split then s
      else match it.tiles.find? fun t => lookupKey t w.reducers != some e with
        | none => s
        | some t =>
          let (a, w1) := drawArrival w it.index t
          if a + 1 < w.grid.chunks then
            let s1 := setCmd s it.q fun c => { c with work := some (writePartial w1 it.index t a) }
            leaveSlots (dropTile s1 e it.q t) e it.q t false
          else setCmd s it.q fun c => { c with work := some { w1 with reducers := insertKey t e w1.reducers } }

def execSplitkArrival (e : Nat) (s : State) : Host.Outcome State Fault Refusal := .next (splitkArrival s e)

/-- Whether every partial of a tile but the reducer's is ready (R135). -/
def allReady (w : Work) (t : Nat) : Bool := (w.ready.filter (·.1 == t)).length + 1 == w.grid.chunks

/-- The item of which an engine holds a tile of a queue's command. -/
def holdingItem (s : State) (e q t : Nat) : Option Item := (engineOf s e).items.find? fun it => it.q == q && it.tiles.contains t

/-- The partials of a tile by chunk: those in scratch, and the reducer's own, of the chunk of its item (R135). -/
def gatherPartials (w : Work) (t own : Nat) : List (List Nat) :=
  let kept := (List.range (w.grid.chunks - 1)).filterMap fun a => lookupKey (scratchKey t a) w.scratch
  (List.range w.grid.chunks).map fun c =>
    if c = own then (lookupKey (partKey t c) w.partials).getD [] else (lookupKey c kept).getD []

/-- The rows that a reducer writes for a tile of a split MX_GEMM or CONV2D. -/
def reducedRows (s : State) (p t : Nat) (c : Cmd) (parts : List (List Nat)) : Except Fail (List OutRow) :=
  let d := c.loaded.headD 0
  if hOpcode c.hdr = 0x100 then gReduced s p c.body d c.seed t parts else cReduced s p c.body d c.seed t parts

/-- The numeric event that a status tells of (R59). -/
def eventOf : Status → NumEvent
  | .numNanOut => .nan
  | .numInfOut => .inf
  | .numSaturated => .saturated
  | _ => .none

/-- The result of a command with one more event (R59, R92). -/
def withEvent (ev : NumEvent) (r : Result) : Result :=
  match eventStatus (worse (eventOf r.status) ev) with
  | some st => { r with status := st, a := 0, b := 0 }
  | none => r

/-- The rows of a reduced tile are written, or the command ends early with its outputs undefined. -/
def writeReduced (s : State) (q p : Nat) (c : Cmd) (rows : Except Fail (List OutRow)) : State :=
  let stop (f : Fail) : State := endEarly (discardItems s q) q p f c.outs (match c.work with | some w => w.written | none => 0)
  match rows with
  | .error f => stop f
  | .ok rs => match storeAll s p q (outWrites rs) with
    | .error f => stop f
    | .ok s1 => setQueue s1 q fun Q => { Q with result := Q.result.map (withEvent (outEvent rs)) }

/-- SPLITK_REDUCE (R135): the reducer combines the partials of a tile by chunk once all ready bits are set; the tile is written and
its slot freed. -/
def splitkReduce (s : State) (q t : Nat) : State :=
  match openWorkOf (queueOf s q) with
  | none => s
  | some (c, w) => match lookupKey t w.reducers with
    | none => s
    | some e => match holdingItem s e q t with
      | none => s
      | some it =>
        if !allReady w t then s
        else
          let rows := reducedRows s (queueOf s q).cfg.part t c (gatherPartials w t (itemChunk w.grid it.index))
          let s1 := setCmd s q fun c => { c with work := some { w with reducers := eraseKey t w.reducers } }
          let s2 := setCounts s1 q fun c => { c with splitReduce := satAdd 48 c.splitReduce 1 }
          writeReduced (countWritten (leaveSlots (dropTile s2 e q t) e q t false) q 1) q (queueOf s q).cfg.part c rows

def execSplitkReduce (q t : Nat) (s : State) : Host.Outcome State Fault Refusal := .next (splitkReduce s q t)

/-- R240: the home furrow of a sequence's state: that of the engine with the first granule of its record. -/
def homeFurrow (s : State) (p slot id : Nat) : Option Nat :=
  match residentRecord s p id slot with
  | none => none
  | some (st, _) => match cohortOf s st.cohort with
    | none => none
    | some co => match co.granules.getD slot [] with
      | g :: _ => some (g / 64 / 2)
      | [] => none

/-- R224: the furrow that runs phase 2 of a pair: the home furrow of the state with init_sel = 2 or write_back = 1, else the one that
finished its last phase-1 item. -/
def phase2Furrow (s : State) (p pair : Nat) (c : Cmd) (w : Work) : Option Nat :=
  if lInit c.body = 2 ∨ lWriteBack c.body = true then
    homeFurrow s p (lSlot c.body) (c.loaded.getD (pair / max 1 (lBlocks c.body)) 0)
  else lookupKey pair w.finisher

/-- SCAN_PHASE2 (R224): once all phase-1 items of a pair have finished, its furrow runs phase 2 and its phase-3 items go onto
the redispatch list in ascending order. -/
def scanPhase2 (s : State) (q pair : Nat) : State :=
  match openWorkOf (queueOf s q) with
  | none => s
  | some (c, w) =>
    let C := w.grid.scan
    if C = 0 ∨ w.grid.items ≤ pair * C ∨ w.phase2.contains pair ∨ pairFinished w pair = false then s
    else setQueue s q fun Q => { Q with
      redispatch := sortBy (Q.redispatch ++ rangeFrom (w.grid.items + pair * C) C) fun a b => decide (a ≤ b)
      cmd := Q.cmd.map fun x => { x with work := some { w with
        phase2 := w.phase2 ++ [pair]
        scanner := match phase2Furrow s Q.cfg.part pair c w with | some f => insertKey pair f w.scanner | none => w.scanner } } }

def execScanPhase2 (q pair : Nat) (s : State) : Host.Outcome State Fault Refusal := .next (scanPhase2 s q pair)

/-! ### Transit -/

/-- STREAM_TRANSIT_DONE (R234): the data of a stream's transition has moved. -/
def execStreamTransitDone (id : Nat) (s : State) : Host.Outcome State Fault Refusal :=
  .next (setStream s id fun st => { st with transit := false })

/-! ### The commit -/

/-- Whether a taker holds an item of a queue, or a harrow has a tile of it in its intake buffer (R88). -/
def heldByTaker (s : State) (q : Nat) : Bool :=
  s.field.engines.any (fun E => E.items.any (·.q == q))
    || s.field.harrows.any (fun H => H.items.any (·.q == q) || H.intake.any (·.q == q))

/-- Whether the takers have finished a command's work: a command that ends early waits only for the items that takers
still hold (R88). -/
def workFinished (s : State) (q : Nat) (Q : Queue) (c : Cmd) : Bool :=
  match c.work with
  | none => true
  | some w =>
    !heldByTaker s q && ((openWorkOf Q).isNone
      || (decide (countedItems c w ≤ Q.counter) && Q.redispatch.isEmpty && w.bound.isEmpty
        && (w.grid.scan == 0 || w.phase2.length * w.grid.scan == w.grid.items)))

/-- STREAM operations whose completion waits for the transit they started (R234). -/
def waitsTransit (c : Cmd) : Bool := [0x301, 0x302, 0x303].contains (hOpcode c.hdr)

/-- Whether a write of queue `q` waits behind a plot move, or its record would (R312). -/
def writesWait (s : State) (q : Nat) (Q : Queue) (c : Cmd) : Bool :=
  (s.mem.moves.any fun m => m.writes.any (·.q == q)) || (hRecord c.hdr && movingAt s Q.cfg.part (hRecordAddr c.hdr))

/-- Whether a status may commit (R78): the command has a result, its work is finished, the data of the streams that it
moved is no longer in transit, its moves have ended and its writes have landed; a command of a queue whose function is in D3hot stays
in CHECK (R429). -/
def committable (s : State) (q : Nat) : Bool :=
  let Q := queueOf s q
  match Q.cmd, Q.result with
  | some c, some r => workFinished s q Q c && !(waitsTransit c && isDone r.status && anyTransit s c.streams)
      && !movesLeft s q && !writesWait s q Q c && !(Q.state == .check && (pciFn s Q.cfg.owner).d3hot)
  | _, _ => false

end Sys2Proof.Machine
end

