-- ==== Sys2Proof/Machine/Queues.lean ====
section
/-! DEFINITION. The front end of a queue: doorbells (R66, R432), fetch and stage A (R67, R70 to R72, R82, R403), the fence
window (R77, R433), and the four commands of engine kind 0x0 (R86). -/

namespace Sys2Proof.Machine

/-! ### Doorbells -/

/-- The partition whose queues a writer of doorbells reaches (R66, R399): a function's, or that of the furrow of a
tender. -/
def senderPart (s : State) : Sender → Option Nat
  | .function fn => if (pciFn s fn).enabled then fnPart s fn else none
  | .tender f => (List.range 4).find? fun p => (partOf s p).configured && (partFurrows (partOf s p)).contains f

def rejectDoorbell (s : State) (p : Nat) : State :=
  setPart s p fun P => { P with counts := { P.counts with dbReject := satAdd 32 P.counts.dbReject 1 } }

/-- R66: whether a new tail lies within one ring of the head and not behind the tail. -/
def tailOk (Q : Queue) (t : Nat) : Bool :=
  decide (ringDiff t Q.head ≤ ringUnits Q) && decide (ringDiff Q.tail Q.head ≤ ringDiff t Q.head)

/-- DOORBELL_WRITE (R66, R432): a write of `size` bytes to the doorbell of a queue. A DISABLED queue refuses it, and
every queue while the device is halted (R521). -/
def doorbellWrite (s : State) (from_ : Sender) (q size val : Nat) : State :=
  match senderPart s from_ with
  | none => s
  | some p =>
    let Q := queueOf s q
    let t := val % 2 ^ 32
    if Q.state == .disabled || s.flt.halted || Q.cfg.part != p || (size != 4 && size != 8) || (size == 8 && decide (2 ^ 32 ≤ val % 2 ^ 64)) || !tailOk Q t
    then rejectDoorbell s p
    else setQueue s q fun X => { X with
      tail := t
      state := if X.state == .empty && ringDiff t X.head != 0 then .fetch else X.state
      since := if X.state == .empty && ringDiff t X.head != 0 then s.now else X.since }

/-- A function's doorbell write arrives at its BAR0; a tender's does not. -/
def execDoorbellWrite (sender : Sender) (q size val : Nat) (s : State) : Host.Outcome State Fault Refusal :=
  .next (match sender with
    | .function fn => barWrite s fn fun x => doorbellWrite x sender q size val
    | .tender _ => doorbellWrite s sender q size val)

/-! ### The fence window -/

/-- FENCE_WRITE (R77, R433): a naturally aligned 8-byte write to a fence word; one with bit [63] set is ignored. -/
def fenceWrite (s : State) (fn off size val : Nat) : State :=
  match (if (pciFn s fn).enabled then fnPart s fn else none) with
  | none => s
  | some p =>
    if size = 8 ∧ off % 8 = 0 ∧ off < 0x8000 ∧ val % 2 ^ 64 < 2 ^ 63 then signalFence s p (off / 8) (val % 2 ^ 64) false else s

def execFenceWrite (fn off size val : Nat) (s : State) : Host.Outcome State Fault Refusal :=
  .next (barWrite s fn fun x => fenceWrite x fn off size val)

/-! ### Stage A -/

/-- A header field that must be 0: where it starts, and the failing byte offset. -/
def headZero (h : Nat) (bad : Bool) (lo len off : Nat) : Bool × Fail :=
  (bad && fld h lo len != 0, failAt .loadReservedNonzero off 0)

/-- Check 4: reserved header fields and fields whose flag is clear, in order of their offsets (R13, R70). -/
def headReserved (h : Nat) : List (Bool × Fail) :=
  [headZero h true 12 4 1, headZero h true 25 7 3, headZero h true 39 25 4, headZero h (!hWait h) 64 64 8,
   headZero h (!hSignal h) 128 64 16, headZero h (!hWait h) 192 12 24, headZero h true 204 4 25,
   headZero h (!hSignal h) 208 12 26, headZero h true 220 4 27, headZero h (!hStream h) 224 20 28,
   headZero h true 244 4 30, headZero h (!hSeed h) 248 8 31, headZero h (!hRecord h) 256 48 32, headZero h true 304 16 38,
   headZero h true 384 128 48]

/-- The stage-A checks 1 to 7 (Table 3-4). -/
def stageA (s : State) (Q : Queue) (h : Nat) : List (Bool × Fail) :=
  let op := hOpcode h
  [((opUnits op).isNone, failAt .loadBadOpcode 0 0), (opKind op != 0 && opKind op != Q.cfg.kind, failAt .loadWrongEngine 0 0),
   (opUnits op != some (hUnits h), failAt .loadBadLength 2 0)]
    ++ headReserved h
    ++ [(hBe h != Q.cfg.be, failAt .loadClassMismatch 3 0), (bitOf h 127, failAt .loadBadFence 8 0),
        (bitOf h 191, failAt .loadBadFence 16 0),
        (hRecord h && (hRecordAddr h % 64 != 0 || !mappedWrite s Q.cfg.part (hRecordAddr h) 64), failAt .loadBadRecord 32 0)]

/-- A command as it is fetched. -/
def newCmd (h body : Nat) : Cmd :=
  { hdr := h, body := body, start := none, order := 0, seed := none, outs := [], reads := [], windows := [], waiting := none,
    stall := none, streams := [], resFrames := [], chargeLoam := 0, chargeSub := 0, reserved := [], appends := [], undo := [],
    key := none, fill := none, paging := false, late := none, loaded := [], ending := none, done := 0, work := none }

/-- R403: a queue whose ring cannot be read is HALTED; no record and no signal; the cause is captured, and counted (Table 13-14).
DEDUCED, log entry 50. -/
def ringFault (s : State) (q : Nat) (f : Fail) (op : Nat) : State :=
  let Q := queueOf s q
  raiseEvent (countEnded (setQueue s q fun X => { X with state := .halted, err := captureErr X.err (statusCode f.status) X.seq op })
    Q.cfg.part f.status) 0 Q.cfg.part

/-- The body units of a command in the ring, which may wrap (R65). -/
def loadBody (s : State) (Q : Queue) (n : Nat) : Except Fail Nat :=
  match (List.range n).mapM fun i => loadNat s Q.cfg.part (ringAddr Q (Q.head + 1 + i)) 64 with
  | .error f => .error f
  | .ok us => .ok (us.foldr (fun u acc => u + 2 ^ 512 * acc) 0)

/-- Where a command goes after stage A (R74, R76). -/
def afterStageA (P : Partition) (Q : Queue) (c : Cmd) : Queue :=
  if hWait c.hdr then (if waitMet P c.hdr then leaveWait P Q else { Q with state := .wait }) else { Q with state := .check }

/-- The command at the head is read: it fails at stage A, ends as an abort has fixed (R88), or goes on. -/
def accept (s : State) (q h body : Nat) : State :=
  let Q := queueOf s q
  let c := newCmd h body
  match lookupKey Q.seq Q.doomed, firstFail (stageA s Q h) with
  | some st, _ => setQueue s q fun X => { X with cmd := some c, result := some ⟨st, 0, 0, 0⟩ }
  | none, some f => setQueue s q fun X => { X with cmd := some c, result := some (failResult f 0) }
  | none, none => setQueue s q fun X => afterStageA (partOf s X.cfg.part) { X with cmd := some c } c

/-- The ring units of a command are read; the failure of a read of host memory. -/
def useRing (s : State) (Q : Queue) (n : Nat) : Option Fail × State :=
  let spans := (List.range n).map fun i => (ringAddr Q (Q.head + i), 64)
  hostFires (useReads s Q.cfg.part spans) Q.cfg.part spans

/-- QUEUE_FETCH (R67, R82, R403): once the tail covers the whole command, the front end reads it and runs stage A. A header
that exceeds the ring runs stage A alone. Nothing is fetched for a function in D3hot (R429). -/
def queueFetch (s : State) (q : Nat) : State :=
  let Q := queueOf s q
  if Q.state != .fetch || Q.cmd.isSome || ringDiff Q.tail Q.head == 0 || (pciFn s Q.cfg.owner).d3hot then s
  else match loadNat s Q.cfg.part (ringAddr Q Q.head) 64 with
    | .error f => ringFault s q f 0
    | .ok h =>
      let long : Bool := decide (ringUnits Q < 1 + hUnits h)
      if !long && decide (ringDiff Q.tail Q.head < 1 + hUnits h) then s
      else
        let n := if long then 1 else 1 + hUnits h
        let (bad, s1) := useRing s Q n
        match bad, loadNat s1 Q.cfg.part (ringAddr Q Q.head) 64, loadBody s1 Q (n - 1) with
        | some f, _, _ => ringFault s1 q f 0
        | none, .error f, _ => ringFault s1 q f 0
        | none, .ok _, .error f => ringFault s1 q f (hOpcode h)
        | none, .ok _, .ok body => accept s1 q h body

def execQueueFetch (q : Nat) (s : State) : Host.Outcome State Fault Refusal := .next (queueFetch s q)

/-! ### Engine kind 0x0 (R86) -/

/-- A command whose one check of stage B is that of its header's stream (R229). -/
def noChecks (s : State) (Q : Queue) (c : Cmd) : List (Bool × Fail) := streamCheck s (partOf s Q.cfg.part) c.hdr false

/-- A command's whole effect is that it completes. -/
def effectDone (s : State) (q : Nat) (_ : Queue) (_ : Cmd) : State := setResult s q ⟨.completed, 0, 0, 0⟩

/-- NOP (R86). -/
def execNop (q : Nat) (s : State) : Host.Outcome State Fault Refusal := .next (runCommand s q 0x000 noChecks (fun st => effectDone st q))

/-- FENCE_SIGNAL (R86): nothing beyond its header's wait and signal. -/
def execFenceSignal (q : Nat) (s : State) : Host.Outcome State Fault Refusal :=
  .next (runCommand s q 0x001 noChecks (fun st => effectDone st q))

/-- Checks of FENCE_RESET: body bits [511:12] are reserved (R86), and that of the header's stream (R229). -/
def checksFenceReset (s : State) (Q : Queue) (c : Cmd) : List (Bool × Fail) :=
  reservedBody c.body [(12, 500)] ++ streamCheck s (partOf s Q.cfg.part) c.hdr false

/-- FENCE_RESET (R86): the fence becomes 0 without its error bit; a waiter on it stays in WAIT. -/
def effectFenceReset (s : State) (q : Nat) (Q : Queue) (c : Cmd) : State :=
  setResult (setPart s Q.cfg.part fun P => { P with fences := insertKey (fld c.body 0 12) { value := 0, err := false } P.fences }) q
    ⟨.completed, 0, 0, 0⟩

def execFenceReset (q : Nat) (s : State) : Host.Outcome State Fault Refusal :=
  .next (runCommand s q 0x002 checksFenceReset (fun st => effectFenceReset st q))

/-- TIMESTAMP (R86): it commits at once. -/
def timestamp (s : State) (q : Nat) : State :=
  match inCheck s q 0x003 with
  | none => s
  | some _ => commitQueue (runCommand s q 0x003 noChecks (fun st => effectDone st q)) q

def execTimestamp (q : Nat) (s : State) : Host.Outcome State Fault Refusal := .next (timestamp s q)

end Sys2Proof.Machine
end

