-- ==== Sys2Proof/Machine/Blobs.lean ====
section
/-! DEFINITION. Sealed blobs (R243 to R245, R276): the KV section, sealing a stream, and reading a blob back. -/

namespace Sys2Proof.Machine

def blobMagic : Nat := 0x47535442

/-- The layout digest (R232). -/
def layoutDigest (l : Layout) : List Byte :=
  (Config.sha256 (toLe 4 l.model ++ l.records.flatMap fun r =>
    toLe 8 (putFld r.n 0 24 + putFld r.fmt 24 8 + putFld (if r.carry then 1 else 0) 32 1))).take 16

def emptyLayout : Layout := { model := 0, records := [] }

def layoutOf (s : State) (p slot : Nat) : Layout := (lookupKey slot (partOf s p).layouts).getD emptyLayout

/-! ### The KV section (R276) -/

/-- Whether a page's bytes travel: a dropped page has none. -/
def pagePresent (g : Page) : Bool := match g.home with | .dropped => false | _ => true

/-- The directory entries of a root in order of layer and page index, with their records. -/
def kvPages (K : Pool) (kv : KvRoot) : List (Nat × Nat × Page) :=
  kv.dir.filterMap fun (k, e) => (pageOf K e.page).map fun g => (k, e.page, g)

/-- Bytes of a stream's KV section. -/
def kvSectionBytes (s : State) (st : Stream) : Nat :=
  match st.kv with
  | none => 320
  | some kv => match poolOf s st.part kv.pool with
    | none => 320
    | some K => (kvPages K kv).foldl (fun n (_, _, g) =>
        n + 64 + (if pagePresent g then pageBytes K else 0) + (if g.srcLost then 0 else srcBytes K)) 320

/-- The header of a KV section; without KV every byte is 0. -/
def kvHeader (K : Option Pool) (kv : Option KvRoot) (pages : Nat) : List Byte :=
  let tok (i : Nat) : Nat := match kv with | some r => (lookupKey i r.tokens).getD 0 | none => 0
  let head : List Byte := match K with
    | some J => toLe 4 pages ++ toLe 2 J.hkv ++ toLe 2 J.dh ++ toLe 2 J.inDim ++ toLe 1 J.fmtKv ++ toLe 1 J.fmtX ++ toLe 1 J.layers
    | none => []
  padTo 64 head ++ (List.range 64).flatMap fun i => toLe 4 (tok i)

/-- A page's entry: header, bytes when present, source block when present; with whether a slot error drops the page, and whether its
source block cannot be read, which is lost then (R273). -/
def kvEntry (s : State) (K : Pool) (k id : Nat) (g : Page) : List Byte × Bool × Bool :=
  let page : Option (List Byte) := if pagePresent g then
      (match readRegion s (slotAddr K g.home) (pageBytes K) with | .ok b => some b | .error _ => none) else none
  let src : Option (List Byte) := if g.srcLost then none else
      (match readRegion s (srcAddr K id) (srcBytes K) with | .ok b => some b | .error _ => none)
  let flags := (if page.isSome then 1 else 0) + (if src.isSome then 2 else 0)
  (padTo 64 (toLe 2 (k / 4096) ++ toLe 2 (k % 4096) ++ toLe 1 g.fill ++ toLe 1 flags ++ toLe 2 0 ++ toLe 4 g.wTag)
    ++ page.getD [] ++ src.getD [], pagePresent g && page.isNone, !g.srcLost && src.isNone)

/-- The lines of a page and its source block are read. -/
def useEntry (s : State) (p : Nat) (K : Pool) (id : Nat) (g : Page) : State :=
  let s1 := if pagePresent g then useRegion s p (slotAddr K g.home) (pageBytes K) else s
  if g.srcLost then s1 else useRegion s1 p (srcAddr K id) (srcBytes K)

/-- A page's slot error drops it, and that of its source block sets src_lost (R273). -/
def noteErrors (s : State) (p k id : Nat) (dropped lost : Bool) : State :=
  let s1 := if lost then setPage s p k id fun g => { g with srcLost := true } else s
  if dropped then dropPage s1 p k id else s1

/-- The KV section of a stream, and the state with what its reads have found. -/
def kvSection (s : State) (st : Stream) : List Byte × State :=
  match st.kv with
  | none => (kvHeader none none 0, s)
  | some kv => match poolOf s st.part kv.pool with
    | none => (kvHeader none none 0, s)
    | some K =>
      let ps := kvPages K kv
      ps.foldl (fun (bs, x) (k, id, g) =>
        let x := useEntry x st.part K id g
        let (e, dropped, lost) := kvEntry x K k id g
        (bs ++ e, noteErrors x st.part kv.pool id dropped lost)) (kvHeader (some K) (some kv) ps.length, s)

/-! ### Sealing -/

/-- Length of a blob of `b` body bytes. -/
def blobLength (b : Nat) : Nat := 128 + b

/-- Body bytes of a stream's blob. -/
def blobBody (s : State) (st : Stream) (withKv : Bool) : Nat :=
  imageBytes (recordsOf s st) + (if withKv then kvSectionBytes s st else 0)

/-- The 64-byte header (Table 10-4). -/
def blobHeader (id : Nat) (l : Layout) (st : Stream) (withKv : Bool) (units nonce : Nat) : List Byte :=
  toLe 4 blobMagic ++ toLe 2 1 ++ toLe 2 (if withKv then 1 else 0) ++ toLe 4 l.model ++ toLe 4 id ++ padTo 16 (layoutDigest l)
    ++ toLe 8 st.step ++ toLe 4 st.tag ++ toLe 4 st.kvTokens ++ toLe 4 units ++ toLe 12 nonce

/-- R243: seal a stream under a key. The nonce is a free value: it comes from the random source. Injection point 0x1D
inverts the crc field (Table 24-5). -/
def sealStream (s : State) (id : Nat) (st : Stream) (key : Nat) (withKv : Bool) : Except Fail (List Byte × State) :=
  match recordBytes s st with
  | .error f => .error f
  | .ok rec =>
    let (kv, s1) := if withKv then kvSection s st else ([], s)
    let (n, s2) := takeFree s1 1
    let nonce := Config.freeKey n % 2 ^ 96
    let body := rec ++ kv
    let head := blobHeader id (layoutOf s st.part st.layout) st withKv (body.length / 64) nonce
    let (ct, tag) := Config.gcmSeal key nonce head body
    let front := head ++ padTo body.length (ct.take body.length) ++ padTo 16 (tag.take 16)
    let (flip, s3) := injected s2 0x1D st.part
    let crc := if flip then 2 ^ 32 - 1 - (crc32c front).toNat else (crc32c front).toNat
    .ok (front ++ toLe 4 crc ++ List.replicate 44 0, s3)

/-- At its stage B an export or an import takes the key of its slot, if the slot has one (R495). -/
def takeKey (s : State) (q slot : Nat) : State :=
  setCmd s q fun x => { x with key := (lookupKey slot (partOf s (queueOf s q).cfg.part).blobKeys).map (·.key) }

/-- Why an export cannot start (Table 10-11): the stream's state, then the key. -/
def exportRefused (st : Stream) (key : Option Nat) : Option Fail :=
  if !(st.st == .parked || (st.st == .resident && !st.undef)) then some (failAt .streamBadState 0 0)
  else if key.isNone then some (failAt .secKeyAbsent 0 0)
  else none

/-- R245: an exported stream keeps its state, or leaves the device for its blob. -/
def exported (s : State) (id addr len : Nat) (keep : Bool) : State :=
  if keep then setStream s id fun x => { x with blobUnits := len / 64, lastStatus := 0 }
  else setStream (freeImage (leaveCohort s id) id) id fun x =>
    { x with st := .exported, imageAddr := addr, blobUnits := len / 64, lastStatus := 0 }

/-! ### Reading a blob -/

/-- A byte field of a blob. -/
def blobFld (bs : List Byte) (off n : Nat) : Nat := ofLe ((bs.drop off).take n)

/-- A blob opened under a key: its header bytes and its plaintext body. -/
structure Opened where
  head : List Byte
  body : List Byte
  deriving DecidableEq, Repr

/-- R244, steps 1 to 3, with the key that the command has taken. -/
def openBlob (key : Option Nat) (bs : List Byte) : Except Fail Opened :=
  let B := 64 * blobFld bs 48 4
  if bs.length < 128 ∨ blobFld bs 0 4 ≠ blobMagic ∨ blobFld bs 4 2 ≠ 1 ∨ 128 + B ≠ bs.length
      ∨ blobFld bs (80 + B) 4 ≠ (crc32c (bs.take (80 + B))).toNat then .error (failAt .streamBlobCorrupt 0 0)
  else match key with
    | none => .error (failAt .secKeyAbsent 0 0)
    | some k => match Config.gcmOpen k (blobFld bs 52 12) (bs.take 64) ((bs.drop 64).take B) ((bs.drop (64 + B)).take 16) with
      | none => .error (failAt .secBlobAuth 0 0)
      | some pt => .ok { head := bs.take 64, body := padTo B (pt.take B) }

def blobWithKv (o : Opened) : Bool := blobFld o.head 6 2 % 2 == 1

/-- R244 step 4: whether model and digest are those of a layout slot. -/
def blobMatches (o : Opened) (l : Layout) : Bool :=
  blobFld o.head 8 4 == l.model && (o.head.drop 16).take 16 == padTo 16 (layoutDigest l)

/-- R276: the lowest-numbered pool whose fields match a KV section's header. -/
def matchPool (P : Partition) (kv : List Byte) : Option (Nat × Pool) :=
  P.pools.find? fun (_, K) =>
    K.hkv == blobFld kv 4 2 && K.dh == blobFld kv 6 2 && K.inDim == blobFld kv 8 2 && K.fmtKv == blobFld kv 10 1
      && K.fmtX == blobFld kv 11 1 && K.layers == blobFld kv 12 1

/-- A page of a KV section: layer, page index, fill, w_tag, bytes and source block where present. -/
structure KvPage where
  layer : Nat
  idx : Nat
  fill : Nat
  tag : Nat
  bytes : Option (List Byte)
  src : Option (List Byte)
  deriving DecidableEq, Repr

/-- The entries of a KV section after its header. -/
def kvEntries (K : Pool) : Nat → List Byte → List KvPage
  | 0, _ => []
  | n + 1, bs =>
    let flags := blobFld bs 5 1
    let has := bitOf flags 0
    let hasSrc := bitOf flags 1
    let rest := bs.drop 64
    let rest1 := if has then rest.drop (pageBytes K) else rest
    let rest2 := if hasSrc then rest1.drop (srcBytes K) else rest1
    { layer := blobFld bs 0 2, idx := blobFld bs 2 2, fill := blobFld bs 4 1, tag := blobFld bs 8 4,
      bytes := if has then some (rest.take (pageBytes K)) else none,
      src := if hasSrc then some (rest1.take (srcBytes K)) else none } :: kvEntries K n rest2

/-- The pages and token counts of a KV section. -/
def kvContents (K : Pool) (kv : List Byte) : List KvPage := kvEntries K (blobFld kv 0 4) (kv.drop 320)

def kvTokenCounts (kv : List Byte) : List (Nat × Nat) :=
  (List.range 64).filterMap fun i =>
    let n := blobFld kv (64 + 4 * i) 4
    if n = 0 then none else some (i, n)

/-- Directory units of each layer that has pages (R257). -/
def kvUnits (ps : List KvPage) : List (Nat × Nat) :=
  (List.range 64).filterMap fun l =>
    let n := (ps.filter (·.layer == l)).foldl (fun m x => max m (x.idx / 1024 + 1)) 0
    if n = 0 then none else some (l, n)

/-- R270: whether only busy pages stand in the way of a loam slot, so that the gleaner waits for busy to clear. -/
def busyBlocks (s : State) (p k : Nat) : Bool :=
  match poolOf s p k with
  | none => false
  | some K => K.recs.any fun e => (inLoam e.2 || inSubsoil e.2) && e.2.busy && eligible (attendedPages s p k) (e.1, { e.2 with busy := false })

/-- Where an installed page goes: into loam where the gleaner finds a slot, else into a free subsoil slot, else dropped, as it is when it
has no bytes; nothing while busy pages stand in the way (R270). DEDUCED, log entry 54. -/
def installHome (s : State) (p k : Nat) (K : Pool) (g : KvPage) : Option (PageHome × State) :=
  match g.bytes with
  | none => some (.dropped, s)
  | some _ => match takeSlot s p k false with
    | some (i, x) => some (.loam i, x)
    | none =>
      if busyBlocks s p k then none
      else match lowestFree (usedSubSlots K) K.subSlots with
        | some j => some (.subsoil j, s)
        | none => some (.dropped, s)

/-- Why an import cannot go on: a status, or the wait of R270. -/
inductive Halt where
  | fails (f : Fail)
  | waits
  deriving DecidableEq, Repr

/-- Install one page. -/
def installPage (s : State) (p k : Nat) (g : KvPage) : Except Halt (Nat × State) :=
  match poolOf s p k with
  | none => .error (.fails (failAt .streamTableFull 0 0))
  | some K => match lowestFree (K.recs.map (·.1)) K.pages, installHome s p k K g with
    | none, _ => .error (.fails (failAt .streamTableFull 0 0))
    | some _, none => .error .waits
    | some id, some (home, s1) =>
      let rec_ : Page := { home := home, wTag := g.tag, lastUse := s.now / 1000, refs := 1, pins := 0, fill := g.fill,
                           layer := g.layer, busy := false, srcLost := g.src.isNone }
      let s2 := setPool s1 p k fun J => { J with recs := insertKey id rec_ J.recs }
      let s3 := match g.bytes, home with
        | some _, .dropped => s2
        | some bs, h => (match writeRegion s2 p ownerless (slotAddr K h) bs with | .ok x => x | .error _ => s2)
        | none, _ => s2
      let s4 := match g.src with
        | some bs => (match writeRegion s3 p ownerless (srcAddr K id) bs with | .ok x => x | .error _ => s3)
        | none => s3
      .ok (id, s4)

/-- Install all pages: directory entries, unless the identifiers run out. -/
def installPages (p k : Nat) : List KvPage → State → Except Halt (List (Nat × DirEntry) × State)
  | [], s => .ok ([], s)
  | g :: rest, s => match installPage s p k g with
    | .error h => .error h
    | .ok (id, s1) => match installPages p k rest s1 with
      | .error h => .error h
      | .ok (es, s2) => .ok (insertKey (dirKey g.layer g.idx) { page := id, pin := false } es, s2)

/-- The KV root of an imported stream, unless the pool cannot supply identifiers or units. -/
def installKv (s : State) (p k : Nat) (K : Pool) (kv : List Byte) : Except Halt (KvRoot × State) :=
  let ps := kvContents K kv
  let units := kvUnits ps
  let need := 1 + (units.map (·.2)).foldl (· + ·) 0
  match (poolOf s p k).bind fun J => takeUnits J need with
  | none => .error (.fails (failAt .streamTableFull 0 0))
  | some (us, J) => match installPages p k ps (setPool s p k fun _ => J) with
    | .error h => .error h
    | .ok (dir, s1) =>
      .ok ({ pool := k, unit := us.headD 0, tokens := kvTokenCounts kv,
              units := dealUnits (units.map fun (l, n) => (l, List.replicate n 0)) (us.drop 1), dir := dir }, s1)

end Sys2Proof.Machine
end

