-- ==== Sys2Proof/Machine/Streams.lean ====
section
/-! DEFINITION. The commands of the STREAM engine on streams (R233 to R246, R251, R252, R275) and SWATH_STEP's opening
(R247, R249, R250). -/

namespace Sys2Proof.Machine

/-! ### Running a STREAM command -/

/-- The streams that a STREAM command names for R234 and R235: the header's, or an import's target. -/
def streamNames (op : Nat) (c : Cmd) : List Nat :=
  if op = 0x300 then []
  else if op = 0x305 then (if bitOf c.body 144 then [fld c.body 148 20] else [])
  else [hStreamId c.hdr]

/-- Whether a STREAM command reads or moves resident state, so that it waits under R207 (R235). -/
def movesState (op : Nat) : Bool := op == 0x301 || op == 0x302 || op == 0x304 || op == 0x305 || op == 0x306 || op == 0x403

/-- Opcodes whose commands take effect in the order of their stage B on one stream (R235). -/
def streamOp (op : Nat) : Bool := (decide (0x301 ≤ op) && decide (op ≤ 0x306)) || op == 0x320 || op == 0x403

/-- R207, R235, R265: whether an executing command holds back the effect of queue `q`'s STREAM command. -/
def streamBlocked (s : State) (q : Nat) : Bool :=
  match (queueOf s q).cmd with
  | none => false
  | some c =>
    let op := hOpcode c.hdr
    s.queues.any fun R => match R.cmd with
      | none => false
      | some d => R.state == .run && d.streams.any c.streams.contains
          && ((movesState op && (hOpcode d.hdr == 0x110 || hOpcode d.hdr == 0x111))
            || (excludesAttend c && hOpcode d.hdr == 0x120)
            || (streamOp (hOpcode d.hdr) && decide (d.order < c.order)))

/-- Table 17-5: the STREAM engine has one execution slot per partition; a SWATH_STEP holds it only for its open and its
commit. DEDUCED, log entry 75. -/
def streamSlotBusy (s : State) (q : Nat) : Bool :=
  s.queues.any fun R => R.cfg.kind == 3 && R.cfg.part == (queueOf s q).cfg.part && R.state == .run
    && (match R.cmd with | some d => hOpcode d.hdr != 0x310 | none => false)

/-- Table 17-5: of the STREAM commands of a partition that wait for the slot, those of LC queues take it before those of BE queues: whether
an LC queue's command stands in CHECK before queue `q`'s. -/
def lcFirst (s : State) (q : Nat) : Bool :=
  let Q := queueOf s q
  Q.cfg.be && s.queues.any fun R => R.cfg.kind == 3 && R.cfg.part == Q.cfg.part && !R.cfg.be && R.state == .check && R.result.isNone
    && !(pciFn s R.cfg.owner).d3hot && (match R.cmd with
      | some d => !headerTransit s R.cfg.part d && !anyTransit s (streamNames (hOpcode d.hdr) d)
          && !(hOpcode d.hdr == 0x310 && decide (16 ≤ (partOf s R.cfg.part).swaths.length))
      | none => false)

/-- A STREAM command whose effect has run commits at once when nothing of it is in transit. -/
def commitIfDone (now : Bool) (s : State) (q : Nat) : State :=
  let Q := queueOf s q
  if now && Q.state == .run && Q.result.isSome then commitQueue s q else s

/-- The event of a STREAM command: from CHECK it runs stage B once no stream it names is in transit; in RUN, it takes effect
once nothing holds it back (R234, R235). `now`: it commits with its effect. DEDUCED, log entry 65. -/
def streamEvent (s : State) (q op : Nat) (now : Bool) (checks : State → Queue → Cmd → List (Bool × Fail))
    (start : State → Nat → Cmd → State) (effect : State → Nat → Cmd → State) : State :=
  let go (x : State) : State := match (queueOf x q).cmd with
    | some c => if streamBlocked x q then x else commitIfDone now (effect x q c) q
    | none => x
  match inCheck s q op with
  | some (_, c) =>
    if anyTransit s (streamNames op c) || (opKind op == 3 && (streamSlotBusy s q || lcFirst s q)) then s
    else runCommand s q op checks fun x _ c => go (setCmd (start x q c) q fun y => { y with streams := streamNames op c })
  | none =>
    let Q := queueOf s q
    match Q.state, Q.cmd, Q.result with
    | .run, some c, none => if hOpcode c.hdr = op ∧ c.ending = none ∧ c.waiting = none then go s else s
    | _, _, _ => s

def noStart (s : State) (_ : Nat) (_ : Cmd) : State := s

def failCmd (s : State) (q : Nat) (f : Fail) : State := setResult s q (failResult f 0)

/-- Check 20 for the images of a command (R241). -/
def imageCheck (s : State) (Q : Queue) (q : Nat) (imgs : List (List Record)) : Bool × Fail :=
  ((reserveImages s Q.cfg.part q imgs).isNone, failAt .loadQuota 0xFFFFFFFF 1)

/-- Reserve the images of a command; check 20 has found room. -/
def startImages (s : State) (q : Nat) (imgs : List (List Record)) : State :=
  match reserveImages s (queueOf s q).cfg.part q imgs with
  | some (_, s1) => s1
  | none => s

/-- The records of the stream that a header names. -/
def headerRecords (s : State) (c : Cmd) : List Record :=
  match streamOf s (hStreamId c.hdr) with | some st => recordsOf s st | none => []

/-! ### STREAM_CREATE (R238, Table 10-5) -/

def checksStreamCreate (s : State) (Q : Queue) (c : Cmd) : List (Bool × Fail) :=
  let P := partOf s Q.cfg.part
  let b := c.body
  reservedBody b [(6, 58), (96, 32), (176, 336)] ++ streamCheck s P c.hdr false
    ++ [((lookupKey (fld b 0 6) P.layouts).isNone, atBit .loadBadShape 0), alignCheck b 128 4,
        (fld b 128 48 != 0 && !mappedWrite s Q.cfg.part (fld b 128 48) 4, atBit .loadBounds 128)]

/-- Write an identifier where a body asks for it. -/
def writeId (s : State) (p q addr id : Nat) : Except Fail State :=
  if addr = 0 then .ok s else storeOnce s p q addr (toLe 4 id)

def effectStreamCreate (s : State) (q : Nat) (c : Cmd) : State :=
  let p := (queueOf s q).cfg.part
  let b := c.body
  match allocIds s (partOf s p) 1 with
  | some (id :: _) =>
    let l := layoutOf s p (fld b 0 6)
    (match writeId (putStream s id (newStream p (fld b 0 6) l.model id (fld b 64 32))) p q (fld b 128 48) id with
      | .ok s1 => setResult s1 q ⟨.completed, id, 0, 1⟩
      | .error f => failCmd s q f)
  | _ => failCmd s q (failAt .streamTableFull 0 0)

def execStreamCreate (q : Nat) (s : State) : Host.Outcome State Fault Refusal :=
  .next (streamEvent s q 0x300 true checksStreamCreate noStart effectStreamCreate)

/-! ### STREAM_FORK (R242, Table 10-6) -/

def fkCount (b : Nat) : Nat := fld b 64 9
def fkParked (b : Nat) : Bool := bitOf b 80

/-- The images a fork reserves: one per PARKED child, none when the fork limit is exceeded. -/
def fkImages (s : State) (c : Cmd) : List (List Record) :=
  if fkParked c.body && decide (fkCount c.body ≤ 256) then List.replicate (fkCount c.body) (headerRecords s c) else []

def checksStreamFork (q : Nat) (s : State) (Q : Queue) (c : Cmd) : List (Bool × Fail) :=
  let P := partOf s Q.cfg.part
  let b := c.body
  reservedBody b [(48, 16), (73, 7), (81, 431), (576, 448)] ++ streamCheck s P c.hdr true
    ++ [(fkCount b == 0, atBit .loadBadShape 64), alignCheck b 0 4, writeCheck s Q.cfg.part b 0 (4 * fkCount b),
        imageCheck s Q q (fkImages s c)]

/-- A child takes the parent's contents: in a cohort, or in a claimed image. -/
def placeChild (s : State) (p q : Nat) (parent : Stream) (bytes : List Byte) (parked : Bool) (units : Nat) (frames : List Nat)
    (id : Nat) : Except Fail State :=
  if parked then
    match claimImage s p q units frames (recordsOf s parent) with
    | (none, _) => .error (failAt .faultUnrecovered 0 0)
    | (some fs, s1) => match physStore s1 p q (loamAddr (fs.headD 0)) bytes with
      | .error f => .error f
      | .ok s2 => .ok (setStream s2 id fun x =>
          { x with st := .parked, image := fs, imageAddr := loamAddr (fs.headD 0), transit := true })
  else match joinCohort s id with
    | none => .error (failAt .streamNoRoom 0 0)
    | some s1 =>
      let s2 := setStream s1 id fun x => { x with st := .resident, transit := true }
      match streamOf s2 id with
      | some st => .ok (loadImage s2 st bytes)
      | none => .ok s2

/-- Whether the parent's pool can supply a root for another child. -/
def canShare (s : State) (st : Stream) : Bool :=
  match st.kv with
  | none => true
  | some kv => match poolOf s st.part kv.pool with
    | some K => (takeUnits K (rootUnits st)).isSome
    | none => true

/-- Child `i` of a fork (R242, R266). -/
def forkChild (p q : Nat) (c : Cmd) (pid : Nat) (parent : Stream) (bytes : List Byte) (units : Nat) (frames : List Nat)
    (s : State) (i id : Nat) : Except Fail State :=
  let b := c.body
  let child : Stream := { newStream p parent.layout parent.model pid ((fld b 512 32 + i * fld b 544 32) % 2 ^ 32) with
    step := parent.step, kvTokens := parent.kvTokens }
  if !canShare s parent then .error (failAt .streamNoRoom 0 0)
  else match placeChild (putStream s id child) p q parent bytes (fkParked b) units frames id with
    | .error f => .error f
    | .ok s1 => .ok (shareKv s1 pid id)

/-- The children in ascending order. DEDUCED, log entry 64. -/
def forkChildren (p q : Nat) (c : Cmd) (pid : Nat) (parent : Stream) (bytes : List Byte) (units per : Nat) (frames : List Nat) :
    List Nat → Nat → State → Except Fail State
  | [], _, s => .ok s
  | id :: rest, i, s =>
    match forkChild p q c pid parent bytes units ((frames.drop (i * per)).take per) s i id with
    | .error f => .error f
    | .ok s1 => forkChildren p q c pid parent bytes units per frames rest (i + 1) s1

/-- The statuses of a fork in order (Table 10-11): STREAM_NO_ROOM before the errors of the parent's image. -/
def effectStreamFork (s : State) (q : Nat) (c : Cmd) : State :=
  let p := (queueOf s q).cfg.part
  let b := c.body
  let pid := hStreamId c.hdr
  if 256 < fkCount b then failCmd s q (failAt .streamForkLimit 0 0)
  else match streamOf s pid with
    | none => failCmd s q (failAt .streamBadState 0 0)
    | some st =>
      if !(st.st == .parked || (st.st == .resident && !st.undef)) then failCmd s q (failAt .streamBadState 0 0)
      else match allocIds s (partOf s p) (fkCount b) with
        | none => failCmd s q (failAt .streamTableFull 0 0)
        | some ids =>
          let s := useImage s st
          let rs := recordsOf s st
          let run (bytes : List Byte) : Except Fail State :=
            forkChildren p q c pid st bytes (if fkParked b then imageUnits rs else 0) (imageFrames rs) c.resFrames ids 0 s
          let full : Option Fail := match run [] with
            | .error f => if f.status = .streamNoRoom then some f else none
            | .ok _ => none
          match full with
          | some f => failCmd s q f
          | none => match recordBytes s st with
            | .error f => failCmd (loseImage s pid f) q f
            | .ok bytes => match run bytes with
              | .error f => failCmd s q f
              | .ok s1 => match storeOnce s1 p q (fld b 0 48) (ids.flatMap (toLe 4)) with
                | .error f => failCmd s q f
                | .ok s2 =>
                  setResult (setCmd (setStream s2 pid fun x => { x with lastStatus := 0 }) q fun x =>
                    { x with streams := pid :: ids, undo := snapshot s ids, outs := [(fld b 0 48, 4 * ids.length)] }) q
                    ⟨.completed, ids.headD 0, 0, ids.length⟩

def execStreamFork (q : Nat) (s : State) : Host.Outcome State Fault Refusal :=
  .next (streamEvent s q 0x301 false (checksStreamFork q) (fun x y c => startImages x y (fkImages x c)) effectStreamFork)

/-! ### STREAM_PARK, STREAM_RESUME, STREAM_RETIRE (Table 10-7) -/

def checksStreamPark (q : Nat) (s : State) (Q : Queue) (c : Cmd) : List (Bool × Fail) :=
  reservedBody c.body [(0, 1), (1, 511)] ++ streamCheck s (partOf s Q.cfg.part) c.hdr true
    ++ [imageCheck s Q q [headerRecords s c]]

/-- STREAM_PARK takes effect (R241): the reserved image is written and the stream is PARKED; its row is given back at the commit (R252).
DEDUCED, log entries 43 and 44. -/
def effectStreamPark (s : State) (q : Nat) (c : Cmd) : State :=
  let p := (queueOf s q).cfg.part
  let id := hStreamId c.hdr
  match streamOf s id with
  | none => failCmd s q (failAt .streamBadState 0 0)
  | some st =>
    if !parkable st then failCmd s q (failAt .streamBadState 0 0)
    else match claimImage s p q c.chargeLoam c.resFrames (recordsOf s st) with
      | (none, _) => failCmd s q (failAt .faultUnrecovered 0 0)
      | (some fs, s1) =>
        let s2 := setStream (storeParked s1 q id fs (stateImage s st)) id fun x => { x with lastStatus := 0 }
        setResult (setCmd s2 q fun x => { x with undo := snapshot s [id] }) q ⟨.completed, 0, 0, 1⟩

def execStreamPark (q : Nat) (s : State) : Host.Outcome State Fault Refusal :=
  .next (streamEvent s q 0x302 false (checksStreamPark q) (fun x y c => startImages x y [headerRecords x c]) effectStreamPark)

def checksStreamResume (s : State) (Q : Queue) (c : Cmd) : List (Bool × Fail) :=
  reservedBody c.body [(1, 511)] ++ streamCheck s (partOf s Q.cfg.part) c.hdr true

/-- A stream with lost set resumes only with restart (R236). -/
def resumable (st : Stream) (restart : Bool) : Bool := st.st == .parked || (st.st == .idle && (!st.lost || restart))

/-- STREAM_RESUME takes effect (R239, R241): an image stays with the command until its commit (R252). -/
def effectStreamResume (s : State) (q : Nat) (c : Cmd) : State :=
  let id := hStreamId c.hdr
  match streamOf s id with
  | none => failCmd s q (failAt .streamBadState 0 0)
  | some st =>
    if !resumable st (bitOf c.body 0) then failCmd s q (failAt .streamBadState 0 0)
    else match toResident (if st.st = .parked then keepImage s q st else s) id with
      | (some f, s1) => failCmd s1 q f
      | (none, s1) =>
        let s2 := setStream s1 id fun x => { x with lastStatus := 0 }
        setResult (setCmd s2 q fun x => { x with undo := snapshot s [id] }) q ⟨.completed, 0, 0, 1⟩

def execStreamResume (q : Nat) (s : State) : Host.Outcome State Fault Refusal :=
  .next (streamEvent s q 0x303 false checksStreamResume noStart effectStreamResume)

def checksStreamRetire (s : State) (Q : Queue) (c : Cmd) : List (Bool × Fail) :=
  reservedBody c.body [(0, 1), (1, 511)] ++ streamCheck s (partOf s Q.cfg.part) c.hdr true

def effectStreamRetire (s : State) (q : Nat) (c : Cmd) : State :=
  let id := hStreamId c.hdr
  match streamOf s id with
  | none => failCmd s q (failAt .streamBadState 0 0)
  | some st =>
    if !retirable st then failCmd s q (failAt .streamBadState 0 0)
    else setResult (setStream (retireStream s id) id fun x => { x with lastStatus := 0 }) q ⟨.completed, 0, 0, 1⟩

def execStreamRetire (q : Nat) (s : State) : Host.Outcome State Fault Refusal :=
  .next (streamEvent s q 0x306 true checksStreamRetire noStart effectStreamRetire)

/-! ### STREAM_EXPORT and STREAM_IMPORT (Table 10-8) -/

def blobAddr (b : Nat) : Nat := fld b 0 48
def blobLen (b : Nat) : Nat := fld b 64 48
def blobSlot (b : Nat) : Nat := fld b 128 8

/-- Blob bytes of the header's stream. -/
def exportNeed (s : State) (c : Cmd) : Nat :=
  match streamOf s (hStreamId c.hdr) with | some st => blobLength (blobBody s st (bitOf c.body 137)) | none => 0

def checksStreamExport (s : State) (Q : Queue) (c : Cmd) : List (Bool × Fail) :=
  let b := c.body
  reservedBody b [(48, 16), (112, 16), (138, 4), (142, 2), (144, 1), (145, 3), (148, 20), (168, 8), (176, 48), (224, 288)]
    ++ streamCheck s (partOf s Q.cfg.part) c.hdr true
    ++ [(decide (15 < blobSlot b), atBit .loadBadShape 128), alignCheck b 0 64, writeCheck s Q.cfg.part b 0 (blobLen b),
        (decide (blobLen b < exportNeed s c), atBit .loadBounds 64)]

/-- A blob written for a command of queue `q`: its length and the state, or the failure with the buffer left undefined
(R245). -/
def writeBlob (s : State) (p q id : Nat) (st : Stream) (key : Option Nat) (addr : Nat) (withKv : Bool) : Except Fail (Nat × State) × State :=
  match exportRefused st key with
  | some f => (.error f, if f.status = .secKeyAbsent then havoc s p q [(addr, blobLength (blobBody s st withKv))] else s)
  | none =>
    let outs := [(addr, blobLength (blobBody s st withKv))]
    match sealStream (useImage s st) id st (key.getD 0) withKv with
    | .error f => (.error f, havoc (loseImage (useImage s st) id f) p q outs)
    | .ok (bs, s1) => match storeOnce s1 p q addr bs with
      | .error f => (.error f, havoc s p q outs)
      | .ok s2 => (.ok (bs.length, s2), s2)

def effectStreamExport (s : State) (q : Nat) (c : Cmd) : State :=
  let p := (queueOf s q).cfg.part
  let b := c.body
  let id := hStreamId c.hdr
  match streamOf s id with
  | none => failCmd s q (failAt .streamBadState 0 0)
  | some st => match writeBlob s p q id st c.key (blobAddr b) (bitOf b 137) with
    | (.error f, s1) => failCmd s1 q f
    | (.ok (len, s1), _) => setResult (exported s1 id (blobAddr b) len (bitOf b 136)) q ⟨.completed, 0, 0, 1⟩

/-- An export's blob is undefined when it ends early while it executes (R245). -/
def startExport (s : State) (q : Nat) (c : Cmd) : State :=
  setCmd (takeKey s q (blobSlot c.body)) q fun x => { x with outs := [(blobAddr c.body, exportNeed s c)] }

def execStreamExport (q : Nat) (s : State) : Host.Outcome State Fault Refusal :=
  .next (streamEvent s q 0x304 true checksStreamExport startExport effectStreamExport)

def impTarget (b : Nat) : Option Nat := if bitOf b 144 then some (fld b 148 20) else none
def impLayout (b : Nat) : Nat := fld b 136 6

def checksStreamImport (q : Nat) (s : State) (Q : Queue) (c : Cmd) : List (Bool × Fail) :=
  let P := partOf s Q.cfg.part
  let b := c.body
  reservedBody b [(48, 16), (112, 16), (142, 2), (145, 3), (168, 8), (224, 288)]
    ++ zeroWhen b (impTarget b).isNone [(148, 20)] ++ streamCheck s P c.hdr false
    ++ [((match impTarget b with | some t => !inRange P t | none => false), atBit .loadBadStream 148),
        (decide (15 < blobSlot b), atBit .loadBadShape 128), ((lookupKey (impLayout b) P.layouts).isNone, atBit .loadBadShape 136),
        alignCheck b 0 64, alignCheck b 176 4, readCheck s Q.cfg.part b 0 (blobLen b),
        (fld b 176 48 != 0 && !mappedWrite s Q.cfg.part (fld b 176 48) 4, atBit .loadBounds 176),
        imageCheck s Q q [(layoutOf s Q.cfg.part (impLayout b)).records]]

/-- Whether Table 10-2 lets an import take an entry. -/
def importable : Option Stream → Bool
  | none => true
  | some st => match st.st with
    | .retired | .idle | .exported => true
    | .resident => st.undef
    | .parked => false

/-- The KV of an imported stream (R276): the target's own when the blob has none. -/
def importKv (s : State) (p : Nat) (o : Opened) (imageLen : Nat) (prior : Option KvRoot) (id : Nat) :
    Except Halt (Option KvRoot × State) :=
  if !blobWithKv o then .ok (prior, s)
  else
    let kv := o.body.drop imageLen
    match matchPool (partOf s p) kv with
    | none => .error (.fails (failAt .streamBlobMismatch 0 0))
    | some (k, K) => match installKv (releaseKv s id) p k K kv with
      | .error h => .error h
      | .ok (root, s1) => .ok (some root, s1)

/-- R244 from step 4 on. -/
def importOpened (s : State) (p q : Nat) (c : Cmd) (o : Opened) : Except Halt (Nat × State) :=
  let b := c.body
  let bad (f : Fail) : Except Halt (Nat × State) := .error (.fails f)
  let l := layoutOf s p (impLayout b)
  let target := impTarget b
  if !blobMatches o l || (blobWithKv o && (matchPool (partOf s p) (o.body.drop (imageBytes l.records))).isNone) then
    bad (failAt .streamBlobMismatch 0 0)
  else if (match target with | some t => !importable (streamOf s t) | none => false) then bad (failAt .streamBadState 0 0)
  else match (match target with | some t => some [t] | none => allocIds s (partOf s p) 1) with
    | some (id :: _) =>
      let s0 := if target.isSome then freeImage (leaveCohort s id) id else s
      let prior := if target.isSome then (streamOf s0 id).bind (·.kv) else none
      (match importKv s0 p o (imageBytes l.records) prior id with
      | .error h => .error h
      | .ok (kv, s1) => match claimImage s1 p q c.chargeLoam c.resFrames l.records with
        | (none, _) => bad (failAt .faultUnrecovered 0 0)
        | (some fs, s2) => match physStore s2 p q (loamAddr (fs.headD 0)) (o.body.take (imageBytes l.records)) with
          | .error f => bad f
          | .ok s3 =>
            let st : Stream := { newStream p (impLayout b) l.model id (blobFld o.head 40 4) with
              st := .parked, step := blobFld o.head 32 8, kvTokens := blobFld o.head 44 4, image := fs,
              imageAddr := loamAddr (fs.headD 0), blobUnits := 2 + blobFld o.head 48 4, kv := kv }
            (match writeId (putStream s3 id st) p q (fld b 176 48) id with
            | .error f => bad f
            | .ok s4 => .ok (id, s4)))
    | _ => bad (failAt .streamTableFull 0 0)

/-- STREAM_IMPORT once its blob can be read (R244); without a slot because of busy pages it waits again (R270). It reports COMPLETED with
the identifier though it waited at the window fence (Table 10-11). DEDUCED, log entries 39 and 157. -/
def computeStreamImport (s : State) (q : Nat) : State :=
  let p := (queueOf s q).cfg.part
  match (queueOf s q).cmd with
  | none => s
  | some c => match loadBytes s p (blobAddr c.body) (blobLen c.body) with
    | .error f => failCmd s q f
    | .ok bs => match openBlob c.key bs with
      | .error f => failCmd s q f
      | .ok o => match importOpened s p q c o with
        | .error (.fails f) => failCmd s q f
        | .error .waits => setCmd s q fun x => { x with waiting := some s.now }
        | .ok (id, s1) => setResult s1 q ⟨.completed, id, 0, 1⟩

/-- STREAM_IMPORT passes the window fence before it reads its blob (R321). -/
def effectStreamImport (s : State) (q : Nat) (c : Cmd) : State :=
  gated s q (queueOf s q).cfg.part [(blobAddr c.body, blobLen c.body)] fun x => computeStreamImport x q

def execStreamImport (q : Nat) (s : State) : Host.Outcome State Fault Refusal :=
  .next (streamEvent s q 0x305 true (checksStreamImport q)
    (fun x y c => startImages (takeKey x y (blobSlot c.body)) y [(layoutOf x (queueOf x y).cfg.part (impLayout c.body)).records]) effectStreamImport)

/-! ### SWATH_STEP (R247, Table 10-9) -/

def swList (b : Nat) : Nat := fld b 0 48
def swPub (b : Nat) : Nat := fld b 64 48
def swMoves (b : Nat) : Nat := fld b 128 48
def swOpenValue (b : Nat) : Nat := fld b 512 64
def swDoneValue (b : Nat) : Nat := fld b 576 64
def swOpenFence (b : Nat) : Nat := fld b 640 12
def swDoneFence (b : Nat) : Nat := fld b 652 12
def swStreams (b : Nat) : Nat := fld b 664 24
def swNMoves (b : Nat) : Nat := fld b 688 9
def swTick (b : Nat) : Nat := fld b 704 64
def swAbandon (b k : Nat) : Nat := fld b (768 + 64 * k) 64

/-- The move list: nothing when its address is not aligned or mapped (R82), or the loader read's failure. -/
def readMoves (s : State) (p b : Nat) : Except Fail (Option (List Nat)) :=
  if swNMoves b = 0 then .ok (some [])
  else if swMoves b % 4 ≠ 0 ∨ mappedRead s p (swMoves b) (8 * swNMoves b) = false then .ok none
  else match loadBytes s p (swMoves b) (8 * swNMoves b) with
    | .error f => .error f
    | .ok bs => .ok (some ((piecesOf 8 (swNMoves b + 1) bs).map ofLe))

def moveId (m : Nat) : Nat := fld m 0 20
def moveOp (m : Nat) : Nat := fld m 20 4

/-- The records of the streams that park moves name, in list order (R241). -/
def parkImages (s : State) (moves : List Nat) : List (List Record) :=
  (moves.filter fun m => moveOp m == 1).map fun m =>
    match streamOf s (moveId m) with | some st => recordsOf s st | none => []

/-- The abandon entries that are valid. DEDUCED, log entry 49. -/
def abandonEntries (b : Nat) : List Abandon :=
  (List.range 4).filterMap fun k =>
    if bitOf (swAbandon b k) 63 then some { q := fld (swAbandon b k) 55 8, last := fld (swAbandon b k) 0 55 } else none

/-- Whether a queue index lies in a partition's range, enabled or not. -/
def hasQueue (P : Partition) (q : Nat) : Bool := decide (P.cfg.firstQueue ≤ q) && decide (q < P.cfg.firstQueue + P.cfg.queues)

/-- Stage B of SWATH_STEP (Table 10-10); check 12 fails while the tick unit is OFF (R423). -/
def checksSwathStep (q : Nat) (s : State) (Q : Queue) (c : Cmd) : List (Bool × Fail) :=
  let p := Q.cfg.part
  let P := partOf s p
  let b := c.body
  let list := readList s p b 0 (swStreams b)
  let moves := readMoves s p b
  let ids := match list with | .ok (some xs) => xs | _ => []
  let ms := match moves with | .ok (some xs) => xs | _ => []
  let abandonBad (k : Nat) : List (Bool × Fail) :=
    zeroWhen b (!bitOf (swAbandon b k) 63) [(768 + 64 * k, 55), (768 + 64 * k + 55, 8)]
  let foreign (k : Nat) : Bool × Fail :=
    (bitOf (swAbandon b k) 63 && !hasQueue P (fld (swAbandon b k) 55 8), atBit .loadBadShape (768 + 64 * k + 55))
  reservedBody b [(48, 16), (112, 16), (176, 336), (697, 7)] ++ zeroWhen b (swNMoves b == 0) [(128, 48)]
    ++ (List.range 4).flatMap abandonBad
    ++ [readFailed list] ++ listReserved 0 ids
    ++ [readFailed moves]
    ++ perEntry ms (fun i m => (decide (2 ^ 24 ≤ m), inStruct .loadReservedNonzero 128 (8 * i + 3)))
    ++ streamCheck s P c.hdr false
    ++ perEntry ids (fun i x => (!inRange P x || !(match streamOf s x with | some st => st.st == .resident | none => false),
        inStruct .loadBadStream 0 (4 * i)))
    ++ perEntry ms (fun i m => (!inRange P (moveId m), inStruct .loadBadStream 128 (8 * i)))
    ++ [(s.tick.st == .off, failNone .loadUnitDisabled)]
    ++ listTwice 0 ids
    ++ perEntry ms (fun i m => (moveOp m == 0 || decide (3 < moveOp m), inStruct .loadBadShape 128 (8 * i + 2)))
    ++ [(bitOf b 575, atBit .loadBadShape 512), (bitOf b 639, atBit .loadBadShape 576),
        (swStreams b == 0 || decide (1048576 < swStreams b), atBit .loadBadShape 664), (decide (256 < swNMoves b), atBit .loadBadShape 688)]
    ++ (List.range 4).map foreign
    ++ [alignCheck b 0 4, alignCheck b 64 64, alignCheck b 128 4, readCheck s p b 0 (4 * swStreams b),
        writeCheck s p b 64 64, (swNMoves b != 0 && !mappedRead s p (swMoves b) (8 * swNMoves b), atBit .loadBounds 128),
        imageCheck s Q q (parkImages s ms)]

/-- The boundary moves with the reservations made for their images. -/
def dealMoves : List Nat → List (Nat × List Nat) → List BMove
  | [], _ => []
  | m :: ms, imgs =>
    if moveOp m = 1 then { id := moveId m, op := 1, units := (imgs.headD (0, [])).1, frames := (imgs.headD (0, [])).2 } :: dealMoves ms (imgs.drop 1)
    else { id := moveId m, op := moveOp m, units := 0, frames := [] } :: dealMoves ms imgs

/-- The edge time of the first latched tick that is `n` or later (R250). -/
def passedEdge (s : State) (n : Nat) : Option Nat := ((s.tick.latches.filter fun x => decide (n ≤ x.1)).getLast?).map (·.2)

/-- The open of a step (R247.2, R250): dirty is cleared, open_fence is signalled, with its error bit when the step is
abandoned at once, and the step waits for its fence and its edge. -/
def openSwath (s : State) (q : Nat) (Q : Queue) (c : Cmd) : State :=
  let p := Q.cfg.part
  let b := c.body
  match readList s p b 0 (swStreams b), readMoves s p b with
  | .ok (some ids), .ok (some ms) => match reserveImages s p q (parkImages s ms) with
    | none => s
    | some (imgs, s1) =>
      let s2 := ids.foldl (fun x id => setStream x id fun st => { st with dirty := false }) s1
      let edge := passedEdge s (swTick b)
      let abandon := edge.isSome && (partOf s p).cfg.abandon
      let w : Swath := { q := q, seq := (queueOf s q).seq, streams := ids, moves := dealMoves ms imgs, doneFence := swDoneFence b,
                         doneValue := swDoneValue b, tick := swTick b, pub := swPub b, abandon := abandonEntries b, doneAt := none,
                         overrunAt := edge }
      let s3 := signalCore (setPart s2 p fun P => { P with swaths := P.swaths ++ [w] }) p (swOpenFence b) (swOpenValue b) abandon
      if abandon then settled (abandonSwath s3 p w) else settled s3
  | _, _ => s

/-- Streams that a SWATH_STEP in CHECK names beside its header: those of its list and of its moves. -/
def swathNames (s : State) (q : Nat) : List Nat :=
  let Q := queueOf s q
  match Q.cmd with
  | some c => (match readList s Q.cfg.part c.body 0 (swStreams c.body) with | .ok (some xs) => xs | _ => [])
      ++ (match readMoves s Q.cfg.part c.body with | .ok (some ms) => ms.map moveId | _ => [])
  | none => []

/-- SWATH_STEP (R247): it waits in CHECK while a stream that it names is in transit (R234), or sixteen steps of the partition are
open (R423). -/
def execSwathStep (q : Nat) (s : State) : Host.Outcome State Fault Refusal :=
  .next (if anyTransit s (swathNames s q) || streamSlotBusy s q || lcFirst s q || decide (16 ≤ (partOf s (queueOf s q).cfg.part).swaths.length) then s
    else runCommand s q 0x310 (checksSwathStep q) fun x Q c => openSwath x q Q c)

end Sys2Proof.Machine
end

