-- ==== Sys2Proof/Machine/Ticks.lean ====
section
/-! DEFINITION. The tick unit (R412 to R425): candidate edges, windows, synthesised ticks and losses, and what
TICK_CONFIG sets (R414, R415). -/

namespace Sys2Proof.Machine

def setTick (s : State) (f : Tick → Tick) : State := { s with tick := f s.tick }

/-- The last tick latched since PERST# (TCK_COUNT), 0 before the first. -/
def lastTick (t : Tick) : Nat := match t.latches with | (n, _) :: _ => n | [] => 0

/-- Tick `n` latches with its edge at `t`; every open step it reaches is settled (R420). -/
def latchTick (s : State) (n t : Nat) : State :=
  latchSwaths (setTick s fun u => { u with latches := (n, t) :: u.latches }) n t

/-- A candidate that is refused moves nothing (R417). -/
def refuseEdge (s : State) : State := setTick s fun u => { u with refused := satAdd 32 u.refused 1 }

/-- A value held within a distance of a centre. -/
def clampInt (x lo hi : Int) : Int := max lo (min hi x)

/-- The tracked period after a deviation (R416): the change is clamped to slew, the period to an eighth about P_nom. -/
def nextPeriod (u : Tick) (d : Int) : Nat :=
  let lim : Int := u.slew * u.pnom / 1000000
  let eighth : Int := u.pnom / 8
  (clampInt ((u.pn : Int) + clampInt d (-lim) lim) ((u.pnom : Int) - eighth) ((u.pnom : Int) + eighth)).toNat

/-- Whether a time lies in the window of the next tick (R416). -/
def inWindow (u : Tick) (t : Nat) : Bool := decide (u.next ≤ t + u.pnom / 4) && decide (t ≤ u.next + u.pnom / 4)

/-- The number of the next tick in TRACK and HOLDOVER. -/
def nextTick (u : Tick) : Nat := lastTick u + 1

/-- A candidate is accepted as tick `n` at `t` in a window (R416). -/
def acceptEdge (s : State) (n t : Nat) : State :=
  let u := s.tick
  let d : Int := (t : Int) - u.next
  let p := nextPeriod u d
  latchTick (setTick s fun u => { u with
    st := .track, pn := p, next := t + p, lastDev := (d % 2 ^ 32).toNat, misses := 0, accepted := satAdd 64 u.accepted 1 }) n t

/-- The first candidate in ACQUIRE is accepted whenever it arrives (R419). DEDUCED, log entry 51. -/
def anchorEdge (s : State) (n t : Nat) : State :=
  latchTick (setTick s fun u => { u with
    st := .track, pn := u.pnom, next := t + u.pnom, lastDev := 0, misses := 0, fresh := false,
    accepted := satAdd 64 u.accepted 1 }) n t

/-- A candidate edge at `t`, with its boundary index for PTP (R416, R417, R419). DEDUCED, log entry 53. -/
def candidate (s : State) (t : Nat) (k : Option Nat) : State :=
  let u := s.tick
  match u.st with
  | .off => s
  | .acquire => match k with
    | some k => if lastTick u < k then anchorEdge s k t else refuseEdge s
    | none => anchorEdge s (if u.fresh then u.first else lastTick u + 1) t
  | _ =>
    if inWindow u t && (match k with | some k => k == nextTick u | none => true) then acceptEdge s (nextTick u) t
    else refuseEdge s

/-- SYNC_IN_EDGE (R413, R416): a filtered transition of the pin; one of the other polarity is no candidate. Injection point
0x1E suppresses it (Table 24-5). -/
def execSyncInEdge (rising : Bool) (s : State) : Host.Outcome State Fault Refusal :=
  .next (if s.tick.source = 1 ∧ rising = !s.tick.falling then
    (match injected s 0x1E 0 with
      | (true, s1) => s1
      | (false, _) => candidate s s.now none)
  else s)

def portOf (s : State) (n : Nat) : Port := s.net.ports.getD n noPort

/-- The PTP clock of a port, in ns. -/
def ptpNow (s : State) (port : Nat) : Int := s.now + (portOf s port).clock

/-- Whether the boundary that a port's PTP clock has reached last is T = phase + k × P_nom (R416). DEDUCED, log entry 53. -/
def atBoundary (s : State) (port k : Nat) : Bool :=
  let t : Int := s.tick.phase + k * s.tick.pnom
  decide (t ≤ ptpNow s port) && decide (ptpNow s port < t + s.tick.pnom)

/-- PTP_BOUNDARY (R416): the PTP clock of a port reaches boundary `k`; it is a candidate for the chosen port while that is
synchronised. -/
def execPtpBoundary (port k : Nat) (s : State) : Host.Outcome State Fault Refusal :=
  .next (if s.tick.source = 2 ∧ port = s.tick.port ∧ (portOf s port).sync = true ∧ atBoundary s port k = true then candidate s s.now (some k) else s)

/-- LOCAL_TICK (R416): a candidate every P_nom of device time. -/
def execLocalTick (s : State) : Host.Outcome State Fault Refusal :=
  .next (if s.tick.source = 3 ∧ s.tick.localNext ≤ s.now then
    candidate (setTick s fun u => { u with localNext := u.localNext + max 1 u.pnom }) s.tick.localNext none else s)

/-- The device time at which the window of the next tick closes (R418). -/
def windowEnd (u : Tick) : Nat := u.next + u.pnom / 4

/-- TICK_WINDOW_CLOSE (R418): a window that closes empty gives a synthesised tick, or the loss of the source. DEDUCED, log entry 52. -/
def tickWindowClose (s : State) : State :=
  let u := s.tick
  if u.st != .track && u.st != .holdover || decide (s.now < windowEnd u) then s
  else if u.misses < u.holdover then
    latchTick (setTick s fun u => { u with
      st := .holdover, next := u.next + u.pn, misses := u.misses + 1, synth := satAdd 32 u.synth 1 }) (nextTick u) (windowEnd u)
  else setTick s fun u => { u with
    st := .acquire, pn := u.pnom, next := 0, wasLost := true, losses := satAdd 16 u.losses 1 }

def execTickWindowClose (s : State) : Host.Outcome State Fault Refusal := .next (tickWindowClose s)

/-! ### TICK_CONFIG (Table 18-1) -/

/-- A field of a payload of bytes. -/
def payFld (bs : List Byte) (off n : Nat) : Nat := ofLe ((bs.drop off).take n)

/-- Fields of TICK_CONFIG that must be 0 (R415). -/
def tickReserved (bs : List Byte) : Bool :=
  let src := payFld bs 0 1
  payFld bs 12 4 != 0 || decide (2 ≤ payFld bs 1 1) || (src != 2 && (payFld bs 2 1 != 0 || payFld bs 24 8 != 0))
    || (src == 2 && payFld bs 16 8 != 0) || (src == 0 && payFld bs 1 31 != 0)

/-- The slew of a payload, 0 selecting 100 ppm (R414). -/
def tickSlew (bs : List Byte) : Nat := if payFld bs 8 4 = 0 then 100 else payFld bs 8 4

/-- Whether a field of TICK_CONFIG is out of range, a step is open, or tick numbers would decrease (R415). -/
def tickBadShape (s : State) (bs : List Byte) : Bool :=
  let src := payFld bs 0 1
  decide (3 < src) || !(openSwaths s).isEmpty
    || (src != 0 && (decide (payFld bs 4 4 < 10000) || decide (1000000000 < payFld bs 4 4) || decide (100000 < tickSlew bs)
      || (src == 2 && (decide (3 < payFld bs 2 1) || decide (payFld bs 4 4 ≤ payFld bs 24 8)))))
    || ((src == 1 || src == 3) && !s.tick.latches.isEmpty && decide (payFld bs 16 8 ≤ lastTick s.tick))

/-- What an accepted TICK_CONFIG leaves: OFF without a source, else ACQUIRE (R415). The counts are kept. -/
def tickConfigured (s : State) (bs : List Byte) : State :=
  let src := payFld bs 0 1
  setTick s fun u => { noTick with
    st := if src = 0 then .off else .acquire
    source := src
    falling := bitOf (payFld bs 1 1) 0
    port := payFld bs 2 1
    holdover := payFld bs 3 1
    pnom := payFld bs 4 4
    slew := if src = 0 then 0 else tickSlew bs
    first := payFld bs 16 8
    phase := payFld bs 24 8
    fresh := true
    pn := payFld bs 4 4
    lastDev := u.lastDev
    wasLost := u.wasLost
    accepted := u.accepted
    refused := u.refused
    synth := u.synth
    losses := u.losses
    localNext := s.now + payFld bs 4 4
    latches := u.latches }

end Sys2Proof.Machine
end

