-- ==== Sys2Proof/Machine/MemoryRows.lean ====
section
/-! DEFINITION. PLOT_MOVE and the plot mover (R311 to R316, R323), automatic migration (R317), WINDOW_FILL with the
exponent-plane format (R320, R324, R325), and the events of the lower tiers: write-combining timeouts (R338) and far-field
timeouts (R326, R327). -/

namespace Sys2Proof.Machine

/-! ### Plot moves -/

def plotOf (s : State) (p k : Nat) : Option Plot := lookupKey k (partOf s p).plots

def setPlot (s : State) (p k : Nat) (f : Plot → Plot) : State :=
  setPart s p fun P => match lookupKey k P.plots with
    | some pl => { P with plots := insertKey k (f pl) P.plots }
    | none => P

/-- The tier of a home: 1 loam, 2 subsoil, 3 far field, 0 another. -/
def homeTier : Home → Nat
  | .loam _ => 1
  | .subsoil _ => 2
  | .host => 3
  | .remote => 3
  | _ => 0

/-- Units of 4 KiB that a home is charged with in loam and in subsoil (Table 13-8). -/
def homeUnits (h : Home) : Nat × Nat := (if homeTier h = 1 then 16 else 0, if homeTier h = 2 then 16 else 0)

/-- Whether an entry of the list of moves marks the place of an unmap (R313). -/
def unmapMark (m : Move) : Bool := match m.cause with | .unmap _ _ => true | _ => false

/-- Active moves: at most 16 on the device. -/
def activeMoves (s : State) : Nat := (s.mem.moves.filter (·.active)).length

/-- Partitions that have moves. -/
def moveParts (s : State) : Nat := (((s.mem.moves.filter fun m => !unmapMark m).map (·.part)).eraseDups).length

/-- Table 17-5: while another partition has a move waiting, a partition holds at most 16 slots divided by the partitions
with moves. -/
def shareLeft (s : State) (p : Nat) : Bool :=
  !(s.mem.moves.any fun m => !m.active && !unmapMark m && m.part != p)
    || decide ((s.mem.moves.filter fun m => m.active && m.part == p).length < 16 / max 1 (moveParts s))

def sameMove (a b : Move) : Bool := a.part == b.part && a.plot == b.plot && a.cause == b.cause && a.index == b.index

/-- R313: whether a move, or an unmap, is the first on its plot that has not ended; moves of pages are not ordered by plots. -/
def firstOnPlot (s : State) (m : Move) : Bool :=
  pageMove m || match s.mem.moves.find? fun x => !pageMove x && x.part == m.part && x.plot == m.plot with
    | some x => sameMove x m
    | none => true

/-- Whether a waiting move may take a slot: nothing comes before it on its plot (R313), and its partition has a share left. -/
def moveReady (s : State) (m : Move) : Bool := !m.active && !unmapMark m && firstOnPlot s m && shareLeft s m.part

def moveLc (s : State) (m : Move) : Bool := match moveQueue m with | some q => !(queueOf s q).cfg.be | none => false
def moveBe (s : State) (m : Move) : Bool := match moveQueue m with | some q => (queueOf s q).cfg.be | none => false

/-- The next move to take a slot: re-homing ahead of every other move (R517), then those of LC queues, but for one of a BE queue after
seven of them while it has waited (R313, R323). -/
def nextMove (s : State) : Option Move :=
  let ready := s.mem.moves.filter (moveReady s)
  match ready.find? (·.cause == .rehome), ready.find? (moveLc s), ready.find? (moveBe s) with
  | some m, _, _ => some m
  | none, some m, some b => if 7 ≤ s.mem.lcRun then some b else some m
  | none, some m, none => some m
  | none, none, _ => ready.head?

/-- The grants to LC moves while a BE move waits, since the last one to a BE move (R323). -/
def countGrant (s : State) (m : Move) : State :=
  if moveLc s m then { s with mem := { s.mem with lcRun := if s.mem.moves.any fun x => moveReady s x && moveBe s x then s.mem.lcRun + 1 else 0 } }
  else if moveBe s m then { s with mem := { s.mem with lcRun := 0 } }
  else s

def dropMove (s : State) (m : Move) : State := { s with mem := { s.mem with moves := s.mem.moves.filter fun x => !sameMove x m } }

/-- Return a move's reservation to its command's charges, which the commit returns to the quota; a move without a command
returns it at once. -/
def releaseMove (s : State) (m : Move) : State :=
  match moveQueue m with
  | some _ => s
  | none => uncharge s m.part (homeUnits m.dest).1 (homeUnits m.dest).2

/-- Whether a home lies in a retired frame, a failed slice or a failed channel's group (R517). -/
def homeFailed (s : State) (h : Home) : Bool :=
  match h with
  | .loam f => s.flt.frames.contains f || s.flt.slices.contains (f / 768)
  | .subsoil f => groupFailed s (f / 524288)
  | _ => false

def countMoveFailed (s : State) (p : Nat) : State := setPartMem s p fun m => { m with moveFailed := satAdd 32 m.moveFailed 1 }

/-- A move of a command fails: it ends the command with its status and its index in the run; moves that have no slot are
dropped (R315). An automatic one is counted by its cause (R329). DEDUCED, log entry 148. -/
def moveFail (s : State) (m : Move) (f : Fail) : State :=
  match moveQueue m with
  | none => countEnded (releaseMove s m) m.part f.status
  | some q =>
    let b := if f.status = .memUncorrectable then (f.a + f.b * 2 ^ 32) / 2 ^ 16 else 0
    dropMoves (setCmd s q fun c => { c with ending := c.ending.orElse fun _ => some ⟨f.status, m.index, b, 0⟩ }) q

/-- What PLOT_MOVE's policy makes of a plot's auto flag (Table 13-7). -/
def applyPolicy (policy : Nat) (pl : Plot) : Plot :=
  if policy = 1 then { pl with auto := false } else if policy = 2 then { pl with auto := true } else pl

def pmPolicy (b : Nat) : Nat := fld b 100 2

/-- The plot of a command's move takes the command's policy. -/
def takePolicy (s : State) (m : Move) : State :=
  match moveQueue m with
  | none => s
  | some q => match (queueOf s q).cmd with
    | some c => setPlot s m.part m.plot (applyPolicy (pmPolicy c.body))
    | none => s

/-- The writes that waited for a move land, each at the home that its plot has now; one that cannot ends its command (R312). -/
def landWrites (s : State) (m : Move) : State :=
  m.writes.foldl (fun x h => match storeHome x m.part h.q (m.plot * plotBytes + h.off) h.bytes with
    | .ok y => y
    | .error f => failLate x h.q f) s

/-- A move has ended: its plot is SETTLED, its slot is free, and the writes that waited go on (R312). Time counts once for the writes of a
command that came together. DEDUCED, log entry 160. -/
def settleMove (s : State) (m : Move) : State :=
  let waits := ((m.writes.map fun h => (h.q, h.time)).eraseDups.map fun h => s.now - h.2).foldl (· + ·) 0
  setPartMem (landWrites (setPlot (dropMove s m) m.part m.plot fun pl => { pl with moving := false }) m) m.part fun n =>
    { n with writeWaitNs := satAdd 48 n.writeWaitNs waits }

/-- A move of a page takes a slot of the mover and a loam slot of its pool (R268, R269, R275); where none can be had, the pages that are
left stay, and the command reports how many. One that has left subsoil meanwhile needs no move. -/
def startPage (s : State) (m : Move) (q k : Nat) : State :=
  if !pageBelow s m.part k m.plot then dropMove s m
  else match takeSlot s m.part k true with
    | some (i, s1) =>
      let begun (x : Move) : Move := if sameMove x m then { x with active := true, dest := .loam i } else x
      { s1 with mem := { s1.mem with moves := s1.mem.moves.map begun } }
    | none =>
      let left := (s.mem.moves.filter fun x => moveQueue x == some q && !x.active && pageBelow s m.part k x.plot).length
      dropMoves (setCmd s q fun c => { c with ending := c.ending.orElse fun _ => some ⟨.completed, left, 0, 0⟩ }) q

/-- A move of a plot takes a slot. A plot that has reached the target tier meanwhile counts as done and needs no move (R315); one that
has been unmapped ends the move with MEM_UNMAPPED. -/
def startPlot (s : State) (m : Move) : State :=
  match plotOf s m.part m.plot with
  | none => moveFail (countMoveFailed (dropMove s m) m.part) m (failAt .memUnmapped 0 0)
  | some pl =>
    if (if m.cause == .rehome then !homeFailed s pl.home else homeTier pl.home == homeTier m.dest) then takePolicy (releaseMove (dropMove s m) m) m
    else
      setPlot { s with mem := { s.mem with moves := s.mem.moves.map fun x => if sameMove x m then { x with active := true } else x } }
        m.part m.plot fun x => { x with moving := true }

/-- A move takes a slot. -/
def startMove (s : State) (m : Move) : State :=
  match m.cause with
  | .page q k => startPage s m q k
  | _ => startPlot s m

/-- Drain every write-combining entry in a subsoil frame (R341). -/
def drainFrame (s : State) (h : Home) : State :=
  match h with
  | .subsoil f => drainWhere s fun e => decide (subAddr f / 64 ≤ e.line) && decide (e.line < (subAddr f + plotBytes) / 64)
  | _ => s

/-- One plot is unmapped: its frame, its charge and its anchor are freed. -/
def unmapPlot (p : Nat) (s : State) (k : Nat) : State :=
  match plotOf s p k with
  | none => s
  | some pl =>
    let s1 := drainFrame s pl.home
    let s2 := uncharge s1 p ((homeUnits pl.home).1 + (entryPages (partOf s p).plots.length - entryPages ((partOf s p).plots.length - 1))) (homeUnits pl.home).2
    setPart s2 p fun P => { P with
      plots := eraseKey k P.plots
      anchors := match pl.anchor with | some i => eraseKey i P.anchors | none => P.anchors }

/-- Fill the 16 move slots; an unmap that nothing comes before takes place, and needs no slot (R313). -/
def fillSlots : Nat → State → State
  | 0, s => s
  | n + 1, s =>
    match s.mem.moves.find? fun m => unmapMark m && firstOnPlot s m with
    | some m => fillSlots n (unmapPlot m.part (dropMove s m) m.plot)
    | none =>
      if 16 ≤ activeMoves s then s
      else match nextMove s with
        | none => s
        | some m => fillSlots n (startMove (countGrant s m) m)

/-- Commands that end with their moves: PLOT_MOVE, and a PAGE_PIN that has named its pages. -/
def endsWithMoves (c : Cmd) : Bool := hOpcode c.hdr == 0x230 || c.paging

/-- The command of queue `q` ends once none of its moves is left (R315, R88). -/
def settleMoves (s : State) (q : Nat) : State :=
  let Q := queueOf s q
  if movesLeft s q then s
  else match Q.cmd with
    | none => s
    | some c => if Q.result.isSome || Q.state != .run || !endsWithMoves c then s
      else match c.ending with
        | some r => setResult s q { r with work := c.done }
        | none => setResult s q ⟨.completed, 0, 0, c.done⟩

def settleAllMoves (s : State) : State :=
  (queuesWhere s fun Q => Q.state == .run && (match Q.cmd with | some c => endsWithMoves c | none => false)).foldl
    settleMoves s

/-- Moves go on after a slot or a plot has become free. -/
def runMover (s : State) : State := settleAllMoves (fillSlots (s.mem.moves.length + 1) s)

/-! ### The copy of a plot -/

/-- The bytes of a plot at its home, with why they cannot be read. -/
def plotData (s : State) (p k : Nat) : Except Fail (List Byte) := loadBytes s p (k * plotBytes) plotBytes

/-- Write a plot's bytes at a destination. An anchor whose queue pair is in ERROR, or is gone, cannot be reached (R451). -/
def placePlot (s : State) (p q : Nat) (pl : Plot) (dest : Home) (bs : List Byte) : Except Fail State :=
  match dest with
  | .loam f => physStore s p q (loamAddr f) bs
  | .subsoil f => (physStore s p q (subAddr f) bs).map fun x => keyFrame x f
  | _ => match pl.anchor.bind (lookupKey · (partOf s p).anchors) with
    | some (.host addr fn) =>
      if hostOpen s p fn addr then .ok { s with
        mem := { s.mem with host := memWrite s.mem.host addr bs }
        pcie := { s.pcie with fns := modifyAt fn (fun f => { f with lastWrite := some (addr + plotBytes - 1) }) s.pcie.fns } }
      else .error (failAt .memUnmapped 0 0)
    | some (.remote qp _ addr) => match lookupKey qp s.net.qps with
      | some x =>
        if x.st = .ready then .ok (sentRemote { s with mem := { s.mem with remote := memWrite s.mem.remote (remoteKey qp addr) bs } } qp)
        else .error (failAt x.cause 0 0)
      | none => .error (failAt .memUnmapped 0 0)
    | none => .error (failAt .memUnmapped 0 0)

/-- The home that a plot's anchor gives (R309). -/
def anchorHome (P : Partition) (pl : Plot) : Home :=
  match pl.anchor.bind (lookupKey · P.anchors) with
  | some (.remote _ _ _) => .remote
  | _ => .host

/-- Copy a plot to a destination and switch its home (R311, R312): its bytes, its charges. -/
def copyPlot (s : State) (p q k : Nat) (pl : Plot) (dest : Home) : Except Fail State :=
  let s0 := drainFrame s pl.home
  match plotData s0 p k with
  | .error f => .error f
  | .ok bs => match placePlot s0 p q pl dest bs with
    | .error f => .error f
    | .ok s1 =>
      let s2 := uncharge s1 p (homeUnits pl.home).1 (homeUnits pl.home).2
      let s3 := if homeTier pl.home = 2 then regulate s2 p 1024 false else s2
      .ok (setPartMem (setPlot s3 p k fun x => { x with home := dest }) p fun m => { m with plotMoves := satAdd 48 m.plotMoves 1 })

def pmTarget (b : Nat) : Nat := fld b 96 3
def pmSlice (b : Nat) : Nat := fld b 104 8
def pmCount (b : Nat) : Nat := fld b 64 24
def pmFirst (b : Nat) : Nat := fld b 0 48 / plotBytes

/-- A destination for a move is reserved, with its charge; the move waits for a slot. -/
def queueMove (s : State) (p k : Nat) (dest : Home) (cause : MoveCause) : State :=
  let m : Move := { part := p, plot := k, dest := dest, cause := cause, index := 0, active := false, writes := [] }
  charge { s with mem := { s.mem with moves := s.mem.moves ++ [m] } } p (homeUnits dest).1 (homeUnits dest).2

/-- Whether a plot is SETTLED in a tier with auto set, and no move has been asked for (R317). -/
def autoPlot (s : State) (p tier : Nat) (e : Nat × Plot) : Bool :=
  e.2.auto && !e.2.moving && homeTier e.2.home == tier && !(s.mem.moves.any fun m => !pageMove m && m.part == p && m.plot == e.1)

/-- The loam frame of a promotion, while quota is left. -/
def promoteDest (s : State) (p : Nat) : Option Home :=
  if loamLeft (partOf s p) < 16 then none else ((freeLoam s 1 (partSlices s (partOf s p))).head?).map Home.loam

/-- The subsoil frame of a demotion, while quota is left. -/
def demoteDest (s : State) (p : Nat) : Option Home :=
  if subLeft (partOf s p) < 16 then none else ((freeSub s p 1).head?).map Home.subsoil

/-- A demotion has made room: the promotion that needed it follows (R317). -/
def promoteNext (s : State) (p : Nat) : Option Nat → State
  | none => s
  | some k => match plotOf s p k, promoteDest s p with
    | some pl, some d => if autoPlot s p 2 (k, pl) then queueMove s p k d .promote else s
    | _, _ => s

/-- A move is done: the reservation of a command's has become the plot's own charge, and an automatic one is counted. -/
def moveDone (s : State) (m : Move) : State :=
  match m.cause with
  | .rehome | .page _ _ | .unmap _ _ => s
  | .promote => setPartMem s m.part fun n => { n with promoted := satAdd 32 n.promoted 1 }
  | .demote next => promoteNext (setPartMem s m.part fun n => { n with demoted := satAdd 32 n.demoted 1 }) m.part next
  | .command q =>
    setCmd (takePolicy s m) q fun c => { c with
      done := c.done + 1
      chargeLoam := c.chargeLoam - (homeUnits m.dest).1
      chargeSub := c.chargeSub - (homeUnits m.dest).2 }

/-- The physical address of a frame. -/
def frameAddr : Home → Option Nat
  | .loam f => some (loamAddr f)
  | .subsoil f => some (subAddr f)
  | _ => none

/-- R517: copy a frame's lines, those that cannot be read as poisoned ones; the regulator is not charged. -/
def copyFrame (s : State) (src dst : Nat) : State :=
  let lost := ((rangeFrom (src / 64) 1024).filter (linePoisoned s)).map fun l => l - src / 64 + dst / 64
  let kept := s.mem.poison.filter fun l => decide (l < dst / 64) || decide (dst / 64 + 1024 ≤ l)
  keyWhole { s with mem := { s.mem with phys := memCopy s.mem.phys s.mem.phys src plotBytes dst, poison := kept ++ lost } } dst

/-- R517: a re-homed plot's contents stand at the destination, with their charge. -/
def rehomePlot (s : State) (p k : Nat) (pl : Plot) (dest : Home) : State :=
  match frameAddr pl.home, frameAddr dest with
  | some a, some b =>
    let s1 := copyFrame (drainFrame s pl.home) a b
    let s2 := uncharge s1 p (homeUnits pl.home).1 (homeUnits pl.home).2
    setPartMem (setPlot s2 p k fun x => { x with home := dest }) p fun m => { m with plotMoves := satAdd 48 m.plotMoves 1 }
  | _, _ => releaseMove s { part := p, plot := k, dest := dest, cause := .rehome, index := 0, active := true, writes := [] }

/-- What armed points make of the reads of a plot's move. -/
def moveReads (s : State) (p k : Nat) : Option Fail × State :=
  let spans := [(k * plotBytes, plotBytes)]
  hostFires (fireReads s (firstInSpans s p spans)) p spans

/-- PLOT_MOVE_COMMIT (R311): the copy of an active move completes, or fails with the plot left at its source. -/
def plotMoveCommit (s : State) (p k : Nat) : State :=
  match s.mem.moves.find? (movesPlot · p k) with
  | none => s
  | some m => match plotOf s p k with
    | none => runMover (releaseMove (settleMove s m) m)
    | some pl =>
      if m.cause = .rehome then runMover (settleMove (rehomePlot s p k pl m.dest) m)
      else
        let (bad, s0) := moveReads s p k
        match (match bad with | some f => Except.error f | none => copyPlot s0 p ((moveQueue m).getD 0) k pl m.dest) with
        | .ok s1 => runMover (moveDone (settleMove s1 m) m)
        | .error f => runMover (moveFail (countMoveFailed (settleMove s0 m) p) m f)

def execPlotMoveCommit (p k : Nat) (s : State) : Host.Outcome State Fault Refusal := .next (plotMoveCommit s p k)

/-! ### PLOT_MOVE (R315, Table 13-7) -/

/-- The plots of the run. -/
def pmPlots (b : Nat) : List Nat := rangeFrom (pmFirst b) (pmCount b)

/-- Plots of the run that are not at the target, with their index in the run. DEDUCED, log entry 57. -/
def pmToMove (s : State) (p b : Nat) : List (Nat × Nat) :=
  ((List.range (pmCount b)).zip (pmPlots b)).filter fun (_, k) => match plotOf s p k with
    | some pl => homeTier pl.home != pmTarget b
    | none => false

/-- The slice of a plot for a loam target: the named one, or the rotation's. -/
def pmSliceOf (s : State) (P : Partition) (b k : Nat) : Nat :=
  if pmSlice b = 0xFF then
    let ss := partSlices s P
    ss.getD (k % max 1 ss.length) 0
  else pmSlice b

/-- The destination of one plot, or nothing when no frame is free. -/
def pmDest (s : State) (p b k : Nat) (pl : Plot) : Option Home :=
  let P := partOf s p
  if pmTarget b = 1 then ((freeInSlice s (pmSliceOf s P b k)).head?).map Home.loam
  else if pmTarget b = 2 then ((freeSub s p 1).head?).map Home.subsoil
  else some (anchorHome P pl)

/-- Reserve destinations for plots in order (check 20), as waiting moves of queue `q`. -/
def reserveMoves (s : State) (p q b : Nat) : List (Nat × Nat) → Option State
  | [] => some s
  | (i, k) :: rest => match plotOf s p k with
    | none => reserveMoves s p q b rest
    | some pl => match pmDest s p b k pl with
      | none => none
      | some d =>
        let m : Move := { part := p, plot := k, dest := d, cause := .command q, index := i, active := false, writes := [] }
        let (l, u) := homeUnits d
        if loamLeft (partOf s p) < l ∨ subLeft (partOf s p) < u then none
        else reserveMoves (setCmd (charge { s with mem := { s.mem with moves := s.mem.moves ++ [m] } } p l u) q fun c =>
          { c with chargeLoam := c.chargeLoam + l, chargeSub := c.chargeSub + u }) p q b rest

/-! ### Rates of paths (Tables 13-6, 19-1) -/

/-- Fractions, as numerator and denominator. -/
def fracAdd (a b : Nat × Nat) : Nat × Nat := if a.2 = b.2 then (a.1 + b.1, a.2) else (a.1 * b.2 + b.1 * a.2, a.2 * b.2)
def fracMax (a b : Nat × Nat) : Nat × Nat := if a.1 * b.2 < b.1 * a.2 then b else a

/-- A time in ns in whole us, rounded up. -/
def fracUs (a : Nat × Nat) : Nat := ceilDiv a.1 (1000 * max 1 a.2)

/-- Tenths of GT/s of a PCI Express rate code (Table 19-4). -/
def gtTenths (speed : Nat) : Nat := [0, 25, 50, 80, 160, 320, 640, 1280].getD speed 1280

/-- Bytes per ns of the host link (Table 19-1): 200 at 128 GT/s and 16 lanes, in proportion at other rates and widths; that of a link
that is not up is taken as the full one. DESIGN CHOICE, log entry 162. -/
def hostRate (s : State) : Nat × Nat :=
  if s.pcie.linkUp && decide (0 < gtTenths s.pcie.speed * s.pcie.width) then (200 * (gtTenths s.pcie.speed * s.pcie.width), 1280 * 16) else (200, 1)

/-- Bytes per ns of a link: 50 for the one link of a port in 400 Gb/s mode, else 25 (R446). -/
def linkRate (s : State) (link : Nat) : Nat := if fld (portOf s (link / 2)).cfg 0 2 = 1 then 50 else 25

def qpOf (s : State) (n : Nat) : Option Qp := lookupKey n s.net.qps

def qpLink (x : Qp) : Nat := fld x.ctx 0 3

/-- The rate of the link of a plot's far-field home, with the number of its round trip: 0 the host's, else one more than the link's. -/
def farPath (s : State) (P : Partition) (pl : Plot) (h : Home) : Option ((Nat × Nat) × Nat) :=
  match h with
  | .host => some (hostRate s, 0)
  | .remote => match pl.anchor.bind (lookupKey · P.anchors) with
    | some (.remote qp _ _) => (qpOf s qp).map fun x => ((linkRate s (qpLink x), 1), qpLink x + 1)
    | _ => none
  | _ => none

/-- The time of one plot move in ns (Table 13-6): 465 between device memories, else the transfer over the link and a round trip, whose
length the spec does not give. DESIGN CHOICE, log entry 162. -/
def moveTime (s : State) (P : Partition) (pl : Plot) (target : Nat) : Nat × Nat :=
  match farPath s P pl (if target = 3 then anchorHome P pl else pl.home) with
  | some ((num, den), link) => (plotBytes * den + Config.roundTrip link * num, num)
  | none => (465, 1)

/-- A PLOT_MOVE's estimate in us: its moves, in order, over the mover's 16 slots at the times of Table 13-6. -/
def pmEstimate (s : State) (p b : Nat) : Nat :=
  let P := partOf s p
  let times := (pmToMove s p b).filterMap fun (_, k) => (plotOf s p k).map fun pl => moveTime s P pl (pmTarget b)
  fracUs (((List.range 16).map fun i =>
    (times.zipIdx.filter fun (_, j) => j % 16 == i).foldl (fun n (t, _) => fracAdd n t) (0, 1)).foldl fracMax (0, 1))

/-- Stage B of PLOT_MOVE (Table 13-13). -/
def checksPlotMove (q : Nat) (s : State) (Q : Queue) (c : Cmd) : List (Bool × Fail) :=
  let p := Q.cfg.part
  let P := partOf s p
  let b := c.body
  let bad (x : Bool) (lo : Nat) : Bool × Fail := (x, atBit .loadBadShape lo)
  let any (f : Plot → Bool) : Bool := (pmPlots b).any fun k => match plotOf s p k with | some pl => f pl | none => false
  reservedBody b [(48, 16), (88, 8), (99, 1), (102, 2), (112, 400)] ++ zeroWhen b (pmTarget b != 1) [(104, 8)]
    ++ streamCheck s P c.hdr false
    ++ [bad (any fun pl => match pl.home with | .window _ => true | .unbacked _ => true | _ => false) 0,
        bad (pmCount b == 0) 64, bad (pmTarget b == 0 || decide (3 < pmTarget b) || (pmTarget b == 3 && any fun pl => pl.anchor.isNone)) 96,
        bad (pmPolicy b == 3) 100, bad (pmTarget b == 1 && pmSlice b != 0xFF && !(partSlices s P).contains (pmSlice b)) 104,
        alignCheck b 0 plotBytes, (decide (2 ^ 48 < (pmFirst b + pmCount b) * plotBytes) || (pmPlots b).any fun k => (plotOf s p k).isNone, atBit .loadBounds 0),
        ((reserveMoves s p q b (pmToMove s p b)).isNone, failAt .loadQuota 0xFFFFFFFF (pmTarget b)), beCheck s Q (pmEstimate s p b)]

/-- PLOT_MOVE's effect: plots at the target take the policy and count as done; the others get their moves. -/
def effectPlotMove (s : State) (q : Nat) (Q : Queue) (c : Cmd) : State :=
  let p := Q.cfg.part
  let b := c.body
  let todo := pmToMove s p b
  let s1 := (pmPlots b).foldl (fun x k => if todo.any (·.2 == k) then x else setPlot x p k (applyPolicy (pmPolicy b))) s
  match reserveMoves s1 p q b todo with
  | none => s1
  | some s2 => runMover s2

def execPlotMove (q : Nat) (s : State) : Host.Outcome State Fault Refusal :=
  .next (runCommand s q 0x230 (checksPlotMove q) fun x => effectPlotMove x q)

/-! ### Automatic migration (R317) -/

/-- Subsoil plots to promote: descending uses, then lower plot number. -/
def promotable (s : State) (p : Nat) : List (Nat × Plot) :=
  sortBy ((partOf s p).plots.filter fun e => autoPlot s p 2 e && decide ((partOf s p).cfg.promote ≤ e.2.uses)) fun a b =>
    decide (b.2.uses < a.2.uses) || (a.2.uses == b.2.uses && decide (a.1 ≤ b.1))

/-- Loam plots to demote: ascending uses, then oldest last_use, then lower plot number. -/
def demotable (s : State) (p : Nat) : List (Nat × Plot) :=
  sortBy ((partOf s p).plots.filter fun e => autoPlot s p 1 e && decide (e.2.uses ≤ (partOf s p).cfg.demote)) fun a b =>
    decide (a.2.uses < b.2.uses) || (a.2.uses == b.2.uses
      && (decide (a.2.lastUse < b.2.lastUse) || (a.2.lastUse == b.2.lastUse && decide (a.1 ≤ b.1))))

/-- Promote candidates in order, with at most `n` moves in all; where no loam is free a demotion comes first, and its promotion
follows it. DESIGN CHOICE, log entry 58. -/
def migrate (p : Nat) : List (Nat × Plot) → Nat → State → State
  | [], _, s => s
  | (k, _) :: rest, n, s =>
    if n = 0 then s
    else match promoteDest s p with
      | some d => migrate p rest (n - 1) (queueMove s p k d .promote)
      | none => match demotable s p, demoteDest s p with
        | (v, _) :: _, some d => migrate p rest (n - 2) (queueMove s p v d (.demote (if n = 1 then none else some k)))
        | _, _ => s

/-- A partition's migration at the end of an epoch; every uses field is cleared. -/
def migratePart (s : State) (p : Nat) : State :=
  let P := partOf s p
  if !P.configured then s
  else setPart (migrate p (promotable s p) P.cfg.moveLimit s) p fun X =>
    { X with plots := X.plots.map fun (k, pl) => (k, { pl with uses := 0 }) }

/-- MIGRATION_EPOCH (R317): the end of a 1 ms epoch of device time. -/
def migrationEpoch (s : State) : State :=
  if s.now < (s.mem.epoch + 1) * 1000000 then s
  else
    let s1 := runMover ((List.range 4).foldl migratePart s)
    { s1 with mem := { s1.mem with epoch := s1.mem.epoch + 1 } }

def execMigrationEpoch (s : State) : Host.Outcome State Fault Refusal := .next (migrationEpoch s)

/-! ### The exponent-plane format (R325) -/

def pad8 (n : Nat) : Nat := ceilDiv n 8 * 8

/-- Element width and exponent width of a chunk code. -/
def planeWidths : Nat → Option (Nat × Nat)
  | 1 => some (8, 4)
  | 2 => some (8, 5)
  | 3 => some (16, 8)
  | 4 => some (16, 5)
  | _ => none

/-- A group of up to 256 elements: its descriptor's base and width, its exceptions, and its elements. -/
structure PlaneGroup where
  base : Nat
  width : Nat
  exc : Nat
  count : Nat
  deriving DecidableEq, Repr

/-- The groups of a chunk of `n` elements. -/
def planeGroups (descs : List Byte) (n : Nat) : List PlaneGroup :=
  (List.range 16).map fun g =>
    let d := ofLe ((descs.drop (4 * g)).take 4)
    { base := fld d 0 8, width := fld d 8 4, exc := fld d 12 9, count := min 256 (n - 256 * g) }

/-- The exponents of a group, from its codes and the exceptions that follow: nothing when an exponent is too large or the
escapes differ from x. -/
def groupExps (we : Nat) (g : PlaneGroup) (codes excs : List Nat) : Option (List Nat) :=
  let step (acc : Option (List Nat × List Nat)) (v : Nat) : Option (List Nat × List Nat) :=
    match acc with
    | none => none
    | some (out, es) =>
      if g.width = 0 then some (out ++ [g.base], es)
      else if v < 2 ^ g.width - 1 then some (out ++ [g.base + v], es)
      else match es with
        | e :: rest => some (out ++ [e], rest)
        | [] => none
  match codes.foldl step (some ([], excs)) with
  | some (out, []) => if out.all fun e => decide (e < 2 ^ we) then some out else none
  | _ => none

/-- Take fields of `w` bits from a plane at a bit position. -/
def planeFields (x at_ w n : Nat) : List Nat := (List.range n).map fun i => fld x (at_ + w * i) w

/-- The exponents of all groups in order: exponent plane `x`, exception plane `y`, at bit positions. -/
def planeExps (we x y : Nat) : List PlaneGroup → Nat → Nat → Option (List Nat)
  | [], _, _ => some []
  | g :: rest, at_, et =>
    match groupExps we g (planeFields x at_ g.width g.count) (planeFields y et we g.exc) with
    | none => none
    | some es => (planeExps we x y rest (at_ + g.width * g.count) (et + we * g.exc)).map fun more => es ++ more

/-- An element from its residue (sign, then mantissa) and exponent. -/
def planeElem (ew we exp res : Nat) : Nat :=
  let man := ew - we - 1
  res / 2 ^ man * 2 ^ (ew - 1) + exp * 2 ^ man + res % 2 ^ man

/-- Decode the body of a coded chunk of `n` elements, whose length must be `clen` with its header. -/
def decodeCoded (ew we n clen : Nat) (bs : List Byte) : Option (List Byte) :=
  let gs := planeGroups (bs.take 64) n
  if gs.any fun g => decide (we < g.width) then none
  else
    let expBytes := pad8 (ceilDiv ((gs.map fun g => g.width * g.count).foldl (· + ·) 0) 8)
    let excBytes := pad8 (ceilDiv (we * (gs.map (·.exc)).foldl (· + ·) 0) 8)
    let resBytes := pad8 (ceilDiv (n * (ew - we)) 8)
    if clen ≠ 8 + 64 + expBytes + excBytes + resBytes then none
    else
      let x := ofLe ((bs.drop 64).take expBytes)
      let y := ofLe ((bs.drop (64 + expBytes)).take excBytes)
      let z := ofLe ((bs.drop (64 + expBytes + excBytes)).take resBytes)
      (planeExps we x y gs 0 0).map fun es =>
        ((es.zip (planeFields z 0 (ew - we) n)).map fun (e, r) => planeElem ew we e r).flatMap (toLe (ew / 8))

/-- Decode one chunk: its decoded bytes and its length, or nothing when it is malformed (Table 13-11). -/
def decodeChunk (bs : List Byte) : Option (List Byte × Nat) :=
  let h := ofLe (bs.take 8)
  let clen := fld h 32 32
  let code := fld h 16 4
  let n := fld h 0 13
  if bs.length < 8 ∨ bs.length < clen ∨ n = 0 ∨ 4096 < n then none
  else if code = 0 then (if clen = 8 + pad8 n then some ((bs.drop 8).take n, clen) else none)
  else match planeWidths code with
    | none => none
    | some (ew, we) => (decodeCoded ew we n clen ((bs.take clen).drop 8)).map fun out => (out, clen)

/-- Decode a source: the bytes, or the offset of the malformed chunk's header. -/
def decodeLayer : Nat → Nat → Nat → List Byte → Except Nat (List Byte)
  | 0, off, _, _ => .error off
  | fuel + 1, off, left, bs =>
    match bs with
    | [] => if left = 0 then .ok [] else .error off
    | _ => match decodeChunk bs with
      | none => .error off
      | some (out, clen) =>
        if left < out.length ∨ (left ≠ out.length ∧ bs.length ≤ clen) then .error off
        else match decodeLayer fuel (off + clen) (left - out.length) (bs.drop clen) with
          | .error o => .error o
          | .ok more => .ok (out ++ more)

/-! ### WINDOW_FILL (R320, R324, Table 13-10) -/

def wfSrc (b : Nat) : Nat := fld b 0 48
def wfSrcLen (b : Nat) : Nat := fld b 64 48
def wfRaw (b : Nat) : Bool := bitOf b 175

/-- The channel groups whose decompressors decode a source: those that hold plots of it, and the partition's lowest one where a plot of
it is elsewhere (R324); no chunk of the format is longer than a plot. DEDUCED, log entry 186. -/
def decompressors (P : Partition) (va n : Nat) : List Nat :=
  let lowest := (bitsOf 24 P.cfg.groupMask).headD 0
  ((rangeFrom (va / plotBytes) ((va + n - 1) / plotBytes + 1 - va / plotBytes)).map fun k => match lookupKey k P.plots with
    | some pl => (match pl.home with | .subsoil f => f / 524288 | _ => lowest)
    | none => lowest).eraseDups

/-- R324: the largest of the three times, in whole us; a raw fill uses no decompressor. -/
def wfEstimate (s : State) (p b : Nat) : Nat :=
  let P := partOf s p
  fracUs (fracMax (wfSrcLen b, max 1 P.cfg.regRate)
    (fracMax (if wfRaw b then (0, 1) else (wfOutLen b, 563 * max 1 (decompressors P (wfSrc b) (wfSrcLen b)).length))
      (wfOutLen b, 141 * max 1 (partSlices s P).length)))

/-- Stage B of WINDOW_FILL (Table 13-13). -/
def checksWindowFill (s : State) (Q : Queue) (c : Cmd) : List (Bool × Fail) :=
  let p := Q.cfg.part
  let b := c.body
  let bad (x : Bool) (lo : Nat) : Bool × Fail := (x, atBit .loadBadShape lo)
  let win := winOf s p (wfWin b)
  let size := match win with | some w => w.slotPlots * plotBytes | none => 0
  let npos := match win with | some w => w.positions | none => 0
  reservedBody b [(48, 16), (112, 16), (176, 848)] ++ streamCheck s (partOf s p) c.hdr false
    ++ [(win.isNone, atBit .loadUnitDisabled 172), bad (wfRaw b && wfSrcLen b != wfOutLen b) 64,
        bad (wfOutLen b == 0 || decide (size < wfOutLen b)) 128, bad (decide (npos ≤ wfPos b)) 160, alignCheck b 0 64,
        (wfSrcLen b % 8 != 0, atBit .loadAlign 64), readCheck s p b 0 (wfSrcLen b), beCheck s Q (wfEstimate s p b)]

/-- The physical address behind a byte of a partition's range, for R306: far-field bytes have one by partition and anchor (Table 13-2). -/
def physAddr (s : State) (p va : Nat) : Nat :=
  match locate s p va with
  | .ok (.phys a) => a
  | .ok .zero => 0
  | _ => match lookupKey (va / plotBytes) (partOf s p).plots with
    | some pl => 0x200_0000_0000 + p * 0x100_0000_0000 + pl.anchor.getD 0 * plotBytes + va % plotBytes
    | none => 0

/-- The decoded bytes of a fill. -/
def fillData (s : State) (p b : Nat) : Except Fail (List Byte) :=
  match loadBytes s p (wfSrc b) (wfSrcLen b) with
  | .error f => .error f
  | .ok bs =>
    if wfRaw b then .ok bs
    else match decodeLayer (bs.length / 8 + 1) 0 (wfOutLen b) bs with
      | .error off => .error (uncorrectable (physAddr s p (wfSrc b + off)))
      | .ok out => .ok out

/-- Write bytes into a slot's frames. -/
def fillFrames (s : State) (p q : Nat) : List Nat → List Byte → Except Fail State
  | [], _ => .ok s
  | f :: fs, bs => match physStore s p q (loamAddr f) (bs.take plotBytes) with
    | .error e => .error e
    | .ok s1 => fillFrames s1 p q fs (bs.drop plotBytes)

/-- The number of a fill of window `w` (R320): it is counted as it begins to execute, and keeps its number while it waits. -/
def numberFill (s : State) (q p : Nat) (c : Cmd) (w : Window) : State :=
  match fillNumberOf c with
  | some _ => s
  | none => setCmd (setWin s p (wfWin c.body) fun x => { x with fills := w.fills + 1 }) q fun x =>
      { x with fill := some (w.fills, false) }

/-- Whether a fill may begin to write a slot: it has no readers, and no other fill is writing it. -/
def slotOpen (sl : WinSlot) : Bool := sl.readers.isEmpty && (match sl.st with | .filling _ _ => false | _ => true)

/-- A fill whose source is read begins to write: its slot is FILLING until the commit (Table 13-9). It waits while the slot has readers
(R320). A fill has no descriptors. DEDUCED, log entries 139 and 161. -/
def computeWindowFill (s : State) (q : Nat) : State :=
  let p := (queueOf s q).cfg.part
  match (queueOf s q).cmd with
  | none => s
  | some c => match winOf s p (wfWin c.body), fillNumberOf c with
    | some w, some k =>
      let sl := w.slots.getD (fillSlot w k) { frames := [], st := .empty, readers := [] }
      if !slotOpen sl then s
      else
        let s1 := setCmd (setWin s p (wfWin c.body) fun x => setSlotState x (fillSlot w k) (.filling (wfPos c.body) (wfOutLen c.body))) q
          fun x => { x with fill := some (k, true) }
        let (bad, s2) := hostFires (useReads s1 p c.reads) p c.reads
        match (match bad, fillData s2 p c.body with
          | some f, _ => Except.error f
          | none, .error f => Except.error f
          | none, .ok bs => fillFrames s2 p q sl.frames bs) with
        | .ok s3 => setResult s3 q ⟨.completed, 0, 0, 0⟩
        | .error f => setResult s2 q (failResult f 0)
    | _, _ => s

/-- WINDOW_FILL's effect (R320, R321, R324): it reads as any reader of a window does, then writes its slot. -/
def effectWindowFill (s : State) (q : Nat) (Q : Queue) (c : Cmd) : State :=
  match winOf s Q.cfg.part (wfWin c.body) with
  | none => setResult s q ⟨.abortUpstream, 0, 0, 0⟩
  | some w =>
    if c.waiting.isSome then s
    else if c.reads.isEmpty then
      gated (numberFill s q Q.cfg.part c w) q Q.cfg.part [(wfSrc c.body, wfSrcLen c.body)] fun x => computeWindowFill x q
    else computeWindowFill s q

/-! ### PAGE_PIN's moves (R269, R275) -/

/-- A page's move ends: the page stands in its slot and counts as moved, unless it has left subsoil meanwhile or its slot's error drops it
on the way (R273). -/
def pageMoveEnds (s : State) (m : Move) : State :=
  match m.cause, m.dest with
  | .page q k, .loam i =>
    let s0 := dropMove s m
    if !pageBelow s0 m.part k m.plot then s0
    else
      let s1 := countedMove s0 m.part k m.plot (.loam i) fun c => { c with fetched := satAdd 32 c.fetched 1 }
      if ((poolOf s1 m.part k).bind fun K => pageOf K m.plot).map (·.home) = some (.loam i)
      then setCmd s1 q fun c => { c with done := c.done + 1 } else s1
  | _, _ => dropMove s m

/-- The page moves of queue `q`'s command end, those in slots first, until none is left. -/
def finishPages (q : Nat) : Nat → State → State
  | 0, s => s
  | n + 1, s => match s.mem.moves.find? fun m => m.active && pageMove m && moveQueue m == some q with
    | some m => finishPages q n (runMover (pageMoveEnds s m))
    | none => s

/-- Every page move of queue `q`'s command. DEDUCED, log entry 185. -/
def endPages (s : State) (q : Nat) : State := finishPages q s.mem.moves.length s

def execPagePin (q : Nat) (s : State) : Host.Outcome State Fault Refusal :=
  .next (streamEvent s q 0x320 false checksPagePin noStart fun x y c =>
    if c.paging then x else runMover (effectPagePin x y (queueOf x y) c))

/-! ### Chains of descriptors (R359) -/

/-- The next descriptor of a chain (Table 15-2). -/
def ddNext (d : Nat) : Nat := fld d 384 48

/-- The chain's descriptors from an address with the address of each, as far as they can be read (R82, R359). -/
def chainFrom (s : State) (p : Nat) : Nat → Nat → Except Fail (List (Nat × Nat))
  | 0, _ => .ok []
  | n + 1, va =>
    if va % 64 ≠ 0 ∨ mappedRead s p va 64 = false then .ok []
    else match loadNat s p va 64 with
      | .error f => .error f
      | .ok d =>
        if ddNext d = 0 then .ok [(va, d)]
        else match chainFrom s p n (ddNext d) with
          | .error f => .error f
          | .ok ds => .ok ((va, d) :: ds)

def dcFirst (b : Nat) : Nat := fld b 0 48
def dcCount (b : Nat) : Nat := fld b 64 11

def readChain (s : State) (p b : Nat) : Except Fail (List (Nat × Nat)) := chainFrom s p (min 1024 (dcCount b)) (dcFirst b)

/-- The spans that the loader reads of a DRILL_CHAIN, one descriptor each; of a chain with a line that cannot be read, the first. -/
def chainSpans (s : State) (p : Nat) (c : Cmd) : List (Nat × Nat) :=
  if hOpcode c.hdr != 0x201 then []
  else match readChain s p c.body with
    | .ok ds => ds.map fun e => (e.1, 64)
    | .error _ => [(dcFirst c.body, 64)]

/-! ### Events of the lower tiers -/

/-- WCB_IDLE_TIMEOUT (R338): 256 HCLK, 233 ns, have passed without a merge into an entry. -/
def execWcbIdleTimeout (line : Nat) (s : State) : Host.Outcome State Fault Refusal :=
  .next (drainWhere s fun e => e.line == line && decide (e.lastMerge + 233 ≤ s.now))

/-- The far-field timeout of a home in ns (R327). -/
def farTimeout (P : Partition) (h : Home) : Nat := (if h == .remote then P.cfg.remoteTimeout else P.cfg.hostTimeout) * 1000000

/-- Whether an access that began at a time, to a far-field plot among those a test selects, has passed the far-field timeout (R327). -/
def farExpired (s : State) (p since : Nat) (sel : Nat → Bool) : Bool :=
  (partOf s p).plots.any fun (k, pl) => homeTier pl.home == 3 && sel k && decide (since + farTimeout (partOf s p) pl.home ≤ s.now)

/-- The functions under whose identifier a partition has written to host memory. -/
def flushFns (s : State) (p : Nat) : List Nat :=
  ((partOf s p).anchors.filterMap fun (_, a) => match a with
    | .host _ fn => if (pciFn s fn).lastWrite.isSome then some fn else none
    | _ => none).eraseDups

/-- Whether a visibility fence waits too long for its flushing reads, or for acknowledgements (R364). -/
def visibleExpired (s : State) (p since : Nat) : Bool :=
  (!(flushFns s p).isEmpty && decide (since + farTimeout (partOf s p) .host ≤ s.now))
    || ((s.net.qps.any fun e => e.2.part == p && e.2.unacked) && decide (since + farTimeout (partOf s p) .remote ≤ s.now))

/-- The home at the far end of a move of a queue's command in a slot. -/
def farEnd (s : State) (m : Move) : Option Home :=
  if homeTier m.dest == 3 then some m.dest
  else match plotOf s m.part m.plot with
    | some pl => if homeTier pl.home == 3 then some pl.home else none
    | none => none

/-- The far-field move in a slot of a queue's command. -/
def farMove (s : State) (q : Nat) : Option Move :=
  s.mem.moves.find? fun m => m.active && !pageMove m && moveQueue m == some q && (farEnd s m).isSome

/-- A request to host memory that gets no completion is counted among the completion timeouts (Table 19-4). DEDUCED, log entry 90. -/
def countCpl (s : State) (p : Nat) (sel : Nat → Bool) : State :=
  if (partOf s p).plots.any fun e => e.2.home == .host && sel e.1 then
    { s with pcie := { s.pcie with cplTimeout := satAdd 32 s.pcie.cplTimeout 1 } }
  else s

/-- The spans that queue `q` is accessing: its ring, the structures of its command, or the extents of the command. -/
def farSpans (s : State) (q : Nat) : List (Nat × Nat) :=
  let Q := queueOf s q
  match Q.cmd with
  | some c => if Q.state == .check then loaderSpans s Q.cfg.part c ++ chainSpans s Q.cfg.part c else c.reads ++ c.outs
  | none => [(ringAddr Q Q.head, 64)]

/-- The plots that queue `q`'s far-field access may touch. -/
def farPlots (s : State) (q k : Nat) : Bool :=
  match farMove s q, (queueOf s q).cmd with
  | some m, _ => m.plot == k
  | none, some c => hOpcode c.hdr == 0x210 || touches (farSpans s q) k
  | none, none => touches (farSpans s q) k

/-- An executing command's access has failed: it ends with the descriptors that it has completed (Table 3-3). -/
def endRead (s : State) (q p : Nat) (c : Cmd) (f : Fail) : State := endEarly (discardItems s q) q p f c.outs c.done

/-- Whether the status of a command is not yet that of a failure. -/
def undecided (Q : Queue) : Bool := match Q.result with | some r => isDone r.status | none => true

/-- FAR_FIELD_TIMEOUT (R326, R327): a host or remote access of queue `q` exceeds the timeout: it ends the command, its plot
move, or the fetch of its ring. -/
def farFieldEnd (s : State) (q : Nat) : Option State :=
  let Q := queueOf s q
  let p := Q.cfg.part
  let f := failAt .memFarTimeout 0 0
  match farMove s q, Q.cmd with
  | some m, some c =>
    if (match farEnd s m with | some h => decide (c.start.getD s.now + farTimeout (partOf s p) h ≤ s.now) | none => false)
    then some (runMover (moveFail (countMoveFailed (settleMove s m) m.part) m f)) else none
  | some _, none => none
  | none, some c =>
    let since := c.start.getD s.now
    if Q.state = .run ∧ undecided Q = true then
      (if (if hOpcode c.hdr = 0x210 then visibleExpired s p since else farExpired s p since (touches (farSpans s q)))
       then some (endRead s q p c f) else none)
    else if Q.state = .check ∧ Q.result = none ∧ farExpired s p Q.since (touches (farSpans s q)) = true then
      some (setResult s q (failResult f 0))
    else none
  | none, none => if Q.state = .fetch ∧ farExpired s p Q.since (touches (farSpans s q)) = true then some (ringFault s q f 0) else none

/-- The access ends, and is counted when it was one to host memory. -/
def farFieldTimeout (s : State) (q : Nat) : State :=
  match farFieldEnd s q with
  | some s1 =>
    let s2 := countCpl s1 (queueOf s q).cfg.part (farPlots s q)
    if s2.pcie.cplTimeout = s1.pcie.cplTimeout then s2 else noteInjected s2 0x1A (queueOf s q).cfg.owner
  | none => s

def execFarFieldTimeout (q : Nat) (s : State) : Host.Outcome State Fault Refusal := .next (farFieldTimeout s q)

end Sys2Proof.Machine
end

