-- ==== Sys2Proof/Machine/Drill.lean ====
section
/-! DEFINITION. The drill (R354 to R371): the grant of a channel, descriptors and chains, the running CRC, the visibility
fence, bus errors, and what a write to DRL_CH_CTRLn does. -/

namespace Sys2Proof.Machine

/-! ### The grant (R355) -/

/-- Whether a queue's command waits for channel `n`. -/
def waitsChannel (s : State) (n q : Nat) : Bool :=
  let Q := queueOf s q
  Q.cfg.kind == 2 && Q.cfg.channel == n && Q.state == .check && Q.result.isNone && !(pciFn s Q.cfg.owner).d3hot
    && (channelNo s n).part == some Q.cfg.part && (match Q.cmd with | some c => onChannel (hOpcode c.hdr) | none => false)

/-- The order of the grant: LC before BE, then rotation by queue index after the queue served last. -/
def grantOrder (s : State) (n : Nat) : List Nat :=
  let last := (channelNo s n).last
  let qs := (rangeFrom (last + 1) (255 - last) ++ List.range (last + 1)).filter (waitsChannel s n)
  qs.filter (fun q => !(queueOf s q).cfg.be) ++ qs.filter fun q => (queueOf s q).cfg.be

/-- DRILL_CHANNEL_GRANT (R355): a free channel takes a waiting command, whose stage B then runs. -/
def drillGrant (s : State) (n : Nat) : State :=
  let ch := channelNo s n
  if ch.st != .idle || ch.cur.isSome then s
  else match grantOrder s n with
    | [] => s
    | q :: _ => setChannel s n fun c => { c with cur := some q, last := q, st := .run }

def execDrillChannelGrant (n : Nat) (s : State) : Host.Outcome State Fault Refusal := .next (drillGrant s n)

/-- Whether queue `q` holds its channel. -/
def holdsChannel (s : State) (q : Nat) : Bool := (channelNo s (queueOf s q).cfg.channel).cur == some q

/-! ### Descriptors (Table 15-2) -/

def ddSrc (d : Nat) : Nat := fld d 0 48
def ddDst (d : Nat) : Nat := fld d 64 48
def ddLen (d : Nat) : Nat := fld d 128 32
def ddRows (d : Nat) : Nat := fld d 160 24
def ddSrcStride (d : Nat) : Nat := fld d 192 48
def ddDstStride (d : Nat) : Nat := fld d 256 48
def ddCrc (d : Nat) : Nat := fld d 480 2
def ddCrcOnly (d : Nat) : Bool := bitOf d 483

/-- The source and destination rows of a descriptor. -/
def ddSrcRows (d : Nat) : List (Nat × Nat) := rowSpans (ddSrc d) (ddSrcStride d) (ddRows d) (ddLen d)
def ddDstRows (d : Nat) : List (Nat × Nat) := if ddCrcOnly d then [] else rowSpans (ddDst d) (ddDstStride d) (ddRows d) (ddLen d)

/-- Whether the ranges spanned by source and destination overlap (R362). -/
def ddOverlap (d : Nat) : Bool :=
  !ddCrcOnly d && decide (ddSrc d < ddDst d + extent (ddRows d) (ddDstStride d) (ddLen d))
    && decide (ddDst d < ddSrc d + extent (ddRows d) (ddSrcStride d) (ddLen d))

/-- Where a descriptor's field is reported (R566): in the body of DRILL_COPY, or in entry `i` of a chain. -/
def ddAt (chain : Bool) (i : Nat) (st : Status) (off : Nat) : Fail :=
  if chain then failAt st 64 (64 * i + off) else failAt st (64 + off) 0

/-- Check 8 of a descriptor. DEDUCED, log entry 62. -/
def ddReserved (chain : Bool) (i d : Nat) : List (Bool × Fail) :=
  let r (bad : Bool) (lo len : Nat) : Bool × Fail := (bad && fld d lo len != 0, ddAt chain i .loadReservedNonzero (lo / 8))
  [r true 48 16, r (ddCrcOnly d) 64 48, r true 112 16, r true 184 8, r true 240 16, r (ddCrcOnly d) 256 48, r true 304 16,
   r true 368 16, r (!chain) 384 48, r true 432 48, r true 482 1, r true 484 28]

/-- Check 13 of a descriptor; an overlap is a matter of several fields (R566). -/
def ddShape (chain : Bool) (i d : Nat) : List (Bool × Fail) :=
  let bad (x : Bool) (off : Nat) : Bool × Fail := (x, ddAt chain i .loadBadShape off)
  [bad (ddLen d == 0) 16, bad (ddRows d == 0) 20,
   bad (!ddCrcOnly d && decide (1 < ddRows d) && decide (ddDstStride d < ddLen d)) 32, bad (ddCrc d == 3 || (i == 0 && ddCrc d == 2)) 60,
   (ddOverlap d, failNone .loadBadShape)]

/-- Check 16 of a descriptor. -/
def ddBounds (s : State) (p : Nat) (chain : Bool) (i d : Nat) : List (Bool × Fail) :=
  let bad (x : Bool) (off : Nat) : Bool × Fail := (x, ddAt chain i .loadBounds off)
  [bad ((ddSrcRows d).any fun (a, n) => !mappedRead s p a n) 0, bad ((ddDstRows d).any fun (a, n) => !mappedWrite s p a n) 8,
   bad (ddCrcAddr d != 0 && !mappedWrite s p (ddCrcAddr d) 4) 40]

/-- The descriptors of a channel command, with the address of each: that of the body in the ring, or those of the chain. -/
def descsOf (s : State) (p : Nat) (Q : Queue) (c : Cmd) : List (Nat × Nat) :=
  if hOpcode c.hdr = 0x200 then [(ringAddr Q (Q.head + 1), c.body)]
  else match readChain s p c.body with | .ok ds => ds | .error _ => []

/-- Bytes per ns of the path of an address: a loam slice's port 141 (Table 13-6), subsoil the partition's rate, a far-field plot its
link. -/
def pathRate (s : State) (p va : Nat) : Nat × Nat :=
  let P := partOf s p
  match lookupKey (va / plotBytes) P.plots with
  | none => (141, 1)
  | some pl => match pl.home with
    | .subsoil _ => (max 1 P.cfg.regRate, 1)
    | h => match farPath s P pl h with
      | some (r, _) => r
      | none => (141, 1)

/-- The time of `n` bytes at a rate. -/
def timeAt (n : Nat) (r : Nat × Nat) : Nat × Nat := (n * r.2, r.1)

/-- A command's estimate in us: its bytes at the slower path of each descriptor (Table 15-5), rounded once (R409). -/
def ddEstimate (s : State) (p : Nat) (ds : List Nat) : Nat :=
  fracUs (ds.foldl (fun n d =>
    let bytes := ddRows d * ddLen d
    let src := timeAt bytes (pathRate s p (ddSrc d))
    fracAdd n (if ddCrcOnly d then src else fracMax src (timeAt bytes (pathRate s p (ddDst d))))) (0, 1))

def overDescs (ds : List Nat) (f : Nat → Nat → List (Bool × Fail)) : List (Bool × Fail) :=
  ((List.range ds.length).zip ds).flatMap fun (i, d) => f i d

/-- Stage B of DRILL_COPY (Table 15-5). -/
def checksDrillCopy (s : State) (Q : Queue) (c : Cmd) : List (Bool × Fail) :=
  let p := Q.cfg.part
  let d := c.body
  ddReserved false 0 d ++ streamCheck s (partOf s p) c.hdr false ++ ddShape false 0 d
    ++ [(ddCrcAddr d % 4 != 0, ddAt false 0 .loadAlign 40)] ++ ddBounds s p false 0 d ++ [beCheck s Q (ddEstimate s p [d])]

/-- Stage B of DRILL_CHAIN: every descriptor is checked before any runs (R359). -/
def checksDrillChain (s : State) (Q : Queue) (c : Cmd) : List (Bool × Fail) :=
  let p := Q.cfg.part
  let b := c.body
  let n := dcCount b
  let chain := readChain s p b
  let ds := match chain with | .ok xs => xs.map (·.2) | .error _ => []
  let ends (i d : Nat) : List (Bool × Fail) := [((i + 1 == n) != (ddNext d == 0), ddAt true i .loadBadShape 48)]
  let aligned (i d : Nat) : List (Bool × Fail) :=
    [(ddCrcAddr d % 4 != 0, ddAt true i .loadAlign 40), (ddNext d % 64 != 0, ddAt true i .loadAlign 48)]
  let mapped (i d : Nat) : List (Bool × Fail) :=
    ddBounds s p true i d
      ++ [(ddNext d != 0 && decide (i + 1 < n) && ddNext d % 64 == 0 && !mappedRead s p (ddNext d) 64, ddAt true i .loadBounds 48)]
  reservedBody b [(48, 16), (75, 437)] ++ [readFailed chain] ++ overDescs ds (ddReserved true) ++ streamCheck s (partOf s p) c.hdr false
    ++ [(n == 0 || decide (1024 < n), atBit .loadBadShape 64)] ++ overDescs ds (fun i d => ddShape true i d ++ ends i d)
    ++ [alignCheck b 0 64] ++ overDescs ds aligned ++ [readCheck s p b 0 64] ++ overDescs ds mapped
    ++ [beCheck s Q (ddEstimate s p ds)]

/-! ### Running descriptors (R357 to R363) -/

/-- The bytes a descriptor reads, row by row. -/
def ddRead (s : State) (p d : Nat) : Except Fail (List (List Byte)) :=
  (ddSrcRows d).mapM fun (a, n) => loadBytes s p a n

/-- The running CRC after a descriptor (R360). -/
def ddCrcAfter (crc : W32) (d : Nat) (bs : List Byte) : W32 :=
  if ddCrc d = 1 then crcBytes 0xFFFFFFFF bs else if ddCrc d = 2 then crcBytes crc bs else crc

/-- Free values in the counters that a disable leaves undefined (R369). -/
def looseCounts (k : Nat) (c : ChCounts) : ChCounts :=
  let word (i : Nat) : Nat := (Config.freeWord (k + 2 * i)).toNat + (Config.freeWord (k + 2 * i + 1)).toNat % 2 ^ 16 * 2 ^ 32
  { c with rdBytes := word 0, wrBytes := word 1, curDesc := word 2 }

/-- What a change makes of a channel's counters of Table 15-4; those that a disable has left undefined stay so until they are cleared. -/
def chCounts (s : State) (n : Nat) (f : ChCounts → ChCounts) : State :=
  if (channelNo s n).loose then
    let (k, s1) := takeFree s 6
    setChannel s1 n fun c => { c with counts := looseCounts k (f c.counts) }
  else setChannel s n fun c => { c with counts := f c.counts }

/-- The transfers of one descriptor: rows read, with the running CRC, and rows written. -/
def runDesc (s : State) (p q n d : Nat) : Except Fail State :=
  match ddRead s p d with
  | .error f => .error f
  | .ok rows =>
    let s1 := chCounts (setChannel s n fun c => { c with crc := ddCrcAfter c.crc d rows.flatten }) n fun c => { c with
      rdBytes := satAdd 48 c.rdBytes (ddRows d * ddLen d)
      wrBytes := satAdd 48 c.wrBytes (if ddCrcOnly d then 0 else ddRows d * ddLen d) }
    storeAll s1 p q ((ddDstRows d).zip rows |>.map fun ((a, _), bs) => (a, bs))

/-- The channel halts: its command ends with MEM_BUS_ERROR at descriptor `d` (R365). -/
def haltChannel (s : State) (n q d off : Nat) : State :=
  let s1 := setChannel s n fun ch => { ch with
    st := .halted, retry := [], haltStatus := statusCode .memBusError, counts := { ch.counts with halts := satAdd 16 ch.counts.halts 1 } }
  let outs := match (queueOf s q).cmd with | some c => c.outs | none => []
  raiseEvent (endEarly s1 q (queueOf s q).cfg.part (failAt .memBusError d off) outs d) 1 (queueOf s q).cfg.part

/-- The offset of the first line of a descriptor's transfer whose write is discarded (R436). -/
def shutOffset (s : State) (p d : Nat) : Option Nat :=
  let inRow (i : Nat) (a n : Nat) : Option Nat :=
    ((rangeFrom (a / 64) ((a + n - 1) / 64 + 1 - a / 64)).find? fun l => hostShut s p (max a (l * 64))).map fun l =>
      i * ddLen d + (max a (l * 64) - a)
  let rows := ddDstRows d
  (List.range rows.length).findSome? fun i => let (a, n) := rows.getD i (0, 0); inRow i a n

/-- The offset in a descriptor's transfer of the first line that it reads of host memory. -/
def hostOffset (s : State) (p d : Nat) : Option Nat :=
  let inRow (i a n : Nat) : Option Nat :=
    ((rangeFrom (a / plotBytes) ((a + n - 1) / plotBytes + 1 - a / plotBytes)).find? fun k => match plotOf s p k with
      | some pl => pl.home == .host
      | none => false).map fun k => i * ddLen d + (max a (k * plotBytes) - a)
  (ddSrcRows d).zipIdx.findSome? fun ((a, n), i) => inRow i a n

/-- What armed points make of the first lines of descriptor `i`: up to three retries, then a halt (R365), or a withheld completion
(R326). -/
def drillFires (s : State) (p n i d : Nat) : Option Fail × State :=
  let fns := hostFns s p (ddSrcRows d)
  let (k, s1) := fireTimes 0x13 n 4 s
  let (k2, s2) := fns.foldl (fun (k, x) fn => let (j, y) := fireTimes 0x19 fn (4 - k) x; (k + j, y)) (k, s1)
  let s3 := setChannel s2 n fun ch => { ch with counts := { ch.counts with retries := satAdd 32 ch.counts.retries (min k2 3) } }
  if k2 = 4 then (some (failAt .memBusError i (if k = 4 then 0 else (hostOffset s p d).getD 0)), s3)
  else match fns.find? fun fn => (armedPoint s3 0x1A fn).isSome with
    | some fn => completionFires s3 fn
    | none => (none, s3)

/-- The next descriptor of a channel command starts (R362), and its data moves; after the last the command is done (R363). A failure
ends it with the descriptors that it has completed (R326); a write that the device may not issue halts the channel (R436, R437). -/
def startDesc (s : State) (q : Nat) : State :=
  let p := (queueOf s q).cfg.part
  let n := (queueOf s q).cfg.channel
  match (queueOf s q).cmd with
  | none => s
  | some c => match (channelNo s n).store[c.done]? with
    | none => setResult s q ⟨.completed, 0, 0, c.done⟩
    | some (va, d) =>
      let outs := c.outs ++ ddDstRows d
      let s1 := chCounts (setCmd s q fun x => { x with outs := outs }) n fun k => { k with curDesc := va }
      let s2 := touchPlots (useReads s1 p (ddSrcRows d)) p (ddDstRows d ++ (if ddCrcAddr d = 0 then [] else [(ddCrcAddr d, 4)]))
      match drillFires s2 p n c.done d with
      | (some f, x) => if f.status = .memBusError then haltChannel x n q f.a f.b else endEarly x q p f outs c.done
      | (none, x) => match shutOffset x p d, runDesc x p q n d with
        | some o, _ => haltChannel x n q c.done o
        | none, .error f => endEarly x q p f outs c.done
        | none, .ok y => y

/-- Whether the CRC store of a channel command's current descriptor is a write that the device may not issue (R436). -/
def crcShut (s : State) (q d : Nat) : Bool := ddCrcAddr d != 0 && hostShut s (queueOf s q).cfg.part (ddCrcAddr d)

/-- The current descriptor of a channel command completes, and the next one starts; a CRC store that the device may not issue halts the
channel (R436, R437). -/
def advanceDrill (s : State) (q : Nat) : State :=
  match currentDesc s q, (queueOf s q).cmd with
  | some (_, d), some c =>
    if crcShut s q d then haltChannel s (queueOf s q).cfg.channel q c.done (ddRows d * ddLen d)
    else
      let s1 := finishDesc s q
      if (queueOf s1 q).result.isSome then s1 else startDesc s1 q
  | _, _ => s

/-- A channel command goes on to descriptor `d`, unless it ends before. -/
def advanceTo (q d : Nat) : Nat → State → State
  | 0, s => s
  | k + 1, s => match (queueOf s q).cmd with
    | some c => if (currentDesc s q).isSome && decide (c.done < d) then advanceTo q d k (advanceDrill s q) else s
    | none => s

/-- A channel command runs to its end. -/
def finishDrill (s : State) (q : Nat) : State :=
  let k := (channelNo s (queueOf s q).cfg.channel).store.length
  advanceTo q k k s

/-- What passes with time on the channels: each goes on by a descriptor. DESIGN CHOICE, log entry 56. -/
def tickDrill (s : State) : State :=
  (List.range 16).foldl (fun x n => match (channelNo x n).cur with
    | some q => if (currentDesc x q).isSome then advanceDrill x q else x
    | none => x) s

/-- A channel command once the positions that it reads are ready (R321); it never reports a window stall (R371). DEDUCED, log entry 157. -/
def computeDrill (s : State) (q : Nat) : State := startDesc s q

/-- The start of a channel command: its descriptors enter the channel's store (R359). -/
def startDrill (s : State) (q : Nat) (Q : Queue) (c : Cmd) : State :=
  let p := Q.cfg.part
  let ds := descsOf s p Q c
  let s1 := setChannel s Q.cfg.channel fun ch => { ch with store := ds, retry := [] }
  gated s1 q p (ds.flatMap fun e => ddSrcRows e.2) fun st => computeDrill st q

/-- DRILL_COPY (R358): stage B runs at the grant. -/
def execDrillCopy (q : Nat) (s : State) : Host.Outcome State Fault Refusal :=
  .next (if holdsChannel s q then runCommand s q 0x200 checksDrillCopy fun x => startDrill x q else s)

/-- DRILL_CHAIN (R359): the loader reads the chain at stage B. -/
def execDrillChain (q : Nat) (s : State) : Host.Outcome State Fault Refusal :=
  .next (match holdsChannel s q, inCheck s q 0x201 with
    | true, some (Q, c) => runCommand (useReads s Q.cfg.part (chainSpans s Q.cfg.part c)) q 0x201 checksDrillChain fun x => startDrill x q
    | _, _ => s)

/-- DRILL_VISIBLE's effect (R364, R438): the partition's write-combining entries drain; the flushing reads of a function that
may not issue requests end it with MEM_UNMAPPED (R436). -/
def effectDrillVisible (s : State) (q : Nat) (Q : Queue) (_ : Cmd) : State :=
  let p := Q.cfg.part
  let s1 := drainWhere s fun e => e.part == p
  if (flushFns s1 p).all (mayIssue s1) then setResult s1 q ⟨.completed, 0, 0, 0⟩
  else setResult s1 q ⟨.memUnmapped, 0, 0, 0⟩

/-- The writes of a partition to remote plots are acknowledged. -/
def acknowledged (s : State) (p : Nat) : State :=
  { s with net := { s.net with qps := s.net.qps.map fun (i, x) => (i, if x.part = p then { x with unacked := false } else x) } }

/-- At its commit a visibility fence has its acknowledgements (R364); a queue pair that has gone to ERROR with writes under way will give
none, and ends it with the status that it gives all accesses (R451). DEDUCED, log entry 184. -/
def settleVisible (s : State) (q : Nat) : State :=
  let Q := queueOf s q
  match Q.cmd, Q.result with
  | some c, some r =>
    if hOpcode c.hdr != 0x210 || Q.state != .run || !isDone r.status then s
    else match s.net.qps.find? fun e => e.2.part == Q.cfg.part && e.2.unacked && e.2.st == .error with
      | some (_, x) => setResult s q ⟨x.cause, 0, 0, 0⟩
      | none => acknowledged s Q.cfg.part
  | _, _ => s

def checksDrillVisible (s : State) (Q : Queue) (c : Cmd) : List (Bool × Fail) := streamCheck s (partOf s Q.cfg.part) c.hdr false

/-- DRILL_VISIBLE (R364). -/
def execDrillVisible (q : Nat) (s : State) : Host.Outcome State Fault Refusal :=
  .next (if holdsChannel s q then runCommand s q 0x210 checksDrillVisible fun x => effectDrillVisible x q else s)

/-- WINDOW_FILL (R324): it occupies its channel, and goes on once its slot has no readers (R320). -/
def execWindowFill (q : Nat) (s : State) : Host.Outcome State Fault Refusal :=
  let Q := queueOf s q
  .next (if !holdsChannel s q then s
    else match Q.state, Q.cmd, Q.result with
      | .run, some c, none => if hOpcode c.hdr = 0x220 then effectWindowFill s q Q c else s
      | _, _, _ => runCommand s q 0x220 checksWindowFill fun x => effectWindowFill x q)

/-! ### Bus errors (R365) -/

/-- The executing command of a channel, while its status is not that of a failure. A fill meets no halt (R328). -/
def channelCmd (s : State) (n : Nat) : Option (Nat × Cmd) :=
  match (channelNo s n).cur with
  | none => none
  | some q => match (queueOf s q).cmd with
    | some c => if (queueOf s q).state = .run && hOpcode c.hdr != 0x220 && undecided (queueOf s q) then some (q, c) else none
    | none => none

/-- Whether an offset lies in a descriptor's transfer, or names its CRC store. -/
def inTransfer (d off : Nat) : Bool := decide (off < ddRows d * ddLen d) || (ddCrcAddr d != 0 && off == ddRows d * ddLen d)

/-- Whether the line at offset `off` of descriptor `d` is one that a channel command can still transfer; the flushing reads of a
visibility fence count as descriptor 0. -/
def awaitsLine (s : State) (n d off : Nat) (c : Cmd) : Bool :=
  if hOpcode c.hdr == 0x210 then d == 0 && off == 0
  else decide (c.done ≤ d) && (match (channelNo s n).store[d]? with | some e => inTransfer e.2 off | none => false)

/-- One more error of a line: it is tried again at once up to three times, then the channel halts (R365). -/
def lineError (s : State) (n q d off : Nat) : State :=
  let ch := channelNo s n
  let before := match ch.retry.find? fun e => e.1 == d && e.2.1 == off with | some (_, _, k) => k | none => 0
  if before < 3 then setChannel s n fun ch => { ch with
    retry := (ch.retry.filter fun e => !(e.1 == d && e.2.1 == off)) ++ [(d, off, before + 1)]
    counts := { ch.counts with retries := satAdd 32 ch.counts.retries 1 } }
  else haltChannel s n q d off

/-- DRILL_BUS_ERROR (R365): an error response to the transfer of the line at offset `off` of descriptor `d`, before which the descriptors
that come first have completed (R362). -/
def drillBusError (s0 : State) (n d off : Nat) : State :=
  match channelCmd s0 n with
  | none => s0
  | some (q, c) =>
    if !awaitsLine s0 n d off c then s0
    else
      let s := advanceTo q d d (noteInjected s0 0x13 n)
      match channelCmd s n with
      | some (_, x) => if hOpcode x.hdr == 0x210 || x.done == d then lineError s n q d off else s
      | none => s

def execDrillBusError (n d off : Nat) (s : State) : Host.Outcome State Fault Refusal := .next (drillBusError s n d off)

/-! ### The commit (R78) -/

/-- What a command still does before its status commits: the moves of pages in slots, the descriptors that have not completed, and the
acknowledgements of a visibility fence. -/
def beforeCommit (s : State) (q : Nat) : State := settleVisible (finishDrill (endPages s q) q) q

/-- COMMAND_COMMIT (R78): the status at a queue's head commits; record, signal and interrupt follow in that order. -/
def execCommandCommit (q : Nat) (s : State) : Host.Outcome State Fault Refusal :=
  let s1 := beforeCommit s q
  .next (if committable s1 q then commitQueue s1 q else s1)

/-! ### DRL_CH_CTRLn (Table 15-3) -/

/-- R367: everything on a channel is dropped at the latch of its disable bit; the counters that Table 15-4 leaves undefined
become free values. The command keeps the channel until its commit, when its descriptors are counted. -/
def disableChannel (s : State) (n : Nat) : State :=
  let ch := channelNo s n
  if ch.disable then s
  else
    let (k, s0) := takeFree s 6
    let runs (q : Nat) : Bool := (queueOf s q).state == .run || (queueOf s q).result.isSome
    let active : Bool := match ch.cur with
      | some q => (queueOf s q).state == .run && stoppable (queueOf s q)
      | none => false
    let s1 := setChannel s0 n fun c => { c with
      disable := true, st := .disabled, store := [], crc := 0, retry := [], loose := true
      cur := c.cur.filter runs
      counts := looseCounts k { c.counts with disables := if active then satAdd 16 c.counts.disables 1 else c.counts.disables } }
    match ch.cur with
    | some q => if active then stopCmd s1 q .aborted 0xD else s1
    | none => s1

/-- R370: clearing disable returns a bound channel to IDLE. -/
def enableChannel (s : State) (n : Nat) : State :=
  setChannel s n fun c => if c.part.isSome then
    { c with disable := false, st := if c.st == .disabled then .idle else c.st } else c

/-- R365: resume moves a HALTED channel to IDLE. -/
def resumeChannel (s : State) (n : Nat) : State := setChannel s n fun c => if c.st == .halted then { c with st := .idle } else c

/-- R369: the counters are cleared. -/
def clearChannel (s : State) (n : Nat) : State := setChannel s n fun c => { c with counts := noChCounts, loose := false }

/-- A write to DRL_CH_CTRLn as firmware applies it: clear, disable or enable, resume. -/
def writeChannel (s : State) (n val : Nat) : State :=
  let s1 := if bitOf val 2 then clearChannel s n else s
  let s2 := if bitOf val 0 then disableChannel s1 n else enableChannel s1 n
  if bitOf val 1 then resumeChannel s2 n else s2

end Sys2Proof.Machine
end

