-- ==== Sys2Proof/Machine/Net.lean ====
section
/-! DEFINITION. Ethernet ports and RoCE (R446 to R459): links, queue pairs, the NET commands, and what arrives from the wire. -/

namespace Sys2Proof.Machine

/-! ### Links and queue pairs -/

def linkOf (s : State) (n : Nat) : Link := s.net.links.getD n noLink

def setLink (s : State) (n : Nat) (f : Link → Link) : State := { s with net := { s.net with links := modifyAt n f s.net.links } }

def setPort (s : State) (n : Nat) (f : Port → Port) : State := { s with net := { s.net with ports := modifyAt n f s.net.ports } }

def setQp (s : State) (n : Nat) (f : Qp → Qp) : State :=
  { s with net := { s.net with qps := s.net.qps.map fun (i, x) => if i = n then (i, f x) else (i, x) } }

def sendWire (s : State) (w : Wire) : State := { s with net := { s.net with wire := s.net.wire ++ [w] } }

/-- A port's mode: 0 down, 1 one link, 2 two links (Table 20-1). -/
def portMode (P : Port) : Nat := fld P.cfg 0 2

/-- Whether a link exists in its port's mode (R446). -/
def linkInMode (s : State) (n : Nat) : Bool :=
  let m := portMode (portOf s (n / 2))
  decide (n < 8) && ((m == 1 && n % 2 == 0) || m == 2)

/-- Whether a link requires MACsec (R453). -/
def linkMacsec (s : State) (n : Nat) : Bool := bitOf (portOf s (n / 2)).cfg (16 + n % 2)

/-- Whether a link carries RoCE packets now: it is up, a required secure association is installed, and PFC does not pause
its priority (R447, R453). DEDUCED, log entries 63 and 151. -/
def carries (s : State) (n : Nat) : Bool :=
  (linkOf s n).up && (!linkMacsec s n || (linkOf s n).sa.isSome) && !(portOf s (n / 2)).paused

def qpReadyIn (s : State) (p n : Nat) : Bool :=
  match qpOf s n with | some x => x.part == p && x.st == .ready | none => false

/-- Path MTU of a link (Table 20-1). -/
def linkMtu (s : State) (n : Nat) : Nat := 1024 * 2 ^ fld (portOf s (n / 2)).cfg 12 2

def packetsOf (s : State) (link bytes : Nat) : Nat := max 1 (ceilDiv bytes (linkMtu s link))

/-- The commands that execute on a queue pair, or whose barrier waits on it. -/
def qpUsers (s : State) (n : Nat) : List Nat :=
  (match qpOf s n with | some x => x.sends ++ x.recvs | none => [])
    ++ s.parts.flatMap fun P => (P.barriers.filter fun b => b.qps.contains n).map (·.q)

/-- A command ends with a status, or with the result that an abort has fixed already. -/
def endNet (s : State) (q : Nat) (f : Fail) : State :=
  let Q := queueOf s q
  match Q.cmd with
  | none => s
  | some c => match c.ending with
    | some r => setResult s q r
    | none => if Q.result.isSome then s else endEarly s q Q.cfg.part f c.outs 0

/-- A queue pair enters ERROR (R451): the commands on it end with the status of the cause. -/
def qpError (s : State) (n : Nat) (st : Status) : State :=
  let s1 := (qpUsers s n).eraseDups.foldl (fun x q => endNet x q (failAt st 0 0)) s
  setQp s1 n fun x => { x with st := .error, cause := st, sends := [], recvs := [] }

/-! ### Queue pairs by register (R450) -/

def ctxTimeout (c : Nat) : Nat := fld c 398 5
def ctxRetry (c : Nat) : Nat := fld c 403 3
def ctxWrite (c : Nat) : Bool := bitOf c 406
def ctxRead (c : Nat) : Bool := bitOf c 407
def ctxWin (c : Nat) : Nat := fld c 416 48
def ctxWinLen (c : Nat) : Nat := fld c 464 48

/-- The context in a function's staging words. -/
def stagedCtx (F : Function) : Nat := F.qpCtx.foldr (fun w acc => w + 2 ^ 64 * acc) 0

/-- Why a context is refused. -/
def ctxRefused (s : State) (p ctx : Nat) : Option Status :=
  if fld ctx 4 100 ≠ 0 ∨ fld ctx 256 56 ≠ 0 ∨ fld ctx 408 8 ≠ 0 ∨ ctxTimeout ctx = 0
      ∨ 20 < ctxTimeout ctx ∨ ctxWin ctx % 64 ≠ 0 ∨ (linkOf s (fld ctx 0 3)).up = false
      ∨ (ctxWinLen ctx ≠ 0 ∧ (2 ^ 48 < ctxWin ctx + ctxWinLen ctx
        ∨ plotsOk (partOf s p) (ctxWin ctx / plotBytes) ((ctxWin ctx + ctxWinLen ctx - 1) / plotBytes) (fun _ => true) = false)) then
    some .loadBadShape
  else none

def newQp (p ctx key : Nat) : Qp :=
  { part := p, st := .ready, cause := .completed, ctx := ctx, key := key, sqPsn := fld ctx 344 24, rqPsn := fld ctx 368 24, tries := 0, unacked := false,
    sends := [], recvs := [] }

def setQpResult (s : State) (fn st n key : Nat) : State :=
  setFn s fn fun F => { F with qpResult := putFld st 0 16 + putFld n 16 12 + putFld key 32 32 }

/-- Create a queue pair from a function's staging words; the local key is a free value. -/
def qpCreate (s : State) (fn p : Nat) : State :=
  let ctx := stagedCtx (fnOf s fn)
  match ctxRefused s p ctx, lowestFree (s.net.qps.map (·.1)) 4096 with
  | some st, _ => setQpResult s fn (statusCode st) 0 0
  | none, none => setQpResult s fn (statusCode .loadBadShape) 0 0
  | none, some n =>
    let (k, s1) := takeFree s 1
    let key := (Config.freeWord k).toNat
    setQpResult { s1 with net := { s1.net with qps := insertKey n (newQp p ctx key) s1.net.qps } } fn 0 n key

/-- Whether a command of the partition names a queue pair. -/
def qpNamed (s : State) (n : Nat) : Bool :=
  !(qpUsers s n).isEmpty || s.queues.any fun Q => Q.cfg.kind == 4 && (match Q.cmd with
    | some c => [0x400, 0x401, 0x403].contains (hOpcode c.hdr) && fld c.body 64 12 == n
    | none => false)

/-- Destroy a queue pair of the partition. -/
def qpDestroy (s : State) (fn p n : Nat) : State :=
  match qpOf s n with
  | some x => if x.part = p ∧ qpNamed s n = false then
      setQpResult { s with net := { s.net with qps := eraseKey n s.net.qps } } fn 0 n 0
    else setQpResult s fn (statusCode .loadBadShape) n 0
  | none => setQpResult s fn (statusCode .loadBadShape) n 0

/-- Return a queue pair from ERROR to READY with the sequence numbers of the staging words. -/
def qpReset (s : State) (fn p n : Nat) : State :=
  match qpOf s n with
  | some x =>
    if x.part = p ∧ x.st = .error ∧ qpNamed s n = false then
      let ctx := stagedCtx (fnOf s fn)
      setQpResult (setQp s n fun y => { y with st := .ready, tries := 0, sqPsn := fld ctx 344 24, rqPsn := fld ctx 368 24 }) fn 0 n x.key
    else setQpResult s fn (statusCode .loadBadShape) n 0
  | none => setQpResult s fn (statusCode .loadBadShape) n 0

/-! ### Order (Table 17-5) -/

/-- Whether an LC queue's NET command stands in CHECK before queue `q`'s BE command. -/
def lcNetFirst (s : State) (q : Nat) : Bool :=
  let Q := queueOf s q
  Q.cfg.be && s.queues.any fun R => R.cfg.kind == 4 && R.cfg.part == Q.cfg.part && !R.cfg.be && R.state == .check && R.result.isNone
    && !(pciFn s R.cfg.owner).d3hot && (match R.cmd with
      | some d => !headerTransit s R.cfg.part d && !anyTransit s (streamNames (hOpcode d.hdr) d)
      | none => false)

/-- A NET command begins unless an LC one comes first (R411). -/
def netCommand (s : State) (q op : Nat) (checks : State → Queue → Cmd → List (Bool × Fail)) (effect : State → Queue → Cmd → State) : State :=
  if lcNetFirst s q then s else runCommand s q op checks effect

/-! ### NET_SEND (R455, Table 20-6) -/

def nsQp (b : Nat) : Nat := fld b 64 12
def nsOp (b : Nat) : Nat := fld b 80 2
def nsLen (b : Nat) : Nat := fld b 352 32
def nsRemote (b : Nat) : Nat := fld b 416 64
def nsImm (b : Nat) : Nat := fld b 480 32

/-- A command's estimate in us: its bytes at its link's rate. -/
def netEstimate (s : State) (qp bytes : Nat) : Nat :=
  match qpOf s qp with | some x => ceilDiv (ceilDiv bytes (linkRate s (qpLink x))) 1000 | none => 0

def checksNetSend (s : State) (Q : Queue) (c : Cmd) : List (Bool × Fail) :=
  let p := Q.cfg.part
  let b := c.body
  let bad (x : Bool) (lo : Nat) : Bool × Fail := (x, atBit .loadBadShape lo)
  reservedBody b [(48, 16), (76, 4), (82, 270), (384, 32)] ++ streamCheck s (partOf s p) c.hdr false
    ++ [bad (!qpReadyIn s p (nsQp b)) 64, bad (nsOp b == 3) 80, bad (nsLen b == 0 || decide (2 ^ 31 < nsLen b)) 352,
        readCheck s p b 0 (nsLen b), beCheck s Q (netEstimate s (nsQp b) (nsLen b))]

/-- A message leaves on a queue pair: bytes and packets are counted, and queue `q` waits for its acknowledgement. A WRITE's
bytes reach the peer's memory. -/
def sendOn (s : State) (q n : Nat) (remote : Option Nat) (w : Wire) (bs : List Byte) : State :=
  match qpOf s n with
  | none => s
  | some x =>
    let link := qpLink x
    let s1 := setQp s n fun y => { y with sends := y.sends ++ [q], sqPsn := (y.sqPsn + packetsOf s link bs.length) % 2 ^ 24 }
    if carries s link then
      let s2 := setLink (sendWire s1 w) link fun l => { l with txBytes := satAdd 48 l.txBytes bs.length }
      (match remote with
        | some a => { s2 with mem := { s2.mem with remote := memWrite s2.mem.remote (remoteKey n a) bs } }
        | none => s2)
    else s1

/-- The message of a NET_SEND. -/
def sendMessage (b : Nat) (bs : List Byte) : Wire :=
  if nsOp b = 0 then .send (nsQp b) 0 bs
  else .write (nsQp b) (nsRemote b) (if nsOp b = 2 then some (nsImm b) else none) bs

/-- NET_SEND once the positions that it reads are ready. -/
def computeNetSend (s : State) (q : Nat) : State :=
  let Q := queueOf s q
  match Q.cmd with
  | none => s
  | some c =>
    let b := c.body
    match loadBytes s Q.cfg.part (fld b 0 48) (nsLen b) with
    | .error f => endEarly s q Q.cfg.part f [] 0
    | .ok bs => sendOn s q (nsQp b) (if nsOp b = 0 then none else some (nsRemote b)) (sendMessage b bs) bs

def startNetSend (s : State) (q : Nat) (Q : Queue) (c : Cmd) : State :=
  gated s q Q.cfg.part [(fld c.body 0 48, nsLen c.body)] fun st => computeNetSend st q

def execNetSend (q : Nat) (s : State) : Host.Outcome State Fault Refusal :=
  .next (netCommand s q 0x400 checksNetSend fun x => startNetSend x q)

/-! ### NET_RECV (R455) -/

def nrLen (b : Nat) : Nat := fld b 128 32

def checksNetRecv (s : State) (Q : Queue) (c : Cmd) : List (Bool × Fail) :=
  let p := Q.cfg.part
  let b := c.body
  reservedBody b [(48, 16), (76, 52), (160, 352)] ++ streamCheck s (partOf s p) c.hdr false
    ++ [(!qpReadyIn s p (nsQp b), atBit .loadBadShape 64), (decide (2 ^ 31 < nrLen b), atBit .loadBadShape 128),
        writeCheck s p b 0 (nrLen b), beCheck s Q (netEstimate s (nsQp b) (nrLen b))]

/-- NET_RECV's effect: its buffer is posted. -/
def effectNetRecv (s : State) (q : Nat) (_ : Queue) (c : Cmd) : State :=
  setQp (setCmd s q fun x => { x with outs := [(fld c.body 0 48, nrLen c.body)] }) (nsQp c.body) fun x => { x with recvs := x.recvs ++ [q] }

def execNetRecv (q : Nat) (s : State) : Host.Outcome State Fault Refusal :=
  .next (netCommand s q 0x401 checksNetRecv fun x => effectNetRecv x q)

/-! ### NET_BARRIER (R456, R458) -/

def nbCount (b : Nat) : Nat := fld b 64 8
def nbIdent (b : Nat) : Nat := fld b 80 16
def nbEpoch (b : Nat) : Nat := fld b 96 64

/-- The list of INT16 queue pairs. -/
def readQps (s : State) (p b : Nat) : Except Fail (Option (List Nat)) :=
  let va := fld b 0 48
  if va % 2 ≠ 0 ∨ mappedRead s p va (2 * nbCount b) = false then .ok none
  else match loadBytes s p va (2 * nbCount b) with
    | .error f => .error f
    | .ok bs => .ok (some ((piecesOf 2 (nbCount b + 1) bs).map ofLe))

def checksNetBarrier (s : State) (Q : Queue) (c : Cmd) : List (Bool × Fail) :=
  let p := Q.cfg.part
  let b := c.body
  let list := readQps s p b
  let qps := match list with | .ok (some xs) => xs | _ => []
  reservedBody b [(48, 16), (72, 8), (160, 352)] ++ [readFailed list] ++ streamCheck s (partOf s p) c.hdr false
    ++ perEntry qps (fun i x => (!qpReadyIn s p x || (qps.take i).contains x, inStruct .loadBadShape 0 (2 * i)))
    ++ [(nbCount b == 0, atBit .loadBadShape 64), (fld b 0 48 % 2 != 0, atBit .loadAlign 0), readCheck s p b 0 (2 * nbCount b)]

/-- The immediate of a barrier's token. -/
def tokenImm (ident : Nat) : Nat := 0xB0000000 + ident

/-- Send the tokens of a barrier; a token consumes no receive. -/
def sendTokens (s : State) (ident epoch : Nat) (qps : List Nat) : State :=
  qps.foldl (fun x n => match qpOf x n with
    | none => x
    | some y =>
      let x1 := setQp x n fun z => { z with sqPsn := (z.sqPsn + 1) % 2 ^ 24 }
      if carries x (qpLink y) then
        setLink (sendWire x1 (.token n (tokenImm ident) epoch)) (qpLink y) fun l => { l with txBytes := satAdd 48 l.txBytes 8 }
      else x1) s

/-- Whether a held token is one that a barrier waits for. -/
def tokenFits (b : Barrier) (t : Token) : Bool := t.tag == b.ident && t.epoch == b.epoch && b.qps.contains t.qp

/-- A barrier completes when every listed queue pair has given its token (R456): its result and the counts of R458. -/
def finishBarrier (s : State) (p : Nat) (b : Barrier) : State :=
  if b.arrived.length < b.qps.length then s
  else
    let ns := b.last - b.sent
    let s1 := setPart s p fun P => { P with
      barriers := P.barriers.filter (·.q != b.q)
      barrierEpochs := insertKey b.ident (max b.epoch ((lookupKey b.ident P.barrierEpochs).getD 0)) P.barrierEpochs
      counts := { P.counts with
        netBarriers := satAdd 48 P.counts.netBarriers 1
        barrierWaitNs := satAdd 48 P.counts.barrierWaitNs ns
        barrierLast := if b.paced then satAdd 32 P.counts.barrierLast 1 else P.counts.barrierLast } }
    setResult s1 b.q ⟨.completed, min ns (2 ^ 32 - 1), b.arrived.getLastD 0, b.qps.length⟩

/-- NET_BARRIER's effect: its tokens are sent, and tokens held for it are taken. -/
def effectNetBarrier (s : State) (q : Nat) (Q : Queue) (c : Cmd) : State :=
  let p := Q.cfg.part
  let b := c.body
  match readQps s p b with
  | .ok (some qps) =>
    let b0 : Barrier := { q := q, ident := nbIdent b, epoch := nbEpoch b, qps := qps, sent := s.now, arrived := [], last := s.now, paced := false }
    let mine := ((partOf s p).barrierTokens.filter (tokenFits b0)).map (·.qp) |>.eraseDups
    let b1 := { b0 with arrived := mine.map fun n => qps.idxOf n, paced := mine.length == qps.length }
    let s1 := setPart (sendTokens s (nbIdent b) (nbEpoch b) qps) p fun P => { P with
      barriers := P.barriers ++ [b1], barrierTokens := P.barrierTokens.filter fun t => !tokenFits b0 t }
    finishBarrier s1 p b1
  | _ => s

def execNetBarrier (q : Nat) (s : State) : Host.Outcome State Fault Refusal :=
  .next (netCommand s q 0x402 checksNetBarrier fun x => effectNetBarrier x q)

/-! ### NET_MIGRATE (R457) -/

def nmSlot (b : Nat) : Nat := fld b 80 8
def nmWithKv (b : Nat) : Bool := bitOf b 88
def nmLen (b : Nat) : Nat := fld b 128 32

def nmNeed (s : State) (c : Cmd) : Nat :=
  match streamOf s (hStreamId c.hdr) with | some st => blobLength (blobBody s st (nmWithKv c.body)) | none => 0

def checksNetMigrate (s : State) (Q : Queue) (c : Cmd) : List (Bool × Fail) :=
  let p := Q.cfg.part
  let b := c.body
  let ready := match streamOf s (hStreamId c.hdr) with | some st => st.st == .resident || st.st == .parked | none => false
  reservedBody b [(76, 4), (89, 39), (160, 352)] ++ streamCheck s (partOf s p) c.hdr true
    ++ [(!ready, failAt .loadBadStream 28 0), (!qpReadyIn s p (nsQp b), atBit .loadBadShape 64), (decide (15 < nmSlot b), atBit .loadBadShape 80),
        (decide (nmLen b < nmNeed s c), atBit .loadBadShape 128), beCheck s Q (netEstimate s (nsQp b) (nmNeed s c))]

/-- NET_MIGRATE's effect: the blob is sealed and written to the peer; the command then waits for the acknowledgement. -/
def effectNetMigrate (s : State) (q : Nat) (c : Cmd) : State :=
  let b := c.body
  let id := hStreamId c.hdr
  if sendStarted s q then s
  else match streamOf s id with
    | none => failCmd s q (failAt .streamBadState 0 0)
    | some st => match exportRefused st c.key with
      | some f => failCmd s q f
      | none => match sealStream (useImage s st) id st (c.key.getD 0) (nmWithKv b) with
        | .error f => failCmd (loseImage (useImage s st) id f) q f
        | .ok (bs, s1) => sendOn s1 q (nsQp b) (some (fld b 0 64)) (.write (nsQp b) (fld b 0 64) (some id) bs) bs

def execNetMigrate (q : Nat) (s : State) : Host.Outcome State Fault Refusal :=
  .next (if (queueOf s q).state == .check && lcNetFirst s q then s
    else streamEvent s q 0x403 false checksNetMigrate (fun x y c => takeKey x y (nmSlot c.body)) effectNetMigrate)

/-! ### Answers from the peer -/

/-- The command whose message the peer has acknowledged completes: NET_MIGRATE's stream then leaves the device (R245, R457). -/
def ackCmd (s : State) (q : Nat) : State :=
  let Q := queueOf s q
  match Q.cmd with
  | none => s
  | some c => match c.ending with
    | some r => setResult s q r
    | none =>
      let done (x : State) : State := setResult x q ⟨.completed, 0, 0, 1⟩
      if hOpcode c.hdr = 0x403 then done (exported s (hStreamId c.hdr) 0 (nmNeed s c) false) else done s

/-- ACK_RECEIVED (R455): the oldest message of a queue pair is acknowledged. -/
def ackReceived (s : State) (n : Nat) : State :=
  match qpOf s n with
  | none => s
  | some x => match x.st, x.sends with
    | .ready, q :: rest => ackCmd (setQp s n fun y => { y with sends := rest, tries := 0 }) q
    | _, _ => s

def execAckReceived (n : Nat) (s : State) : Host.Outcome State Fault Refusal := .next (ackReceived s n)

/-- NAK_RECEIVED (R451): a remote access error or an invalid request. -/
def nakReceived (s : State) (n : Nat) : State :=
  match qpOf s n with
  | some x => if x.st = .ready then qpError s n .memRemoteRefused else s
  | none => s

def execNakReceived (n : Nat) (s : State) : Host.Outcome State Fault Refusal := .next (nakReceived s n)

/-- ACK_TIMEOUT (R451): the packets are sent again until the retries run out. -/
def ackTimeout (s : State) (n : Nat) : State :=
  match qpOf s n with
  | none => s
  | some x =>
    if x.st ≠ .ready ∨ x.sends = [] then s
    else if x.tries < ctxRetry x.ctx then
      setLink (setQp s n fun y => { y with tries := y.tries + 1 }) (qpLink x) fun l => { l with retransmits := satAdd 32 l.retransmits 1 }
    else qpError s n .memFarTimeout

def execAckTimeout (n : Nat) (s : State) : Host.Outcome State Fault Refusal := .next (ackTimeout s n)

/-! ### Inbound requests (R452, R455, R456) -/

/-- The queue number under which writes that no command makes enter the write-combining buffer. -/
def noQueueIndex : Nat := 256

def dropPacket (s : State) (link : Nat) : State := setLink s link fun l => { l with rxDrop := satAdd 32 l.rxDrop 1 }

/-- A packet for a queue pair is taken when the pair is READY and its link carries RoCE; for an ERROR pair it is dropped and
counted (Table 20-5). On a link that requires MACsec and has no secure association it is an unprotected frame (R453). -/
def inbound (s : State) (n : Nat) (act : Qp → State → State) : State :=
  match qpOf s n with
  | none => s
  | some x =>
    if !(linkOf s (qpLink x)).up then s
    else if linkMacsec s (qpLink x) && (linkOf s (qpLink x)).sa.isNone then
      setLink s (qpLink x) fun l => { l with macsecDrop := satAdd 32 l.macsecDrop 1 }
    else if x.st = .ready then act x s
    else dropPacket s (qpLink x)

/-- Count received bytes and packets. -/
def received (s : State) (n : Nat) (x : Qp) (bytes : Nat) : State :=
  setLink (setQp s n fun y => { y with rqPsn := (y.rqPsn + packetsOf s (qpLink x) bytes) % 2 ^ 24 }) (qpLink x)
    fun l => { l with rxBytes := satAdd 48 l.rxBytes bytes }

/-- R452: whether an inbound access is within the window under the right key. -/
def windowGrants (x : Qp) (key addr len : Nat) (write : Bool) : Bool :=
  key == x.key && (if write then ctxWrite x.ctx else ctxRead x.ctx) && decide (ctxWin x.ctx ≤ addr)
    && decide (addr + len ≤ ctxWin x.ctx + ctxWinLen x.ctx)

/-- An inbound request that is refused is answered with a NAK, and the queue pair enters ERROR (R451). -/
def refuseInbound (s : State) (n : Nat) : State := qpError (sendWire s (.nak n)) n .memRemoteRefused

/-- Inbound bytes go where the partition's plots let a command write, and come from where they let one read (R452). -/
def inboundStore (s : State) (p addr : Nat) (bs : List Byte) : Except Fail State :=
  if mappedWrite s p addr bs.length then storeOnce s p noQueueIndex addr bs else .error (failAt .memUnmapped 0 0)
def inboundLoad (s : State) (p addr len : Nat) : Except Fail (List Byte) :=
  if mappedRead s p addr len then loadBytes s p addr len else .error (failAt .memUnmapped 0 0)

/-- Place inbound bytes, or refuse the request. DEDUCED, log entry 60. -/
def placeInbound (s : State) (n : Nat) (x : Qp) (addr : Nat) (bs : List Byte) (ok : State → State) : State :=
  match inboundStore s x.part addr bs with
  | .ok s1 => ok s1
  | .error _ => refuseInbound s n

/-- RDMA_WRITE_INBOUND (R452). -/
def rdmaWriteInbound (s : State) (n key addr : Nat) (bs : List Byte) : State :=
  inbound s n fun x s =>
    if windowGrants x key addr bs.length true then
      placeInbound (received s n x bs.length) n x addr bs fun s1 => sendWire s1 (.ack n)
    else refuseInbound s n

def execRdmaWriteInbound (n key addr : Nat) (bs : List Byte) (s : State) : Host.Outcome State Fault Refusal :=
  .next (rdmaWriteInbound s n key addr bs)

/-- RDMA_READ_INBOUND (R452). -/
def rdmaReadInbound (s : State) (n key addr len : Nat) : State :=
  inbound s n fun x s =>
    if windowGrants x key addr len false then
      (match inboundLoad s x.part addr len with
        | .ok bs => setLink (sendWire (useReads s x.part [(addr, len)]) (.readReply n bs)) (qpLink x) fun l => { l with txBytes := satAdd 48 l.txBytes len }
        | .error _ => refuseInbound s n)
    else refuseInbound s n

def execRdmaReadInbound (n key addr len : Nat) (s : State) : Host.Outcome State Fault Refusal := .next (rdmaReadInbound s n key addr len)

/-- The posted receives of a queue pair, oldest first: one whose command has ended otherwise takes no message. -/
def postedRecvs (s : State) (x : Qp) : List Nat := x.recvs.filter fun q => (queueOf s q).result.isNone

/-- The oldest posted receive is consumed with the bytes placed and the immediate (R455). -/
def consumeRecv (s : State) (n bytes imm : Nat) : State :=
  match qpOf s n with
  | some x => match postedRecvs s x with
    | q :: _ => setResult (setQp s n fun y => { y with recvs := y.recvs.filter (· != q) }) q ⟨.completed, bytes, imm, 1⟩
    | [] => s
  | none => s

/-- SEND_INBOUND (R455): a message is placed in the next posted receive; RNR NAK without one. -/
def sendInbound (s : State) (n : Nat) (bs : List Byte) : State :=
  inbound s n fun x s => match postedRecvs s x with
    | [] => sendWire s (.rnrNak n)
    | q :: _ =>
      let b := match (queueOf s q).cmd with | some c => c.body | none => 0
      if nrLen b < bs.length then refuseInbound s n
      else placeInbound (received s n x bs.length) n x (fld b 0 48) bs fun s1 => consumeRecv (sendWire s1 (.ack n)) n bs.length 0

def execSendInbound (n : Nat) (bs : List Byte) (s : State) : Host.Outcome State Fault Refusal := .next (sendInbound s n bs)

/-- WRITE_IMM_INBOUND (R455): data placed under R452, and a posted receive consumed. -/
def writeImmInbound (s : State) (n key addr imm : Nat) (bs : List Byte) : State :=
  inbound s n fun x s =>
    if !windowGrants x key addr bs.length true then refuseInbound s n
    else if (postedRecvs s x).isEmpty then sendWire s (.rnrNak n)
    else placeInbound (received s n x bs.length) n x addr bs fun s1 => consumeRecv (sendWire s1 (.ack n)) n bs.length imm

def execWriteImmInbound (n key addr imm : Nat) (bs : List Byte) (s : State) : Host.Outcome State Fault Refusal :=
  .next (writeImmInbound s n key addr imm bs)

/-- An executing barrier takes a token of one of its queue pairs. -/
def tokenTo (now n : Nat) (b : Barrier) : Barrier := { b with arrived := b.arrived ++ [b.qps.idxOf n], last := now }

/-- BARRIER_TOKEN_INBOUND (R456): a token is matched, held, dropped as stale, or answered with RNR NAK; a SEND with another immediate is
not supported (R449). -/
def barrierToken (s : State) (n imm epoch : Nat) : State :=
  inbound s n fun x s =>
    if imm / 2 ^ 16 ≠ 0xB000 then dropPacket s (qpLink x) else
    let ident := imm - 0xB0000000
    let P := partOf s x.part
    let s1 := received s n x 8
    let t : Token := { qp := n, tag := ident, epoch := epoch }
    match P.barriers.find? fun b => (queueOf s b.q).result.isNone && tokenFits b t && !b.arrived.contains (b.qps.idxOf n) with
    | some b =>
      let b1 := tokenTo s.now n b
      finishBarrier (setPart (sendWire s1 (.ack n)) x.part fun X => { X with barriers := X.barriers.map fun y => if y.q == b.q then b1 else y }) x.part b1
    | none =>
      if (match lookupKey ident P.barrierEpochs with | some e => decide (epoch < e) | none => false) then dropPacket s (qpLink x)
      else if 4096 ≤ P.barrierTokens.length then sendWire s (.rnrNak n)
      else setPart (sendWire s1 (.ack n)) x.part fun X => { X with barrierTokens := X.barrierTokens ++ [t] }

def execBarrierTokenInbound (n imm epoch : Nat) (s : State) : Host.Outcome State Fault Refusal := .next (barrierToken s n imm epoch)

/-! ### Links -/

/-- ETH_LINK_UP (R447, R535): a link of a port's mode completes training; PTP begins on link 2p. -/
def ethLinkUp (s : State) (n : Nat) : State :=
  if !linkInMode s n || (linkOf s n).up then s
  else
    let s1 := setLink s n fun l => { l with up := true, sa := none }
    if n % 2 = 0 then setPort s1 (n / 2) fun P => { P with sync := false, good := 0 } else s1

def execEthLinkUp (n : Nat) (s : State) : Host.Outcome State Fault Refusal := .next (ethLinkUp s n)

/-- Queue pairs of a link. -/
def qpsOn (s : State) (n : Nat) : List Nat := (s.net.qps.filter fun (_, x) => qpLink x == n).map (·.1)

/-- A link goes down: its READY queue pairs enter ERROR with FAULT_LINK (R451). -/
def linkDown (s : State) (n : Nat) : State :=
  if !(linkOf s n).up then s
  else
    let s1 := (qpsOn s n).foldl (fun x i => match qpOf x i with
      | some y => if y.st = .ready then qpError x i .faultLink else x
      | none => x) s
    let s2 := setLink s1 n fun l => { l with up := false, sa := none }
    if n % 2 = 0 then setPort s2 (n / 2) fun P => { P with sync := false, good := 0 } else s2

/-- ETH_LINK_DOWN (R451). -/
def execEthLinkDown (n : Nat) (s : State) : Host.Outcome State Fault Refusal := .next (linkDown s n)

/-- UNSUPPORTED_PACKET_DROP (R449). -/
def execUnsupportedPacketDrop (n : Nat) (s : State) : Host.Outcome State Fault Refusal :=
  .next (if (linkOf s n).up then dropPacket s n else s)

/-- MACSEC_VERIFY_FAIL (R453): a frame that fails verification, or an unprotected one, on a link that requires MACsec. -/
def execMacsecVerifyFail (n : Nat) (s : State) : Host.Outcome State Fault Refusal :=
  .next (if (linkOf s n).up && linkMacsec s n then
      setLink (noteInjected s 0x1C n) n fun l => { l with macsecDrop := satAdd 32 l.macsecDrop 1 } else s)

/-- CONGESTION_NOTIFICATION (R449, Table 20-8). -/
def execCongestionNotification (n : Nat) (s : State) : Host.Outcome State Fault Refusal :=
  .next (if (linkOf s n).up then setLink s n fun l => { l with cnpRx := satAdd 32 l.cnpRx 1 } else s)

/-- PRIORITY_FLOW_CONTROL (R447): a PFC frame pauses or resumes the port's priority while pfc is set. -/
def execPriorityFlowControl (port : Nat) (pause : Bool) (s : State) : Host.Outcome State Fault Refusal :=
  .next (if bitOf (portOf s port).cfg 20 then setPort s port fun P => { P with paused := pause } else s)

/-- MKA_FRAME (R453): a frame that verifies under the link's connectivity key installs or rolls its secure association. -/
def execMkaFrame (n : Nat) (valid : Bool) (sak : Nat) (s : State) : Host.Outcome State Fault Refusal :=
  .next (if valid && (linkOf s n).up && linkMacsec s n && (linkOf s n).cak.isSome then setLink s n fun l => { l with sa := some sak } else s)

/-- PTP_SYNC_MESSAGE (R454): the offset of a Sync message. The servo's adjustment of the port's clock is a free value.
DESIGN CHOICE, log entry 61. -/
def ptpSync (s : State) (port : Nat) (offset : Int) : State :=
  if !(linkOf s (2 * port)).up then s
  else
    let (k, s1) := takeFree s 1
    let near := decide (offset.natAbs ≤ 250)
    setPort s1 port fun P =>
      let good := if near then P.good + 1 else 0
      { P with
        offset := offset
        good := good
        sync := if 1000 < offset.natAbs then false else P.sync || decide (16 ≤ good)
        clock := P.clock + signed 32 (Config.freeWord k).toNat }

def execPtpSyncMessage (port : Nat) (offset : Int) (s : State) : Host.Outcome State Fault Refusal := .next (ptpSync s port offset)

/-- ANNOUNCE_TIMEOUT (R454): no Announce for three intervals. -/
def execAnnounceTimeout (port : Nat) (s : State) : Host.Outcome State Fault Refusal :=
  .next (setPort s port fun P => { P with sync := false, good := 0 })

end Sys2Proof.Machine
end

