-- ==== Sys2Proof/Machine/WindowFence.lean ====
section
/-! DEFINITION. The window fence (R321): a reader that waited starts once every position it reads is READY. -/

namespace Sys2Proof.Machine

/-- A command whose window positions are ready goes on. -/
def computeOf (s : State) (q op : Nat) : State :=
  if op = 0x100 then computeMxGemm s q
  else if op = 0x101 then computeConv2d s q
  else if op = 0x102 then computePool s q
  else if op = 0x111 then computeRecurCell s q
  else if op = 0x110 then computeScanLinear s q
  else if op = 0x120 then computeAttend s q
  else if op = 0x130 then computeEltwise s q
  else if op = 0x131 then computeNormRow s q
  else if op = 0x132 then softmaxReads s q
  else if op = 0x140 then computeSample s q
  else if op = 0x200 ∨ op = 0x201 then computeDrill s q
  else if op = 0x220 then computeWindowFill s q
  else if op = 0x305 then computeStreamImport s q
  else if op = 0x400 then computeNetSend s q
  else s

/-- WINDOW_FENCE_RELEASE (R321): a waiting reader starts once every position it reads is READY, or ends as the fill did. A command
that has passed the fence waits for pages that others read (R270), and tries again; its wait is no window stall. -/
def windowFenceRelease (s : State) (q : Nat) : State :=
  let Q := queueOf s q
  let p := Q.cfg.part
  match Q.cmd, Q.result with
  | some c, none => match c.waiting with
    | none => s
    | some since =>
      let needs := c.windows.map fun (w, i) => w * 4096 + i
      let ns := s.now - since
      match windowFailure (partOf s p) needs with
      | some f => endEarly (setCmd (if passedFence s p q c then s else stallTime s p ns) q fun x => { x with waiting := none }) q p f [] 0
      | none =>
        if passedFence s p q c then computeOf (setCmd s q fun x => { x with waiting := none }) q (hOpcode c.hdr)
        else if !windowReady (partOf s p) needs then s
        else
          let s1 := setCmd (stallTime s p ns) q fun x => { x with waiting := none, stall := some ns }
          afterReads (setReaders s1 p q needs true) q p c.reads fun x => computeOf x q (hOpcode c.hdr)
  | _, _ => s

def execWindowFenceRelease (q : Nat) (s : State) : Host.Outcome State Fault Refusal := .next (windowFenceRelease s q)


end Sys2Proof.Machine
end

