-- ==== Sys2Proof/Machine/Registers.lean ====
section
/-! DEFINITION. The register window (chapters 16 and 27): the registers of every page with their present values, the pages
of the register shadow (R375 to R379) and what a read of an aligned word returns (R374, R376, R536). -/

namespace Sys2Proof.Machine

/-- A register of a page: its offset, its width in bits and its value (R557). -/
structure Reg where
  off : Nat
  width : Nat
  val : Nat
  deriving DecidableEq, Repr

/-- A row of registers at a stride. -/
def regRow (off stride width n : Nat) (val : Nat → Nat) : List Reg := (List.range n).map fun i => ⟨off + stride * i, width, val i⟩

/-- Bytes of a register's slot: 4 up to 32 bits, else whole words (R557). -/
def slotBytes (r : Reg) : Nat := if r.width ≤ 32 then 4 else ceilDiv r.width 64 * 8

/-- What a register shows in the aligned 8-byte word at an offset. -/
def regPart (r : Reg) (w : Nat) : Nat :=
  let v := r.val % 2 ^ r.width
  if r.off < w then v / 2 ^ (8 * (w - r.off)) % 2 ^ 64 else v * 2 ^ (8 * (r.off - w)) % 2 ^ 64

/-- Whether a register has bytes in the word at an offset. -/
def inWord (r : Reg) (w : Nat) : Bool := decide (r.off < w + 8) && decide (w < r.off + slotBytes r)

/-- The word of a page at an offset. -/
def wordOf (rs : List Reg) (w : Nat) : Nat := ((rs.filter fun r => inWord r w).map fun r => regPart r w).foldl (· + ·) 0

/-- The words of a page that hold registers, ascending by register. -/
def pageWords (rs : List Reg) : List (Nat × Nat) :=
  ((rs.flatMap fun r => (List.range (max 1 (slotBytes r / 8))).map fun i => r.off / 8 * 8 + 8 * i).eraseDups).map fun w => (w, wordOf rs w)

def bit (b : Bool) (i : Nat) : Nat := if b then 2 ^ i else 0

/-! ### What a function sees (R373, R560) -/

/-- The configured partition whose range holds a queue. -/
def queuePart (s : State) (q : Nat) : Option Nat :=
  (List.range 4).find? fun p =>
    let P := partOf s p
    P.configured && decide (P.cfg.firstQueue ≤ q) && decide (q < P.cfg.firstQueue + P.cfg.queues)

/-- The physical function sees every queue; a virtual function those of its partition. -/
def seesQueue (s : State) (fn q : Nat) : Bool := fn == 0 || (match queuePart s q with | some p => fnPart s fn == some p | none => false)

/-! ### Page 0 -/

/-- SHD_STATUS (Table 16-2). -/
def shdStatus (s : State) (fn : Nat) : Nat :=
  putFld ((fnPart s fn).getD 0) 10 2 + bit (fn == 0) 9 + bit (fnOf s fn).trapOvf 8 + bit s.boot.testMode 4 + bit s.boot.profile.isSome 3
    + bit s.boot.handoff 2 + bit s.boot.fwAlive 1 + bit s.boot.fwReady 0

/-- SHD_PCIE_LINK (Table 19-4). -/
def pcieLink (s : State) : Nat :=
  let p := s.pcie
  let sel := ((List.range 4).map fun i => bit ((p.ide.getD (i + 1) noIde).secure) (33 + i)).foldl (· + ·) 0
  sel + bit (p.ide.getD 0 noIde).secure 32 + putFld p.width 16 5 + bit p.flit 12 + putFld p.speed 8 4 + bit p.linkUp 0

/-- Whether a profile is the full-field one (R2). -/
def fullProfile (pr : Profile) : Bool := pr.furrows == 96 && pr.ports == 4 && pr.hbmStacks == 6

/-- SHD_PROFILE (Table 27-4). -/
def shdProfile (s : State) : Nat :=
  match s.boot.profile with
  | none => 0
  | some pr => putFld (if pr.furrows = 96 then 0 else pr.firstCol) 24 4 + putFld pr.furrows 16 8 + putFld pr.hbmStacks 8 4
      + putFld pr.ports 4 4 + bit (fullProfile pr) 0

def stateOfBoot : BootSt → Nat
  | .idle => 0 | .fetch => 1 | .check => 2 | .running => 3 | .failed => 4 | .fwFailed => 5

/-- SHD_BOOT_CTRL (Table 23-4). -/
def bootCtrl (s : State) : Nat := putFld s.boot.attempts 16 16 + putFld (stateOfBoot s.boot.st) 8 4

/-- SHD_WDT_EXPIRED (R506). -/
def wdtExpired (s : State) : Nat := ((List.range 4).map fun r => putFld (s.boot.expired.getD r 0) (16 * r) 16).foldl (· + ·) 0

/-- SHD_MGMT_STATUS (Table 25-6); `relay` once firmware serves (R538). -/
def mgmtStatus (s : State) : Nat :=
  let m := s.mgmt
  putFld m.notReady 48 16 + putFld (m.eid.getD 0) 32 8 + putFld (m.i3c.getD 0) 17 7 + putFld (0x60 + m.strap % 4) 9 7
    + bit (s.boot.fwReady && s.boot.fwAlive) 3 + bit m.eid.isSome 2 + bit m.i3c.isSome 1 + bit m.ready 0

/-- The words of page 0 that hardware serves, live (Tables 16-3, 27-2). -/
def liveRegs (s : State) (fn : Nat) : List Reg :=
  let F := fnOf s fn
  let pf (v : Nat) : Nat := if fn = 0 then v else 0
  [⟨0x010, 64, shdStatus s fn⟩, ⟨0x018, 64, F.trapAccepted⟩, ⟨0x020, 32, F.trapDropped⟩, ⟨0x060, 64, pf s.boot.profileAddr⟩,
   ⟨0x068, 64, pf s.boot.imageAddr⟩, ⟨0x070, 64, pf s.boot.len⟩, ⟨0x078, 64, pf (bootCtrl s)⟩, ⟨0x080, 64, wdtExpired s⟩,
   ⟨0x090, 64, mgmtStatus s⟩, ⟨0x098, 64, F.event⟩]

/-- The shadowed words of page 0. -/
def page0 (s : State) (fn : Nat) : List Reg :=
  let F := fnOf s fn
  [⟨0x028, 64, F.trapApplied⟩, ⟨0x030, 32, F.trapRefused⟩, ⟨0x038, 32, F.trapRefusedAddr⟩, ⟨0x040, 64, pcieLink s⟩,
   ⟨0x048, 32, s.pcie.retrains⟩, ⟨0x04C, 32, s.pcie.poisonRx⟩, ⟨0x050, 32, s.pcie.cplTimeout⟩, ⟨0x0A0, 64, shdProfile s⟩,
   ⟨0x0B0, 128, maskOf (s.boot.loaded.map (·.ident))⟩, ⟨0x0C0, 128, maskOf s.boot.refused⟩]

/-! ### Queues (Tables 17-3, 27-6 to 27-8) -/

def stateOfQueue : QState → Nat
  | .disabled => 0 | .empty => 1 | .fetch => 2 | .wait => 3 | .check => 4 | .run => 5 | .halted => 6

/-- QUE_CFGn; 0 while the queue is disabled. DEDUCED, log entry 69. -/
def queCfg (s : State) (q : Nat) : Nat :=
  let Q := queueOf s q
  if Q.state = .disabled then 0
  else putFld Q.cfg.vector 32 16 + putFld Q.cfg.ringLog2 22 5 + putFld Q.cfg.channel 18 4 + bit Q.cfg.halt 17 + bit Q.cfg.be 16
    + putFld Q.cfg.part 14 2 + putFld Q.cfg.kind 11 3 + stateOfQueue Q.state

/-- QUE_ERRn. -/
def queErr (s : State) (q : Nat) : Nat :=
  let e := (queueOf s q).err
  putFld e.count 32 32 + putFld e.opcode 16 12 + putFld e.status 0 16

def page3 (s : State) (fn : Nat) : List Reg :=
  let F := fnOf s fn
  let Q := queueOf s F.queSel
  let on := Q.state != .disabled && seesQueue s fn F.queSel
  let v (x : Nat) : Nat := if on then x else 0
  let c := Q.counts
  [⟨0x010, 64, F.queSel⟩, ⟨0x018, 64, 0⟩, ⟨0x020, 64, 0⟩, ⟨0x028, 64, 0⟩, ⟨0x030, 64, F.abortResult⟩, ⟨0x040, 48, v c.itemsTaken⟩,
   ⟨0x048, 32, v c.redispatched⟩, ⟨0x04C, 32, v c.windowStalls⟩, ⟨0x050, 48, v c.splitReduce⟩, ⟨0x058, 48, v c.spillSwaps⟩,
   ⟨0x060, 48, v c.haloLink⟩, ⟨0x068, 48, v c.haloMem⟩, ⟨0x070, 32, v c.normClamp⟩, ⟨0x074, 32, v c.scatterDrop⟩, ⟨0x078, 32, v Q.head⟩,
   ⟨0x080, 64, v Q.seq⟩, ⟨0x088, 64, v Q.err.seq⟩]
    ++ regRow 0x800 8 64 256 fun q => if seesQueue s fn q then queCfg s q else 0

def page4 (s : State) (fn : Nat) : List Reg := regRow 0x800 8 64 256 fun q => if seesQueue s fn q then queErr s q else 0

/-! ### Ticks, power, security (Tables 18-5, 18-6, 21-8 to 21-10, 22-8, 22-9) -/

def stateOfTick : TickSt → Nat
  | .off => 0 | .acquire => 1 | .track => 2 | .holdover => 3

def tckStatus (u : Tick) : Nat :=
  putFld u.misses 24 8 + bit u.wasLost 17 + bit u.falling 16 + putFld u.port 10 2 + putFld u.source 4 2 + stateOfTick u.st

def page5 (s : State) : List Reg :=
  let u := s.tick
  let on := u.st != .off
  let next := if u.st = .track ∨ u.st = .holdover then u.next else 0
  [⟨0x010, 64, tckStatus u⟩, ⟨0x020, 32, if on then u.pnom else 0⟩, ⟨0x024, 32, if on then u.pn else 0⟩, ⟨0x028, 64, lastTick u⟩,
   ⟨0x030, 64, (u.latches.head?.map (·.2)).getD 0⟩, ⟨0x038, 64, next⟩, ⟨0x040, 32, u.lastDev⟩, ⟨0x048, 64, u.accepted⟩,
   ⟨0x050, 32, u.refused⟩, ⟨0x054, 32, u.synth⟩, ⟨0x058, 16, u.losses⟩]

/-- The highest lever in use (Table 21-3), lever 4 apart. -/
def leverInUse (P : Power) : Nat := if 0 < P.low then 3 else if P.scale < 8 then 2 else if 0 < P.cut then 1 else 0

def pwrStatus (s : State) : Nat :=
  let P := s.pwr
  putFld P.aclk 40 12 + putFld P.tjMax 32 8 + putFld P.hbmMax 24 8 + putFld (leverInUse P) 18 2 + bit P.slewWait 17
    + bit (P.vrLow || P.vrRise.isSome) 16 + bit P.shed 5 + bit P.ffBroken 4 + bit P.hold 3 + bit (P.aclk == 400) 2
    + bit (decide (1400 < P.aclk)) 1 + bit P.cfg.fixed 0

def pwrCfgWord (c : PwrCfg) : Nat := bit c.boostOff 41 + bit c.fixed 40 + putFld c.target 32 8 + putFld c.pl100 16 16 + putFld c.pl1 0 16

/-- Whole microseconds of a time in ns. -/
def usOf (ns : Nat) : Nat := ns / 1000

def page6 (s : State) : List Reg :=
  let P := s.pwr
  let c := timeCounts s
  [⟨0x010, 64, pwrStatus s⟩, ⟨0x018, 64, pwrCfgWord P.cfg⟩, ⟨0x020, 32, P.est⟩, ⟨0x024, 32, P.mean1⟩, ⟨0x028, 32, P.mean100⟩,
   ⟨0x030, 64, min (c.energy / 5) (2 ^ 64 - 1)⟩, ⟨0x038, 48, min (usOf c.boostNs) (2 ^ 48 - 1)⟩,
   ⟨0x040, 48, min (usOf c.nominalNs) (2 ^ 48 - 1)⟩, ⟨0x048, 48, min (usOf c.belowNs) (2 ^ 48 - 1)⟩,
   ⟨0x050, 48, min (usOf c.floorNs) (2 ^ 48 - 1)⟩, ⟨0x058, 48, c.slewWaitNs⟩,
   ⟨0x060, 48, min ((c.ballast + 500000000) / 1000000000) (2 ^ 48 - 1)⟩, ⟨0x068, 32, c.droopEvents⟩, ⟨0x070, 48, c.droopCycles⟩,
   ⟨0x078, 32, c.vrAlerts⟩, ⟨0x07C, 32, c.holds⟩, ⟨0x080, 32, c.shed⟩, ⟨0x084, 32, c.ffBreaks⟩]

/-- Fields of the running image's and the profile's headers. -/
def imageHead (s : State) (f : Signed → Nat) : Nat := match s.boot.image with | some i => f i.head | none => 0
def profileHead (s : State) (f : Signed → Nat) : Nat := match s.boot.profile with | some p => f p.head | none => 0

def secStatus (s : State) : Nat :=
  putFld s.sec.sessions.length 40 4 + putFld s.boot.fail 24 8 + putFld (profileHead s (·.root)) 7 1 + putFld (imageHead s (·.root)) 6 1
    + bit s.sec.policySet 5 + bit s.boot.rngOk 4 + bit s.sec.owner.isSome 3 + bit s.boot.image.isSome 2 + bit s.boot.profile.isSome 1
    + bit s.boot.identity.isSome 0

/-- SEC_POLICY, which is also measurement 7 (Tables 22-4, 22-9). -/
def policyWord (s : State) : Nat := putFld s.sec.minSvn 32 32 + putFld s.sec.macsecLocked 8 8 + putFld s.sec.ideRequired 0 4

def page7 (s : State) : List Reg :=
  [⟨0x010, 64, secStatus s⟩, ⟨0x018, 64, putFld (profileHead s (·.svn)) 32 32 + putFld (imageHead s (·.svn)) 0 32⟩,
   ⟨0x020, 256, s.boot.identity.getD 0⟩, ⟨0x040, 64, policyWord s⟩, ⟨0x048, 32, s.boot.images⟩, ⟨0x04C, 32, s.sec.ideDrop⟩,
   ⟨0x050, 32, s.sec.spdmErrors⟩]

/-! ### Network (Tables 27-10, 27-11) -/

/-- A link of a port: 0 down, 1 training, 2 up, 3 unused. -/
def linkCode (s : State) (n : Nat) : Nat :=
  if portMode (portOf s (n / 2)) = 0 then 0 else if !linkInMode s n then 3 else if (linkOf s n).up then 2 else 1

/-- A PTP offset in 16 bits, saturating. -/
def offset16 (x : Int) : Nat := (clampInt x (-32767) 32767 % 65536).toNat

def portStatus (s : State) (n : Nat) : Nat :=
  putFld (offset16 (portOf s n).offset) 16 16 + bit (portOf s n).sync 11 + bit (linkOf s (2 * n + 1)).sa.isSome 10
    + bit (linkOf s (2 * n)).sa.isSome 9 + putFld (linkCode s (2 * n + 1)) 2 2 + linkCode s (2 * n)

def page8 (s : State) (fn : Nat) : List Reg :=
  let F := fnOf s fn
  let l (n : Nat) (f : Link → Nat) : Nat := f (linkOf s n)
  regRow 0x010 8 64 4 (fun n => (portOf s n).cfg) ++ regRow 0x030 8 64 4 (portStatus s) ++ regRow 0x080 16 128 8 (fun n => l n (·.ip))
    ++ regRow 0x100 8 64 8 (fun i => F.qpCtx.getD i 0) ++ [⟨0x140, 64, 0⟩, ⟨0x148, 64, F.qpResult⟩]
    ++ regRow 0x200 0x40 48 8 (fun n => l n (·.txBytes)) ++ regRow 0x208 0x40 48 8 (fun n => l n (·.rxBytes))
    ++ regRow 0x210 0x40 32 8 (fun n => l n (·.retransmits)) ++ regRow 0x214 0x40 32 8 (fun n => l n (·.cnpRx))
    ++ regRow 0x218 0x40 32 8 (fun n => l n (·.rxDrop)) ++ regRow 0x21C 0x40 32 8 (fun n => l n (·.macsecDrop))

/-! ### Subsoil, drill, injection, BIST (Tables 14-2, 14-4, 27-12 to 27-14, 24-6, 24-7) -/

def chanWord (s : State) (h : Nat) (f : SubChannel → Nat) : Nat :=
  if h / 32 < stackCount s then f (s.mem.channels.getD h noSubChannel) else 0

def regCfg (P : Partition) : Nat := if P.configured then putFld P.cfg.regRate 16 14 + putFld P.cfg.regBurst 0 13 else 0

def page9 (s : State) : List Reg :=
  regRow 0x010 8 32 4 (fun p => regCfg (partOf s p)) ++ regRow 0x400 16 32 192 (fun h => chanWord s h (·.corrected))
    ++ regRow 0x404 16 32 192 (fun h => chanWord s h (·.onDie)) ++ regRow 0x408 16 32 192 (fun h => chanWord s h (·.uncorrectable))
    ++ regRow 0x40C 16 16 192 (fun h => chanWord s h (·.scrubPasses))

def page10 (s : State) : List Reg :=
  [⟨0x010, 192, maskOf ((List.range 192).filter fun h => (s.mem.channels.getD h noSubChannel).failed)⟩]

def stateOfChannel : ChSt → Nat
  | .disabled => 0 | .idle => 1 | .run => 2 | .halted => 3

def chCtrl (c : Channel) : Nat := bit c.part.isSome 7 + putFld (c.part.getD 0) 5 2 + bit c.disable 0

def page11 (s : State) : List Reg :=
  let row (off width : Nat) (f : Channel → Nat) : List Reg := regRow (0x100 + off) 0x40 width 16 fun n => f (channelNo s n)
  row 0x00 32 chCtrl ++ row 0x04 32 (fun c => putFld c.haltStatus 16 16 + stateOfChannel c.st) ++ row 0x08 32 (·.counts.cmds)
    ++ row 0x0C 32 (·.counts.retries) ++ row 0x10 48 (·.counts.desc) ++ row 0x18 16 (·.counts.halts) ++ row 0x1C 16 (·.counts.disables)
    ++ row 0x20 48 (·.counts.rdBytes) ++ row 0x28 48 (·.counts.wrBytes) ++ row 0x30 48 (·.counts.curDesc)

def page12 (s : State) : List Reg :=
  [⟨0x010, 64, maskOf (s.flt.inj.map (·.1))⟩, ⟨0x018, 48, s.flt.fired⟩,
   ⟨0x020, 64, putFld s.flt.lastTime 32 32 + putFld s.flt.lastTarget 16 16 + putFld s.flt.lastPoint 0 16⟩]

/-- Unit kind and index of a fault-log entry. -/
def unitCode : FailUnit → Nat × Nat
  | .engine e => (1, e) | .furrow f => (2, f) | .link l => (3, l) | .frame n => (4, n) | .slice n => (5, n) | .channel h => (6, h)
  | .block b => (7, b) | .buffer n => (7, n)

def logBits (e : LogEntry) : Nat :=
  putFld e.time 0 64 + putFld (unitCode e.unit).1 64 8 + putFld (unitCode e.unit).2 72 16 + putFld e.detector 88 8 + bit e.injected 96
    + putFld e.span 97 31

def bstStatus (s : State) : Nat :=
  let b := s.flt.bist
  putFld s.flt.head 32 8 + putFld s.flt.groups.length 24 8 + bit s.flt.halted 7 + bit s.flt.newFence 6 + bit b.reportApplied 5 + bit b.full 4
    + bit b.paused 3 + bit b.periodic 2 + bit b.startupFail 1 + bit b.startupDone 0

/-- Fenced engines: those fenced alone, and both of a fenced furrow. -/
def fencedEngines (s : State) : List Nat := s.flt.engines ++ s.flt.furrows.flatMap fun f => [2 * f, 2 * f + 1]

def page13 (s : State) : List Reg :=
  let b := s.flt.bist
  [⟨0x010, 64, bstStatus s⟩, ⟨0x018, 48, b.slices⟩, ⟨0x020, 32, b.skipped⟩, ⟨0x024, 32, b.failed⟩, ⟨0x028, 48, b.waitNs⟩,
   ⟨0x030, 16, s.flt.frames.length⟩, ⟨0x040, 96, maskOf s.flt.furrows⟩, ⟨0x050, 192, maskOf (fencedEngines s)⟩,
   ⟨0x070, 96, maskOf s.flt.slices⟩, ⟨0x080, 172, maskOf (linksDown s)⟩]
    ++ regRow 0x100 16 128 32 fun i => match s.flt.log[i]? with | some e => logBits e | none => 0

/-! ### Partition pages (Tables 17-4, 27-15, R565) -/

def partMode (P : Partition) : Nat :=
  let c := P.cfg
  if P.configured then putFld c.beBound 48 16 + putFld c.cols 40 4 + putFld c.firstCol 36 4 + putFld c.vfMask 32 4 + putFld c.groupMask 8 24
    + bit c.bindPf 4 + bit c.abandon 3 + bit c.zg40 2 + bit c.repeatable 1 + 1
  else 0

/-- Streams of a partition in a state. -/
def streamsIn (s : State) (p : Nat) (st : StreamSt) : Nat := (s.streams.filter fun e => e.2.part == p && e.2.st == st).length

def partPage0 (s : State) (p : Nat) : List Reg :=
  let P := partOf s p
  let c := P.counts
  let mine := s.cohorts.filter fun e => e.2.part == p
  let slot (k : Nat) : Nat := match lookupKey k P.blobKeys with | some b => putFld b.origin (2 * k) 2 | none => 0
  [⟨0x010, 64, partMode P⟩, ⟨0x018, 32, c.dbReject⟩, ⟨0x020, 256, maskOf (P.seeds.map (·.1))⟩,
   ⟨0x040, 32, ((List.range 16).map slot).foldl (· + ·) 0⟩, ⟨0x048, 24, streamsIn s p .resident⟩, ⟨0x04C, 24, streamsIn s p .parked⟩,
   ⟨0x050, 24, streamsIn s p .exported⟩, ⟨0x054, 16, mine.length⟩, ⟨0x058, 16, (mine.flatMap fun e => e.2.granules.flatten).length⟩,
   ⟨0x05C, 32, c.movesFailed⟩, ⟨0x060, 32, c.tickLate⟩, ⟨0x068, 48, c.tickLateNs⟩, ⟨0x070, 32, c.tickAbandoned⟩, ⟨0x078, 48, c.tickCommits⟩,
   ⟨0x080, 48, c.netBarriers⟩, ⟨0x088, 48, c.barrierWaitNs⟩, ⟨0x090, 32, c.barrierLast⟩]

/-- A count in 24 bits, saturating (R281). -/
def sat24 (n : Nat) : Nat := min n (2 ^ 24 - 1)

def partPage1 (s : State) (p : Nat) : List Reg :=
  let P := partOf s p
  let m := P.mem
  let homed (t : Nat) : Nat := (P.plots.filter fun e => homeTier e.2.home == t).length
  [⟨0x010, 24, sat24 (homed 1)⟩, ⟨0x014, 24, sat24 (homed 2)⟩, ⟨0x018, 24, sat24 (homed 3)⟩, ⟨0x020, 48, m.plotMoves⟩, ⟨0x028, 32, m.promoted⟩,
   ⟨0x02C, 32, m.demoted⟩, ⟨0x030, 32, m.moveFailed⟩, ⟨0x038, 48, m.writeWaitNs⟩, ⟨0x040, 32, m.windowFills⟩, ⟨0x044, 32, m.windowFailed⟩,
   ⟨0x048, 32, m.windowStalls⟩, ⟨0x050, 48, m.windowStallNs⟩, ⟨0x058, 32, m.uncorrectable⟩, ⟨0x05C, 32, m.farTimeouts⟩,
   ⟨0x060, 24, loamLeft P⟩, ⟨0x064, 28, subLeft P⟩, ⟨0x080, 48, m.subRead⟩, ⟨0x088, 48, m.subWrite⟩, ⟨0x090, 48, m.throttleNs⟩,
   ⟨0x098, 48, m.wcbMerges⟩, ⟨0x0A0, 48, m.wcbRmw⟩, ⟨0x0A8, 48, m.wcbFullWaitNs⟩]

def partPage2 (s : State) (p : Nat) : List Reg :=
  let v (f : Pool → Nat) (k : Nat) : Nat := match poolOf s p k with | some K => f K | none => 0
  let row (off width : Nat) (f : Pool → Nat) : List Reg := regRow off 0x40 width 8 (v f)
  row 0x040 48 (·.counts.appended) ++ row 0x048 32 (·.counts.copied) ++ row 0x04C 32 (·.counts.demoted) ++ row 0x050 32 (·.counts.fetched)
    ++ row 0x054 32 (·.counts.dropped) ++ row 0x058 32 (·.counts.recomputed) ++ row 0x05C 32 (·.counts.failed)
    ++ row 0x060 48 (·.counts.recomputeNs) ++ row 0x068 24 (sat24 ∘ freeIds)
    ++ row 0x06C 24 (fun K => sat24 (K.loamSlots - (usedLoamSlots K).length)) ++ row 0x070 24 fun K => sat24 (K.subSlots - (usedSubSlots K).length)

/-- Page `k` of a partition. -/
def partPage (s : State) (p k : Nat) : List Reg :=
  if !(partOf s p).configured then []
  else if k = 0 then partPage0 s p else if k = 1 then partPage1 s p else if k = 2 then partPage2 s p else []

/-! ### The shadow -/

/-- The page of the shadow that a function's page number reads: per function, device-wide, or of a partition (R373, R559);
by `function * 64 + page`, device-wide and partition pages under the physical function. -/
def shadowKey (s : State) (fn page : Nat) : Option Nat :=
  if page = 0 ∨ page = 3 ∨ page = 4 ∨ page = 8 then some (fn * 64 + page)
  else if 5 ≤ page ∧ page ≤ 13 then some page
  else if page < 16 ∨ 32 ≤ page ∨ page % 4 = 3 then none
  else if fn = 0 then some page
  else match fnPart s fn with
    | some p => if page < 20 then some (16 + 4 * p + (page - 16)) else none
    | none => none

/-- The registers of a shadow page with their values now. -/
def shadowRegs (s : State) (key : Nat) : List Reg :=
  let fn := key / 64
  match key % 64 with
  | 0 => page0 s fn | 3 => page3 s fn | 4 => page4 s fn | 5 => page5 s | 6 => page6 s | 7 => page7 s | 8 => page8 s fn | 9 => page9 s
  | 10 => page10 s | 11 => page11 s | 12 => page12 s | 13 => page13 s
  | k => if k < 16 then [] else partPage s ((k - 16) / 4) ((k - 16) % 4)

/-- R377: firmware brings a page up to date: seq rises by two when a value changes, and stamp is the time of the values. -/
def buildPage (s : State) (key : Nat) : State :=
  let words := pageWords (shadowRegs s key)
  let pg : ShadowPage := match lookupKey key s.shadow with
    | some old => { seq := if old.words = words then old.seq else (old.seq + 2) % 2 ^ 64, stamp := s.now, words := words }
    | none => { seq := 2, stamp := s.now, words := words }
  { s with shadow := insertKey key pg s.shadow }

/-- Whether firmware keeps the shadow and takes work (R378, R379, R390). -/
def fwServes (s : State) : Bool := s.boot.dev == .run && s.boot.fwAlive && !s.boot.handoff

/-- SHADOW_PAGE_UPDATE (R377, R378): firmware updates the page that a function sees. -/
def execShadowPageUpdate (fn page : Nat) (s : State) : Host.Outcome State Fault Refusal :=
  .next (match shadowKey s fn page with
    | some key => if fwServes s && decide (fn < 5) then buildPage s key else s
    | none => s)

/-- Every page of the shadow: five functions' own pages, the device's, and those of the partitions. -/
def allKeys : List Nat :=
  ((List.range 5).flatMap fun fn => [0, 3, 4, 8].map (fn * 64 + ·)) ++ [5, 6, 7, 9, 10, 11, 12, 13]
    ++ (rangeFrom 16 16).filter fun k => k % 4 != 3

/-! ### Reads (R374, R376, R434) -/

/-- The reset value of a word (R536); PWR_STATUS.floor is 0 there although ACLK stands at the floor (Table 21-8). -/
def resetWord (key off : Nat) : Nat :=
  let w := wordOf (shadowRegs State.reset key) off
  if key = 6 ∧ off = 0x10 then clearBit w 2 else w

/-- The word that a shadow page shows at an offset: what firmware last wrote, or the reset value before it has (R536); the
pages of an unconfigured partition read 0 (R565). -/
def shadowWord (s : State) (key off : Nat) : Nat :=
  if 16 ≤ key % 64 ∧ (partOf s ((key % 64 - 16) / 4)).configured = false then 0
  else match lookupKey key s.shadow with
    | some pg => if off = 0 then pg.seq else if off = 8 then pg.stamp else (lookupKey off pg.words).getD 0
    | none => resetWord key off

/-- Bytes of a mailbox buffer: one that has not been written reads 0 (R393). -/
def bufBytes (bs : List Byte) (off n : Nat) : List Byte := (rangeFrom off n).map fun i => bs.getD i 0

def stateOfMbx : MbxState → Nat
  | .free => 0 | .posted => 1 | .taken => 2 | .replied => 3

/-- MBX_CTRLm (Table 16-4). -/
def mbxCtrl (M : Mailbox) : Nat := putFld M.lastStatus 32 16 + bit M.irq 7 + putFld (stateOfMbx M.state) 2 2

def mbxOf (s : State) (fn m : Nat) : Mailbox := (fnOf s fn).mailboxes.getD m noMailbox

/-- Pages 1 and 2 (Table 27-5). -/
def mbxWord (s : State) (fn page off : Nat) : Nat :=
  if page = 1 then
    let M := mbxOf s fn (off % 0x800 / 0x100)
    ofLe (bufBytes (if off < 0x800 then M.request else M.reply) (off % 0x100) 8)
  else if off < 0x40 then mbxCtrl (mbxOf s fn (off / 8))
  else if off = 0x40 then (fnOf s fn).wrDiscard
  else if off = 0x48 then (fnOf s fn).postIgnored
  else 0

/-- The aligned 8-byte word at an offset of a function's register window. -/
def readWord (s : State) (fn off : Nat) : Nat :=
  let page := off / 4096
  let o := off % 4096 / 8 * 8
  if page = 1 ∨ page = 2 then mbxWord s fn page o
  else if page = 0 ∧ (liveRegs s fn).any (fun r => inWord r o) then wordOf (liveRegs s fn) o
  else if page = 5 ∧ o = 0x018 then s.now
  else match shadowKey s fn page with
    | some key => shadowWord s key o
    | none => 0

/-- The last accepted tail of a queue, as the doorbell window shows it to a function (R432). -/
def tailWord (s : State) (fn q : Nat) : Nat :=
  match fnPart s fn with
  | some p => let Q := queueOf s q; if Q.state != .disabled && Q.cfg.part == p then Q.tail else 0
  | none => 0

/-- A fence word of the function's partition (R73, R433). -/
def fenceWord (s : State) (fn f : Nat) : Nat :=
  match fnPart s fn with
  | some p => let F := fenceOf (partOf s p) f; F.value + bit F.err 63
  | none => 0

/-- The aligned 8-byte word at an offset of a function's BAR0 (Table 19-3); a reserved range reads 0 (R431). -/
def readBar0 (s : State) (fn off : Nat) : Nat :=
  if off < 0x40000 then readWord s fn off
  else if off < 0x40800 then tailWord s fn ((off - 0x40000) / 8)
  else if 0x80000 ≤ off ∧ off < 0x88000 then fenceWord s fn ((off - 0x80000) / 8)
  else if 0xC0000 ≤ off ∧ off < 0xC0400 then
    ((fnOf s fn).msix.getD ((off - 0xC0000) / 16) maskedEntry).toNat / 2 ^ (64 * ((off - 0xC0000) / 8 % 2)) % 2 ^ 64
  else if 0xC1000 ≤ off ∧ off < 0xC1008 then (fnOf s fn).pba
  else 0

end Sys2Proof.Machine
end

