-- ==== Sys2Proof/Machine/Traps.lean ====
section
/-! DEFINITION. Writes to a function's BAR0 (R380 to R386, R431 to R434): trapped writes and what firmware makes of them, the
words that hardware serves, mailbox buffers and controls (R387, R388), boot words (R502, R503) and the MSI-X table (R441). -/

namespace Sys2Proof.Machine

/-! ### Words -/

/-- Whether a write of `size` bytes is 4 or 8 bytes and naturally aligned (R381). DEDUCED, log entry 67. -/
def wellSized (off size : Nat) : Bool := (size == 4 || size == 8) && off % size == 0

/-- A write as it meets the aligned word of its offset: whether it covers the low and the high half, and its data in place. -/
structure WordWrite where
  lo : Bool
  hi : Bool
  data : Nat
  deriving DecidableEq, Repr

def wordWrite (off size val : Nat) : WordWrite :=
  { lo := off % 8 == 0, hi := off % 8 == 4 || size == 8, data := val % 2 ^ (8 * size) * 2 ^ (8 * (off % 8)) }

/-- The word after the write: halves it does not cover keep their value. -/
def mergeWord (old : Nat) (w : WordWrite) : Nat :=
  (if w.lo then fld w.data 0 32 else fld old 0 32) + (if w.hi then fld w.data 32 32 else fld old 32 32) * 2 ^ 32

/-- Whether any of the bits of some fields, given as (lowest bit, length), is set. -/
def anySet (x : Nat) (fields : List (Nat × Nat)) : Bool := fields.any fun (lo, len) => fld x lo len != 0

/-! ### Registers that firmware applies: `none` refuses the write (R384) -/

/-- QUE_SEL (Table 27-7, R563). -/
def writeQueSel (s : State) (fn : Nat) (w : WordWrite) : Option State :=
  let q := fld w.data 0 8
  if !w.lo || anySet w.data [(8, 56)] || !seesQueue s fn q then none else some (setFn s fn fun F => { F with queSel := q })

/-- The dispatch and event counters of a queue are cleared (R146). -/
def clearDispatch (s : State) (q : Nat) : State := setCounts s q fun _ => zeroQueueCounts

/-- The error capture of a queue is cleared (R81, R563). -/
def clearErrors (s : State) (q : Nat) : State := setQueue s q fun Q => { Q with err := ⟨0, 0, 0, 0⟩ }

/-- QUE_DISPATCH_CLR (Table 27-7). -/
def writeDispatchClr (s : State) (fn : Nat) (w : WordWrite) : Option State :=
  let q := (fnOf s fn).queSel
  if anySet w.data [(2, 62)] || !seesQueue s fn q then none
  else
    let s1 := if bitOf w.data 0 then clearDispatch s q else s
    some (if bitOf w.data 1 then clearErrors s1 q else s1)

/-- QUE_ABORT_FIRST (R386). -/
def writeAbortFirst (s : State) (fn : Nat) (w : WordWrite) : Option State :=
  if anySet w.data [(55, 9)] then none else some (setFn s fn fun F => { F with abortFirst := w.data })

/-- QUE_ABORT_RESULT: status and count (R386). -/
def setAbortResult (s : State) (fn : Nat) (st : Status) (n : Nat) : State :=
  setFn s fn fun F => { F with abortResult := putFld (statusCode st) 0 16 + putFld n 16 32 }

/-- QUE_ABORT (R386): an abort of the range from the function's first to the last written. -/
def writeAbort (s : State) (fn : Nat) (w : WordWrite) : Option State :=
  let q := fld w.data 55 8
  let first := (fnOf s fn).abortFirst
  let last := fld w.data 0 55
  if anySet w.data [(63, 1)] || (queuePart s q).isNone || queuePart s q != fnPart s fn then none
  else if last < first then some (setAbortResult s fn .loadBadShape 0)
  else
    let (st, n, s1) := abortRange s q first last
    some (setAbortResult s1 fn st n)

/-- Links of a port: a change of mode takes those that are up down (R447). -/
def portDown (s : State) (n : Nat) : State := linkDown (linkDown s (2 * n)) (2 * n + 1)

/-- Whether a port is enabled by the profile (R3). -/
def portEnabled (s : State) (n : Nat) : Bool := match s.boot.profile with | some pr => decide (n < pr.ports) | none => false

/-- Whether a new port configuration would clear the macsec bit of a locked link (R497). -/
def unlocksMacsec (s : State) (n cfg : Nat) : Bool :=
  [0, 1].any fun l => bitOf s.sec.macsecLocked (2 * n + l) && !bitOf cfg (16 + l)

/-- NET_PORT_CFGn (Table 20-1, R447): the physical function's. -/
def writePortCfg (s : State) (fn n : Nat) (w : WordWrite) : Option State :=
  let old := (portOf s n).cfg
  let cfg := mergeWord old w
  if fn ≠ 0 || !w.lo || anySet w.data [(24, 40), (18, 2), (14, 2), (2, 10)] || fld cfg 0 2 == 3 || fld cfg 12 2 == 3
      || !portEnabled s n || !(qpsOn s (2 * n) ++ qpsOn s (2 * n + 1)).isEmpty || unlocksMacsec s n cfg then none
  else
    let s1 := if fld cfg 0 2 = fld old 0 2 then s else portDown s n
    some (setPort s1 n fun P => { P with cfg := cfg })

/-- The low word of NET_LINK_ADDRn is held (R564). DEDUCED, log entry 70. -/
def writeAddrLow (s : State) (fn n : Nat) (w : WordWrite) : Option State :=
  if fn ≠ 0 || !(w.lo && w.hi) || !portEnabled s (n / 2) then none
  else some (setFn s fn fun F => { F with linkAddrLow := modifyAt n (fun _ => w.data) F.linkAddrLow })

/-- The high word of NET_LINK_ADDRn applies the address (R564); a refusal discards the low word. DEDUCED, log entry 71. -/
def writeAddrHigh (s : State) (fn n : Nat) (w : WordWrite) : Option State :=
  if fn ≠ 0 || !(w.lo && w.hi) || !portEnabled s (n / 2) || !(qpsOn s n).isEmpty then none
  else some (setLink s n fun l => { l with ip := w.data * 2 ^ 64 + (fnOf s fn).linkAddrLow.getD n 0 })

/-- A low word is held until the high word is applied or refused (R564). -/
def dropAddrLow (s : State) (fn n : Nat) : State :=
  setFn s fn fun F => { F with linkAddrLow := modifyAt n (fun _ => 0) F.linkAddrLow }

/-- The reserved bits of word `i` of a queue-pair context (Table 20-3). -/
def ctxReserved : Nat → List (Nat × Nat)
  | 0 => [(4, 60)]
  | 1 => [(0, 40)]
  | 4 => [(0, 56)]
  | 6 => [(24, 8)]
  | _ => []

/-- A staging word of a queue-pair context (R450, R564). -/
def writeQpCtx (s : State) (fn i : Nat) (w : WordWrite) : Option State :=
  if anySet w.data (ctxReserved i) then none
  else some (setFn s fn fun F => { F with qpCtx := modifyAt i (fun old => mergeWord old w) F.qpCtx })

/-- NET_QP_CMD (Table 20-4, R450). -/
def writeQpCmd (s : State) (fn : Nat) (w : WordWrite) : Option State :=
  let op := fld w.data 16 2
  let n := fld w.data 0 12
  match fnPart s fn with
  | none => none
  | some p =>
    if anySet w.data [(18, 46), (12, 4)] || op == 0 || (op == 1 && n != 0) then none
    else some (if op = 1 then qpCreate s fn p else if op = 2 then qpDestroy s fn p n else qpReset s fn p n)

/-- DRL_CH_CTRLn (Table 15-3, R370): a function of the owning partition's. A write of 8 bytes covers DRL_CH_STATUSn as well, which is
read-only (Table 27-14). -/
def writeChCtrl (s : State) (fn n : Nat) (w : WordWrite) : Option State :=
  let owner := (channelNo s n).part
  if !w.lo || anySet w.data [(8, 24), (3, 2), (35, 13)] || owner.isNone || owner != fnPart s fn then none
  else some (writeChannel s n (fld w.data 0 32))

/-- A status word whose low half has one bit that a write of 1 clears, the physical function's alone; a write of 0 has no effect (R11). A
reserved bit, or a write of the other half alone, is refused (R384). -/
def writeW1c (s : State) (fn : Nat) (w : WordWrite) (i : Nat) (reserved : List (Nat × Nat)) (s1 : State) : Option State :=
  if fn ≠ 0 ∨ w.lo = false ∨ anySet w.data reserved = true then none else some (if bitOf w.data i then s1 else s)

/-- What firmware makes of a trapped write: the state, or a refusal (R372, R384). Pages 5, 6, 7, 12 and 13 refuse every write but the
ones named (R425, R479, R498, R530). -/
def applyWord (s : State) (fn page o : Nat) (w : WordWrite) : Option State :=
  let ro : Option State :=
    match shadowKey s fn page with
    | some key => if (shadowRegs s key).any (fun r => inWord r o) || o == 0 || o == 8 then none else some s
    | none => some s
  match page with
  | 3 =>
    if o = 0x010 then writeQueSel s fn w else if o = 0x018 then writeDispatchClr s fn w else if o = 0x020 then writeAbortFirst s fn w
    else if o = 0x028 then writeAbort s fn w else ro
  | 5 => if o = 0x010 then writeW1c s fn w 17 [(32, 32), (18, 6), (12, 4), (6, 4), (3, 1)] (setTick s fun u => { u with wasLost := false }) else none
  | 6 => if o = 0x010 then writeW1c s fn w 4 [(52, 12), (20, 4), (6, 10)] (setPwr s fun P => { P with ffBroken := false }) else none
  | 7 => none
  | 8 =>
    if 0x010 ≤ o ∧ o < 0x030 then writePortCfg s fn ((o - 0x010) / 8) w
    else if 0x080 ≤ o ∧ o < 0x100 then
      (if o % 16 = 0 then writeAddrLow s fn ((o - 0x080) / 16) w else (writeAddrHigh s fn ((o - 0x080) / 16) w).map fun x => dropAddrLow x fn ((o - 0x080) / 16))
    else if 0x100 ≤ o ∧ o < 0x140 then writeQpCtx s fn ((o - 0x100) / 8) w
    else if o = 0x140 then writeQpCmd s fn w else ro
  | 11 => if 0x100 ≤ o ∧ o < 0x500 ∧ o % 0x40 = 0 then writeChCtrl s fn ((o - 0x100) / 0x40) w else ro
  | 12 => none
  | 13 => if o = 0x010 then writeW1c s fn w 6 [(40, 24), (8, 16)] { s with flt := { s.flt with newFence := false } } else none
  | _ => if 16 ≤ page ∧ page < 32 ∧ page % 4 ≠ 3 then none else ro

/-- A refused write is counted, and the first since the count was 0 keeps its offset (R384). -/
def refuseTrap (s : State) (fn off : Nat) : State :=
  setFn s fn fun F => { F with
    trapRefused := satAdd 32 F.trapRefused 1, trapRefusedAddr := if F.trapRefused = 0 then off else F.trapRefusedAddr }

/-- A refused high word of a link address also discards the low word (R564). DEDUCED, log entry 66. -/
def refusedEffects (s : State) (fn page o : Nat) : State :=
  if fn = 0 ∧ page = 8 ∧ 0x080 ≤ o ∧ o < 0x100 ∧ o % 16 = 8 then dropAddrLow s fn ((o - 0x080) / 16) else s

/-- The pages that show the effect of a write to a page: the error capture of page 4 changes with writes to page 3. -/
def shownOn (page : Nat) : List Nat := if page = 3 then [3, 4] else [page]

/-- Firmware applies one trapped write: it is counted, and its page and then page 0 show it (R383). -/
def applyTrap (s : State) (fn : Nat) (t : Trap) : State :=
  let page := t.off / 4096
  let o := t.off % 4096 / 8 * 8
  let s1 := match applyWord s fn page o (wordWrite t.off t.size t.val) with
    | some x => x
    | none => refuseTrap (refusedEffects s fn page o) fn t.off
  let s2 := setFn s1 fn fun F => { F with trapApplied := (F.trapApplied + 1) % 2 ^ 64 }
  let s3 := (((shownOn page).filter (· != 0)).filterMap (shadowKey s2 fn)).foldl buildPage s2
  buildPage s3 (fn * 64)

/-- Firmware takes a function's trapped writes one at a time in the order of capture (R383), while it serves (R379). -/
def drainTraps (s : State) (fn : Nat) : State :=
  if fwServes s then
    let ts := (fnOf s fn).traps
    ts.foldl (fun x t => applyTrap x fn t) (setFn s fn fun F => { F with traps := [] })
  else s

/-- R562: trap_ovf is set, a cause of the event interrupt that has no bit in SHD_EVENT. -/
def overflowTrap (s : State) (fn : Nat) : State :=
  raiseMsix (setFn s fn fun F => { F with trapDropped := satAdd 32 F.trapDropped 1, trapOvf := true }) fn 1

/-- A trapped write is captured (R380 to R382) and, while firmware serves, applied. DESIGN CHOICE, log entry 68. -/
def trapWrite (s : State) (fn off size val : Nat) : State :=
  if (fnOf s fn).traps.length < 64 then
    drainTraps (setFn s fn fun F => { F with
      traps := F.traps ++ [⟨off, size, val % 2 ^ (8 * size)⟩], trapAccepted := (F.trapAccepted + 1) % 2 ^ 64 }) fn
  else overflowTrap s fn

/-! ### Boot words (R502, R503) -/

/-- The longest profile and the longest image that a fetch takes. -/
def profileMax : Nat := 0x100000
def imageMax : Nat := 64 + 393216 + 5396

/-- Why a fetch is refused at go. -/
def fetchRefused (s : State) : Bool :=
  let b := s.boot
  let pl := b.len % 2 ^ 32
  let il := b.len / 2 ^ 32
  b.profileAddr % 4096 != 0 || b.imageAddr % 4096 != 0 || decide (profileMax < pl) || decide (imageMax < il) || pl == 0 || il == 0
    || !(pciFn s 0).bme

def setBoot (s : State) (f : Boot → Boot) : State := { s with boot := f s.boot }

/-- A write of 1 to go (R503): in IDLE or FAILED it starts a load. -/
def bootGo (s : State) : State :=
  if s.boot.st != .idle && s.boot.st != .failed then s
  else
    let refused := fetchRefused s
    setBoot s fun b => { b with
      attempts := satAdd 16 b.attempts 1, st := if refused then .failed else .fetch, fail := if refused then 7 else 0 }

/-- A write to one of the boot words by the physical function. -/
def writeBootWord (s : State) (o : Nat) (w : WordWrite) : State :=
  let busy := s.boot.st == .fetch || s.boot.st == .check
  if o = 0x078 then (if bitOf w.data 0 then bootGo s else s)
  else if busy then s
  else if o = 0x060 then setBoot s fun b => { b with profileAddr := mergeWord b.profileAddr w }
  else if o = 0x068 then setBoot s fun b => { b with imageAddr := mergeWord b.imageAddr w }
  else setBoot s fun b => { b with len := mergeWord b.len w }

/-! ### Words of page 0 that hardware serves -/

/-- Clear the bits of a word that a write sets. -/
def clearBits (x mask : Nat) : Nat := (bitsOf 64 mask).foldl clearBit x

/-- SHD_STATUS: trap_ovf is cleared by a write of 1 (Table 16-2). -/
def writeStatus (s : State) (fn : Nat) (w : WordWrite) : State :=
  if bitOf w.data 8 then setFn s fn fun F => { F with trapOvf := false } else s

/-- SHD_EVENT (Table 27-3). -/
def writeEvent (s : State) (fn : Nat) (w : WordWrite) : State := setFn s fn fun F => { F with event := clearBits F.event w.data }

/-- A write to a hardware word of page 0; one to a read-only word changes nothing. -/
def writeLive (s : State) (fn o : Nat) (w : WordWrite) : State :=
  if o = 0x010 then writeStatus s fn w
  else if o = 0x098 then writeEvent s fn w
  else if fn = 0 ∧ 0x060 ≤ o ∧ o < 0x080 then writeBootWord s o w
  else s

/-! ### Mailboxes (R387, R388) -/

def setMbx (s : State) (fn m : Nat) (f : Mailbox → Mailbox) : State := setFn s fn fun F => { F with mailboxes := modifyAt m f F.mailboxes }

/-- The number of a new post: posts are taken in their order (R390). -/
def nextPost (s : State) : Nat := (s.fns.foldl (fun a F => F.mailboxes.foldl (fun b M => max b M.order) a) 0) + 1

/-- A post (R388): a FREE mailbox becomes POSTED while firmware accepts posts. -/
def postMbx (s : State) (fn m : Nat) : State :=
  if (mbxOf s fn m).state == .free && s.boot.fwReady && decide (m < 8) then
    let n := nextPost s
    setMbx s fn m fun M => { M with state := .posted, order := n }
  else setFn s fn fun F => { F with postIgnored := satAdd 32 F.postIgnored 1 }

/-- A release (R388): a REPLIED mailbox becomes FREE. -/
def releaseMbx (s : State) (fn m : Nat) : State :=
  if (mbxOf s fn m).state == .replied then setMbx s fn m fun M => { M with state := .free } else s

/-- A write to MBX_CTRLm: irq, and the post or release that its state before the write allows. -/
def writeMbxCtrl (s : State) (fn m : Nat) (w : WordWrite) : State :=
  if !w.lo then s
  else
    let s1 := setMbx s fn m fun M => { M with irq := bitOf w.data 7 }
    let replied := (mbxOf s fn m).state == .replied
    let s2 := if bitOf w.data 0 then postMbx s1 fn m else s1
    if bitOf w.data 1 && replied then releaseMbx s2 fn m else s2

/-- Bytes written over a buffer of 256 bytes. -/
def overlay (old : List Byte) (off : Nat) (bs : List Byte) : List Byte :=
  bufBytes old 0 off ++ bs ++ bufBytes old (off + bs.length) (256 - off - bs.length)

/-- A write to page 1: a request buffer of a FREE mailbox takes it; a frozen one counts it (R388); reply buffers take none.
DEDUCED, log entry 72. -/
def writeBuffer (s : State) (fn o size val : Nat) : State :=
  if 0x800 ≤ o then s
  else if (mbxOf s fn (o / 0x100)).state = .free then
    setMbx s fn (o / 0x100) fun M => { M with request := overlay M.request (o % 0x100) (toLe size val) }
  else setFn s fn fun F => { F with wrDiscard := satAdd 32 F.wrDiscard 1 }

/-! ### The MSI-X table (R439, R441) -/

/-- A pending entry that is not masked sends its message (R441). -/
def sendPending (s : State) (fn entry : Nat) : State :=
  if bitOf (fnOf s fn).pba entry && !((fnOf s fn).msix.getD entry maskedEntry).getLsbD 96 && !(pciFn s fn).d3hot && mayIssue s fn then
    setPci (setFn s fn fun F => { F with pba := clearBit F.pba entry }) fn fun f => { f with sent := modifyAt entry (· + 1) f.sent }
  else s

/-- Change an entry of the table. -/
def setEntry (s : State) (fn entry : Nat) (f : W128 → W128) : State :=
  sendPending (setFn s fn fun F => { F with msix := modifyAt entry f F.msix }) fn entry

/-- A write of 4 or 8 bytes to the table. -/
def writeEntry (s : State) (fn off size val : Nat) : State :=
  setEntry s fn (off / 16) fun e => BitVec.ofNat 128 (setFld e.toNat (8 * (off % 16)) (8 * size) val)

/-- Unmask an entry: its Mask bit becomes 0. -/
def unmaskEntry (s : State) (fn entry : Nat) : State := setEntry s fn entry fun e => BitVec.ofNat 128 (clearBit e.toNat 96)

/-! ### The rows -/

/-- A write to the register window (R372, R380, R381): one to an unassigned offset, and one to TCK_NOW (R425), is captured as a
trapped write is, and counted. DEDUCED, log entry 189. -/
def windowWrite (s : State) (fn off size val : Nat) : State :=
  let page := off / 4096
  let o := off % 4096
  let w := wordWrite off size val
  if !wellSized off size then setFn s fn fun F => { F with trapDropped := satAdd 32 F.trapDropped 1 }
  else if page = 1 then writeBuffer s fn o size val
  else if page = 2 ∧ o < 0x50 then (if o < 0x40 then writeMbxCtrl s fn (o / 8) w else s)
  else if page = 0 ∧ (liveRegs s fn).any (fun r => inWord r (o / 8 * 8)) = true then writeLive s fn (o / 8 * 8) w
  else trapWrite s fn off size val

/-- A write anywhere in BAR0 (Table 19-3); reserved ranges discard it. -/
def bar0Write (s : State) (fn off size val : Nat) : State :=
  if off < 0x40000 then windowWrite s fn off size val
  else if off < 0x40800 then
    (if off % 8 = 0 then doorbellWrite s (.function fn) ((off - 0x40000) / 8) size val
     else match fnPart s fn with | some p => rejectDoorbell s p | none => s)
  else if 0x80000 ≤ off ∧ off < 0x88000 then fenceWrite s fn (off - 0x80000) size val
  else if 0xC0000 ≤ off ∧ off < 0xC0400 ∧ wellSized off size = true then writeEntry s fn (off - 0xC0000) size val
  else s

/-- REGISTER_WRITE: a write to BAR0; a poisoned one is discarded and counted (R434). -/
def execRegisterWrite (fn off size val : Nat) (poisoned : Bool) (s : State) : Host.Outcome State Fault Refusal :=
  .next (barWrite s fn fun x =>
    if poisoned then { x with pcie := { x.pcie with poisonRx := satAdd 32 x.pcie.poisonRx 1 } } else bar0Write x fn off size val)

/-- A write of 8 bytes to a trapped register. -/
def rowWrite (s : State) (fn off val : Nat) : State := barWrite s fn fun x => trapWrite x fn off 8 val

/-- QUE_ABORT (R386): the trapped write of queue and last. -/
def execQueAbort (fn val : Nat) (s : State) : Host.Outcome State Fault Refusal := .next (rowWrite s fn 0x3028 val)

/-- QUE_DISPATCH_CLEAR (R146, Table 27-7). -/
def execQueDispatchClear (fn : Nat) (s : State) : Host.Outcome State Fault Refusal := .next (rowWrite s fn 0x3018 1)

/-- QUE_ERRORS_CLEAR (R563, Table 27-7). -/
def execQueErrorsClear (fn : Nat) (s : State) : Host.Outcome State Fault Refusal := .next (rowWrite s fn 0x3018 2)

/-- The offset of DRL_CH_CTRLn (Table 27-13). -/
def chCtrlOff (n : Nat) : Nat := 0xB100 + 0x40 * n

/-- A write of 4 bytes to DRL_CH_CTRLn. -/
def channelWrite (s : State) (fn n val : Nat) : State :=
  if n < 16 then barWrite s fn fun x => trapWrite x fn (chCtrlOff n) 4 val else s

/-- DRILL_CHANNEL_DISABLE (R367): disable is written with 1. -/
def execDrillChannelDisable (fn n : Nat) (s : State) : Host.Outcome State Fault Refusal := .next (channelWrite s fn n 1)

/-- DRILL_CHANNEL_ENABLE (R370): disable is written with 0. -/
def execDrillChannelEnable (fn n : Nat) (s : State) : Host.Outcome State Fault Refusal := .next (channelWrite s fn n 0)

/-- DRILL_CHANNEL_RESUME (R365): resume, with disable as it stands. -/
def execDrillChannelResume (fn n : Nat) (s : State) : Host.Outcome State Fault Refusal :=
  .next (channelWrite s fn n (2 + bit (channelNo s n).disable 0))

/-- DRILL_CLR_COUNTS (R369): clr_counts, with disable as it stands. -/
def execDrillClrCounts (fn n : Nat) (s : State) : Host.Outcome State Fault Refusal :=
  .next (channelWrite s fn n (4 + bit (channelNo s n).disable 0))

/-- QP_CREATE (R450): op 1 of NET_QP_CMD. -/
def execQpCreate (fn : Nat) (s : State) : Host.Outcome State Fault Refusal := .next (rowWrite s fn 0x8140 (putFld 1 16 2))

/-- QP_DESTROY (R450): op 2. -/
def execQpDestroy (fn qp : Nat) (s : State) : Host.Outcome State Fault Refusal := .next (rowWrite s fn 0x8140 (putFld 2 16 2 + putFld qp 0 12))

/-- QP_RESET (R450): op 3. -/
def execQpReset (fn qp : Nat) (s : State) : Host.Outcome State Fault Refusal := .next (rowWrite s fn 0x8140 (putFld 3 16 2 + putFld qp 0 12))

/-- NET_LINK_ADDR_WRITE (R564): the write of a high word. -/
def execNetLinkAddrWrite (fn n high : Nat) (s : State) : Host.Outcome State Fault Refusal :=
  .next (if n < 8 then rowWrite s fn (0x8088 + 16 * n) high else s)

/-- NET_PORT_CFG_WRITE (R447). -/
def execNetPortCfgWrite (fn n val : Nat) (s : State) : Host.Outcome State Fault Refusal :=
  .next (if n < 4 then rowWrite s fn (0x8010 + 8 * n) val else s)

/-- BOOT_GO (R503): a write of 1 to go; in a virtual function it is discarded (R502). -/
def execBootGo (fn : Nat) (s : State) : Host.Outcome State Fault Refusal := .next (barWrite s fn fun x => if fn = 0 then bootGo x else x)

/-- MSIX_UNMASK (R441). -/
def execMsixUnmask (fn entry : Nat) (s : State) : Host.Outcome State Fault Refusal :=
  .next (barWrite s fn fun x => if entry < 64 then unmaskEntry x fn entry else x)

/-- MBX_POST (R388). -/
def execMbxPost (fn m : Nat) (s : State) : Host.Outcome State Fault Refusal :=
  .next (barWrite s fn fun x => if m < 8 then postMbx x fn m else x)

/-- MBX_RELEASE (R388). -/
def execMbxRelease (fn m : Nat) (s : State) : Host.Outcome State Fault Refusal :=
  .next (barWrite s fn fun x => if m < 8 then releaseMbx x fn m else x)

end Sys2Proof.Machine
end

