-- ==== Sys2Proof/Machine/Ends.lean ====
section
/-! DEFINITION. Ending every command of a queue at once: a disable or a function-level reset (R91), a removed partition (R400)
and the device fault halt (R521). -/

namespace Sys2Proof.Machine

/-- The boundary at which an early end takes effect (R88, R315, R459): moves in slots have finished, and so has a message that
has started; the writes that wait behind moves have landed (R312); the command's result stands. DESIGN CHOICE, log entry 92. -/
def reachBoundary (s : State) (q : Nat) : State :=
  let s0 := endPages s q
  let ms := s0.mem.moves.filter fun m => m.active && !pageMove m && (moveQueue m == some q || m.writes.any (·.q == q))
  let s1 := ms.foldl (fun x m => plotMoveCommit x m.part m.plot) s0
  match (queueOf s1 q).cmd, (queueOf s1 q).result with
  | some c, none => (match c.ending with | some r => setResult (stopEffects s1 q c) q r | none => s1)
  | _, _ => s1

/-- Commit the ended commands of a queue one after another: the one at the head, then those that are read from the ring to
end as fixed (R88). Where the ring can no longer be read, the rest end without record and signal, which their headers would name; they
are counted and captured. DEDUCED, log entry 150. -/
def drainQueue (q : Nat) : Nat → State → State
  | 0, s => s
  | n + 1, s =>
    let Q := queueOf s q
    match Q.cmd with
    | some _ =>
      let s1 := discardItems (reachBoundary s q) q
      if (queueOf s1 q).result.isSome then drainQueue q n (commitQueue s1 q) else s1
    | none =>
      match lookupKey Q.seq Q.doomed, loadNat s Q.cfg.part (ringAddr Q Q.head) 64 with
      | some _, .ok h => drainQueue q n (accept s q h 0)
      | _, _ => setQueue s q fun X => { X with
          head := X.tail
          seq := (X.seq + X.doomed.length) % 2 ^ 64
          err := X.doomed.foldl (fun e (i, st) => captureErr e (statusCode st) i 0) X.err
          doomed := [] }

/-- Every command of a queue that has not committed ends with a status, and all of them commit (R91, R521). DEDUCED, log entry 93. -/
def endAll (s : State) (q : Nat) (st : Status) : State :=
  let Q := queueOf s q
  let n := issuedEnd s q - Q.seq
  let s1 := setQueue (endRange s q 0 (2 ^ 64) st).2 q fun X => { X with cfg := { X.cfg with halt := false } }
  setQueue (drainQueue q (2 * n + 3) s1) q fun X => { X with cfg := { X.cfg with halt := Q.cfg.halt } }

/-- A queue is disabled (R91, R402): nothing of it is left. -/
def disableQueue (s : State) (q : Nat) : State :=
  if (queueOf s q).state = .disabled then s
  else setQueue (releaseHeld (endAll s q .abortReset) q) q fun _ => noQueue

/-- Disable every queue that holds a property, in order of index. -/
def disableWhere (s : State) (ok : Queue → Bool) : State :=
  (queuesWhere s fun Q => Q.state != .disabled && ok Q).foldl disableQueue s

/-- R521: an enabled queue enters HALTED, its commands ended with FAULT_UNRECOVERED. -/
def haltQueue (s : State) (q : Nat) : State :=
  setQueue (endAll s q .faultUnrecovered) q fun Q => { Q with state := .halted }

end Sys2Proof.Machine
end

