-- ==== Sys2Proof/Machine/Mailboxes.lean ====
section
/-! DEFINITION. Mailbox requests (R387 to R391): their headers and bodies, the checks that come before a request's own, the
order in which requests that name one object take effect, and the reply. -/

namespace Sys2Proof.Machine

/-! ### The request (R389) -/

/-- A reply: status, details and payload. -/
structure Reply where
  status : Status
  a : Nat
  b : Nat
  body : List Byte
  deriving DecidableEq, Repr

/-- A refusal, or a completion without a payload. -/
def plain (st : Status) : Reply := ⟨st, 0, 0, []⟩

def reqHdr (M : Mailbox) : Nat := ofLe (bufBytes M.request 0 16)
def reqCode (M : Mailbox) : Nat := fld (reqHdr M) 0 16
def reqIndirect (M : Mailbox) : Bool := bitOf (reqHdr M) 16
def reqLength (M : Mailbox) : Nat := fld (reqHdr M) 32 16
def reqTag (M : Mailbox) : Nat := fld (reqHdr M) 64 64
/-- The 240 bytes of the request buffer after its header. DEDUCED, log entry 108. -/
def reqPayload (M : Mailbox) : List Byte := bufBytes M.request 16 240

/-- Address and length of an indirect buffer. -/
def indAddr (M : Mailbox) : Nat := payFld (reqPayload M) 0 8
def indLength (M : Mailbox) : Nat := payFld (reqPayload M) 8 4

/-- The length of the body, which is also an indirect reply's room; a direct reply has room for 224 bytes. -/
def bodyLength (M : Mailbox) : Nat := if reqIndirect M then indLength M else reqLength M
def replyRoom (M : Mailbox) : Nat := if reqIndirect M then indLength M else 224

/-- Step 5: the buffer is aligned and mapped for reading and writing in the function's partition. DEDUCED, log entry 94. -/
def bufferOk (s : State) (fn : Nat) (M : Mailbox) : Bool :=
  match fnPart s fn with
  | some p => indAddr M % 64 == 0 && mappedRead s p (indAddr M) (indLength M) && mappedWrite s p (indAddr M) (indLength M)
  | none => false

def lengthInRange (M : Mailbox) : Bool :=
  if reqIndirect M then reqLength M == 16 && decide (1 ≤ indLength M) && decide (indLength M ≤ 65536) else decide (reqLength M ≤ 240)

/-- The body of a request; nothing where it has none that can be read. DEDUCED, log entry 96. -/
def reqBody (s : State) (fn : Nat) (M : Mailbox) : Except Fail (List Byte) :=
  if !lengthInRange M then .ok []
  else if reqIndirect M then
    match fnPart s fn with
    | some p => if bufferOk s fn M then loadBytes s p (indAddr M) (indLength M) else .ok []
    | none => .ok []
  else .ok ((reqPayload M).take (reqLength M))

/-! ### Table 16-6 -/

/-- The codes, with whether the physical function alone may send them. -/
def requestCodes : List (Nat × Bool) :=
  [(0x0001, false), (0x0002, true), (0x0010, true), (0x0011, true), (0x0020, false), (0x0021, false), (0x0022, false), (0x0023, false),
   (0x0030, false), (0x0031, false), (0x0040, false), (0x0041, false), (0x0050, false), (0x0051, false), (0x0052, false), (0x0053, false),
   (0x0060, true), (0x0070, true), (0x0080, false), (0x0090, true), (0x00A0, true), (0x00A1, true)]

/-- Step 3: the payload length that the owning chapter gives a code. -/
def lengthFits (code n : Nat) (indirect : Bool) (body : List Byte) : Bool :=
  let query : Bool := if indirect then decide (16 ≤ n) else n == 16
  match code with
  | 0x0001 => n == 0 | 0x0002 => n == 16 | 0x0010 => n == 64 | 0x0011 => n == 1 | 0x0020 => n == 24 | 0x0021 => n == 8
  | 0x0022 => n == 8 | 0x0023 => n == 24
  | 0x0030 => decide (8 ≤ n) && (body.isEmpty || n == 8 + 8 * payFld body 1 1)
  | 0x0031 => query | 0x0040 => n == 48 | 0x0041 => query | 0x0050 => n == 48 | 0x0051 => n == 16 | 0x0052 => query
  | 0x0053 => n == 24 | 0x0060 => n == 16 | 0x0070 => n == 32 | 0x0080 => n == 48 | 0x0090 => n == 16 | 0x00A0 => n == 16
  | 0x00A1 => n == 16
  | _ => false

/-- Whether any of the bytes from `off` is not 0. -/
def someByte (bs : List Byte) (off n : Nat) : Bool := payFld bs off n != 0

/-- Record `i` of a LAYOUT_SET payload (R572). -/
def layoutEntry (bs : List Byte) (i : Nat) : Nat := payFld bs (8 + 8 * i) 8

/-- Step 4: reserved payload fields, among them fields that a condition sets to 0 (R13). DEDUCED, log entry 109. -/
def bodyReserved (code : Nat) (bs : List Byte) : Bool :=
  match code with
  | 0x0002 => someByte bs 12 4
  | 0x0010 => payFld bs 1 1 / 16 != 0 || payFld bs 4 2 / 16 != 0 || payFld bs 11 1 != 0 || payFld bs 28 4 / 2 ^ 20 != 0
  | 0x0020 => payFld bs 3 1 / 4 != 0 || someByte bs 16 8 || (payFld bs 2 1 != 2 && someByte bs 5 1)
  | 0x0021 => someByte bs 2 6
  | 0x0022 => someByte bs 2 6
  | 0x0023 => someByte bs 17 7
  | 0x0030 => someByte bs 2 2 || (payFld bs 1 1 == 0 && someByte bs 4 4)
      || (List.range (payFld bs 1 1)).any fun i => layoutEntry bs i / 2 ^ 33 != 0 || bitOf (layoutEntry bs i) 31
  | 0x0031 => payFld bs 0 4 / 2 ^ 20 != 0 || someByte bs 8 8
  | 0x0040 => bitOf (payFld bs 1 1) 7 || bitOf (payFld bs 2 1) 7 || someByte bs 9 3 || someByte bs 28 20
  | 0x0041 =>
    let kind := payFld bs 0 1
    (kind != 0 && someByte bs 1 1) || (kind != 2 && someByte bs 2 2) || (kind == 1 && someByte bs 4 4)
      || (if kind = 0 then someByte bs 8 4 else payFld bs 8 4 / 2 ^ 20 != 0) || someByte bs 14 2
  | 0x0050 =>
    let place := payFld bs 13 1
    payFld bs 12 1 / 8 != 0 || (place != 6 && (someByte bs 14 2 || someByte bs 24 4)) || (!(decide (3 ≤ place) && decide (place ≤ 6)) && someByte bs 16 8)
      || someByte bs 28 20
  | 0x0051 => someByte bs 12 4
  | 0x0052 => someByte bs 12 4
  | 0x0053 => someByte bs 16 8 || (payFld bs 2 2 == 0 && (someByte bs 1 1 || someByte bs 4 12))
  | 0x0060 => someByte bs 8 8
  | 0x0070 => tickReserved bs
  | 0x0080 => someByte bs 2 6 || (payFld bs 1 1 != 1 && someByte bs 8 40)
  | 0x0090 => payFld bs 4 1 / 4 != 0 || someByte bs 6 10
  | 0x00A0 => someByte bs 3 1 || (payFld bs 2 1 != 2 && someByte bs 6 2)
  | 0x00A1 => someByte bs 1 7 || (payFld bs 0 1 != 4 && payFld bs 0 1 != 5 && someByte bs 8 8)
  | _ => false

/-! ### Objects (R390, R391) -/

inductive ObjKind where
  | queue | stream | layout | pool | plot | window | channel | subChannel | key | partition
  deriving DecidableEq, Repr

/-- An object that a request names: numbers `lo` to `hi` of a kind, in a partition where those are numbered by partition. -/
structure Obj where
  kind : ObjKind
  part : Nat
  lo : Nat
  hi : Nat
  deriving DecidableEq, Repr

def overlaps (a b : Obj) : Bool := a.kind == b.kind && a.part == b.part && decide (a.lo ≤ b.hi) && decide (b.lo ≤ a.hi)

/-- Plots from an address, `n` of them. -/
def plotRun (p va n : Nat) : Obj := ⟨.plot, p, va / plotBytes, va / plotBytes + n - 1⟩

/-- A run of numbers of a kind that is numbered across the device. -/
def runOf (k : ObjKind) (first n : Nat) : Obj := ⟨k, 0, first, first + max 1 n - 1⟩

/-- What PARTITION_CONFIG names: the partition, its queues and streams, drill channels, and the channels of its groups (Table 17-2). -/
def configObjects (bs : List Byte) : List Obj :=
  let bits (n : Nat) (mask : Nat) : List Nat := (List.range n).filter (bitOf mask)
  [⟨.partition, payFld bs 0 1, 0, 0⟩, runOf .queue (payFld bs 24 2) (payFld bs 26 2), runOf .stream (payFld bs 28 4 % 2 ^ 20) (payFld bs 32 4)]
    ++ (bits 16 (payFld bs 6 2)).map (runOf .channel · 1) ++ (bits 24 (payFld bs 8 4)).map fun g => runOf .subChannel (8 * g) 8

/-- The objects that a request's body names, for a function of partition `p`. A body too short to hold a name names nothing with it. -/
def objectsOf (code p : Nat) (bs : List Byte) : List Obj :=
  let one (k : ObjKind) (i : Nat) : List Obj := [⟨k, p, i, i⟩]
  let named (n : Nat) (os : List Obj) : List Obj := if n ≤ bs.length then os else []
  match code with
  | 0x0010 => named 64 (configObjects bs)
  | 0x0011 => [⟨.partition, payFld bs 0 1, 0, 0⟩]
  | 0x0020 => named 2 [runOf .queue (payFld bs 0 2) 1] ++ (if payFld bs 2 1 = 2 then named 6 [runOf .channel (payFld bs 5 1) 1] else [])
  | 0x0021 => named 2 [runOf .queue (payFld bs 0 2) 1]
  | 0x0022 => named 2 [runOf .queue (payFld bs 0 2) 1]
  | 0x0023 => named 17 [runOf .queue (payFld bs 16 1) 1]
  | 0x0030 => one .layout (payFld bs 0 1)
  | 0x0031 => named 8 [runOf .stream (payFld bs 0 4 % 2 ^ 20) (payFld bs 4 4)]
  | 0x0040 => one .pool (payFld bs 0 1)
  | 0x0041 => if payFld bs 0 1 = 0 then one .pool (payFld bs 1 1) else named 12 [runOf .stream (payFld bs 8 4 % 2 ^ 20) 1]
  | 0x0050 => [plotRun p (payFld bs 0 8) (payFld bs 8 4)]
  | 0x0051 => [plotRun p (payFld bs 0 8) (payFld bs 8 4)]
  | 0x0052 => [plotRun p (payFld bs 0 8) (payFld bs 8 4)]
  | 0x0053 => [⟨.window, p, payFld bs 0 1, payFld bs 0 1⟩, plotRun p (payFld bs 8 8) (payFld bs 2 2 * payFld bs 4 4)]
  | 0x0060 => [runOf .subChannel (payFld bs 0 2) 1]
  | 0x0080 => one .key (payFld bs 0 1)
  | _ => []

/-- Step 2: a queue, stream or drill channel that a request names belongs to its partition. DEDUCED, log entry 187. -/
def objOwned (P : Partition) (o : Obj) : Bool :=
  match o.kind with
  | .queue => decide (P.cfg.firstQueue ≤ o.lo) && decide (o.lo < P.cfg.firstQueue + P.cfg.queues)
  | .stream => inRange P o.lo && inRange P o.hi
  | .channel => bitOf P.cfg.drillMask o.lo
  | _ => true

/-- The objects named by the request in a mailbox. -/
def mailboxObjects (s : State) (fn m : Nat) : List Obj :=
  let M := mbxOf s fn m
  match reqBody s fn M with
  | .ok bs => objectsOf (reqCode M) ((fnPart s fn).getD 0) bs
  | .error _ => []

/-- R390: whether a request that was posted earlier and has not been replied names one of this request's objects. -/
def blocked (s : State) (fn m : Nat) : Bool :=
  let M := mbxOf s fn m
  let mine := mailboxObjects s fn m
  (List.range 5).any fun f => (List.range 8).any fun i =>
    let N := mbxOf s f i
    (N.state == .posted || N.state == .taken) && decide (N.order < M.order)
      && (mailboxObjects s f i).any fun o => mine.any (overlaps o)

/-! ### The checks (R391) -/

/-- Steps 1 to 5: the first failure is the reply's status. -/
def requestFail (s : State) (fn : Nat) (M : Mailbox) (bs : List Byte) : Option Status :=
  let code := reqCode M
  let needsPart := code != 0x0001 && lookupKey code requestCodes == some false
  let owned : Bool := match fnPart s fn with
    | some p => (objectsOf code p bs).all (objOwned (partOf s p))
    | none => false
  if (lookupKey code requestCodes).isNone then some .loadBadOpcode
  else if (lookupKey code requestCodes == some true && fn != 0) || (needsPart && !owned) then some .secPartition
  else if !lengthInRange M || !lengthFits code (bodyLength M) (reqIndirect M) bs then some .loadBadLength
  else if fld (reqHdr M) 17 15 != 0 || fld (reqHdr M) 48 16 != 0 || (reqIndirect M && someByte (reqPayload M) 12 4)
      || bodyReserved code bs then some .loadReservedNonzero
  else if reqIndirect M && !bufferOk s fn M then some .loadBounds
  else none

/-- R521: requests that use the command path. DEDUCED, log entry 98. -/
def commandPath (code : Nat) : Bool := code == 0x0011 || (decide (0x0020 ≤ code) && decide (code ≤ 0x0023))

/-! ### The reply -/

/-- The details of a reply: the spec gives a refusal of class 0x1 none but the tier of LOAD_QUOTA, so they are free values.
DESIGN CHOICE, log entry 95. -/
def replyDetails (s : State) (r : Reply) : Nat × Nat × State :=
  if statusClass r.status = 1 then
    let (k, s1) := takeFree s 2
    ((Config.freeWord k).toNat, (if r.status = .loadQuota then r.b else (Config.freeWord (k + 1)).toNat), s1)
  else (r.a, r.b, s)

/-- The reply's header (R389). -/
def replyHeader (M : Mailbox) (st n a b : Nat) : List Byte :=
  toLe 32 (putFld st 0 16 + putFld n 32 16 + putFld (reqTag M) 64 64 + putFld a 128 32 + putFld b 160 32)

/-- The reply body goes back into an indirect request's buffer. -/
def writeIndirect (s : State) (fn : Nat) (M : Mailbox) (bs : List Byte) : State :=
  match fnPart s fn with
  | some p => (match storeOnce s p noQueueIndex (indAddr M) bs with | .ok s1 => s1 | .error _ => s)
  | none => s

/-- Firmware replies (R389): the body, then the header and REPLIED; the mailbox interrupt follows when it is asked for
(Table 16-4, R439). -/
def answer (s : State) (fn m : Nat) (r : Reply) : State :=
  let M := mbxOf s fn m
  let (a, b, s1) := replyDetails s r
  let body := r.body.take (replyRoom M)
  let s2 := if reqIndirect M && !body.isEmpty then writeIndirect s1 fn M body else s1
  let s3 := setMbx s2 fn m fun x => { x with
    state := .replied
    lastStatus := statusCode r.status
    held := none
    begun := false
    reply := replyHeader M (statusCode r.status) body.length a b ++ (if reqIndirect M then [] else body) }
  if M.irq then raiseMsix s3 fn 0 else s3

/-- What a request asks to be done: its function and mailbox, its partition, its body and the room for its reply. -/
structure Asked where
  fn : Nat
  box : Nat
  part : Nat
  body : List Byte
  room : Nat
  indirect : Bool
  deriving DecidableEq, Repr

/-- Firmware reads the body of an indirect request: a use of the plots it lies in (R310). -/
def useBody (s : State) (fn : Nat) (M : Mailbox) : State :=
  match fnPart s fn with
  | some p => if reqIndirect M && lengthInRange M && bufferOk s fn M then useReads s p [(indAddr M, indLength M)] else s
  | none => s

/-- A request that has been taken: it is checked, carried out and replied; one that firmware has not finished yet stays TAKEN. A body that
cannot be read ends it after steps 1 to 5. -/
def carryOut (s0 : State) (fn m : Nat) (run : State → Asked → Option Reply × State) : State :=
  let M := mbxOf s0 fn m
  let s := if M.begun then s0 else useBody s0 fn M
  match requestFail s fn M (match reqBody s fn M with | .ok bs => bs | .error _ => []) with
  | some st => answer s fn m (plain st)
  | none =>
    match reqBody s fn M with
    | .error f => answer s fn m ⟨f.status, f.a, f.b, []⟩
    | .ok bs =>
      if commandPath (reqCode M) && s.flt.halted then answer s fn m (plain .faultUnrecovered)
      else match run s ⟨fn, m, (fnPart s fn).getD 0, bs, replyRoom M, reqIndirect M⟩ with
        | (some r, s1) => answer s1 fn m r
        | (none, s1) => s1

/-- A request of a code (R390): firmware takes it while it serves, once no earlier request names a common object; one already
taken is finished during a handoff too (R511). A request whose code is not listed is answered as well. -/
def serve (s : State) (fn m code : Nat) (run : State → Asked → Option Reply × State) : State :=
  let M := mbxOf s fn m
  let up := s.boot.dev == .run && s.boot.fwAlive
  let waits : Bool := (M.state == .posted && fwServes s) || (M.state == .taken && M.held.isNone && up)
  let mine : Bool := reqCode M == code || (lookupKey (reqCode M) requestCodes).isNone
  if decide (fn < 5) && decide (m < 8) && waits && mine && !blocked s fn m then
    carryOut (setMbx s fn m fun x => { x with state := .taken }) fn m run
  else s

end Sys2Proof.Machine
end

