-- ==== Sys2Proof/Machine/PartRequests.lean ====
section
/-! DEFINITION. Requests about partitions and queues: PARTITION_CONFIG and PARTITION_REMOVE (R394 to R400), QUEUE_ENABLE,
QUEUE_DISABLE and QUEUE_RESUME (R401, R402), and QUEUE_ABORT (R392). -/

namespace Sys2Proof.Machine

/-! ### PARTITION_CONFIG -/

/-- A field whose 0 selects a default (R396). -/
def orDefault (x d : Nat) : Nat := if x = 0 then d else x

/-- Set bits of a mask. -/
def countBits (n mask : Nat) : Nat := (bitsOf n mask).length

/-- The configuration that a payload of Table 17-2 spells. -/
def cfgOf (bs : List Byte) : PartCfg :=
  let f (off n : Nat) : Nat := payFld bs off n
  { repeatable := bitOf (f 1 1) 0, zg40 := bitOf (f 1 1) 1, abandon := bitOf (f 1 1) 2, bindPf := bitOf (f 1 1) 3
    firstCol := f 2 1, cols := f 3 1, vfMask := f 4 2, drillMask := f 6 2, groupMask := f 8 4, extraWays := f 12 12
    firstQueue := f 24 2, queues := f 26 2, firstStream := f 28 4, streams := f 32 4
    quotaLoam := f 36 4, quotaSub := f 40 4, quotaFar := f 44 4
    regRate := orDefault (f 48 2) (512 * countBits 24 (f 8 4)), regBurst := orDefault (f 50 2) 256
    hostTimeout := orDefault (f 52 2) 10, remoteTimeout := orDefault (f 54 2) 50
    promote := orDefault (f 56 2) 64, demote := orDefault (f 58 2) 4, moveLimit := orDefault (f 60 2) 256
    beBound := orDefault (f 62 2) 500 }

/-- Whether a payload's field is neither 0 nor in a range. -/
def outside (x lo hi : Nat) : Bool := x != 0 && (decide (x < lo) || decide (hi < x))

/-- Ranges of two runs of numbers overlap. -/
def runsMeet (a n b m : Nat) : Bool := decide (a < b + m) && decide (b < a + n)

/-- R397.1: already configured, or a field out of range; an extra way lies beneath a disabled furrow. DEDUCED, log entry 101. -/
def cfgOutOfRange (s : State) (p : Nat) (c : PartCfg) (bs : List Byte) : Bool :=
  let f (off n : Nat) : Nat := payFld bs off n
  decide (3 < p) || (partOf s p).configured || decide (11 < c.firstCol) || c.cols == 0 || decide (12 < c.firstCol + c.cols)
    || decide (255 < c.firstQueue) || c.queues == 0 || decide (256 < c.firstQueue + c.queues)
    || c.firstStream % 4096 != 0 || c.streams % 4096 != 0 || c.streams == 0 || decide (2 ^ 20 < c.firstStream + c.streams)
    || outside (f 48 2) 16 12288 || outside (f 50 2) 16 4096 || outside (f 52 2) 1 1000 || outside (f 54 2) 1 1000
    || outside (f 62 2) 50 65535 || (bitsOf 96 c.extraWays).any fun w => furrowEnabled s w

/-- R397.2: a named column or group is disabled by the profile, or a group has failed. -/
def cfgDisabled (s : State) (c : PartCfg) : Bool :=
  (rangeFrom c.firstCol c.cols).any (fun col => !furrowEnabled s col)
    || (bitsOf 24 c.groupMask).any fun g => decide (stackCount s ≤ g / 4) || groupFailed s g

/-- Whether two configurations claim one resource. -/
def cfgMeets (c d : PartCfg) : Bool :=
  runsMeet c.firstCol c.cols d.firstCol d.cols || (waysOf c).any (waysOf d).contains
    || (bitsOf 24 c.groupMask).any (bitOf d.groupMask) || (bitsOf 16 c.drillMask).any (bitOf d.drillMask)
    || runsMeet c.firstQueue c.queues d.firstQueue d.queues || runsMeet c.firstStream c.streams d.firstStream d.streams
    || (bitsOf 4 c.vfMask).any (bitOf d.vfMask) || (c.bindPf && d.bindPf)

/-- R397.3: a resource is held by a configured partition. -/
def cfgTaken (s : State) (c : PartCfg) : Bool := s.parts.any fun P => P.configured && cfgMeets c P.cfg

/-- Loam units in ways: 16 for each frame that can be allocated (R303, Table 17-2); the frames of a failed slice leave its way (R517).
DEDUCED, log entry 102. -/
def loamCapacity (s : State) (ways : List Nat) : Nat := 16 * (752 * (ways.filter fun w => !s.flt.slices.contains w).length)

/-- Subsoil units in a mask's groups (Table 17-2). -/
def subCapacity (s : State) (groupMask : Nat) : Nat := 8388608 * ((bitsOf 24 groupMask).filter fun g => !groupFailed s g).length

/-- R397, in order. -/
def cfgRefusal (s : State) (p : Nat) (c : PartCfg) (bs : List Byte) : Option Reply :=
  if cfgOutOfRange s p c bs then some (plain .loadBadShape)
  else if cfgDisabled s c then some (plain .loadUnitDisabled)
  else if cfgTaken s c then some (plain .loadBadShape)
  else if loamCapacity s (waysOf c) < c.quotaLoam then some ⟨.loadQuota, 0, 1, []⟩
  else if subCapacity s c.groupMask < c.quotaSub then some ⟨.loadQuota, 0, 2, []⟩
  else none

/-- Forget the pages of a partition in the shadow (R565). -/
def dropPages (s : State) (p : Nat) : State :=
  { s with shadow := s.shadow.filter fun e => decide (e.1 < 16 + 4 * p) || decide (20 + 4 * p ≤ e.1) }

/-- Streams of a run of identifiers become FREE; residents leave their cohorts. -/
def freeStreams (s : State) (lo n : Nat) : State :=
  let ids := (s.streams.filter fun e => decide (lo ≤ e.1) && decide (e.1 < lo + n)).map (·.1)
  let s1 := ids.foldl leaveCohort s
  { s1 with streams := s1.streams.filter fun e => !ids.contains e.1 }

/-- Tilth and loam of a new partition are cleared (R497). -/
def clearField (s : State) (c : PartCfg) : State :=
  let cols (f : Nat) : Bool := decide (c.firstCol ≤ f % 12) && decide (f % 12 < c.firstCol + c.cols)
  let ways := waysOf c
  let held := (List.range 4).flatMap (usedLoamFrames s)
  let ofWay (a : Nat) : Bool := decide (loamBase ≤ a) && decide (a < loamBase + 96 * 768 * plotBytes) && ways.contains ((a - loamBase) / plotBytes / 768)
    && !held.contains ((a - loamBase) / plotBytes)
  { s with
    field := { s.field with tilth := s.field.tilth.filter fun x => !cols (x.1 / 0x300000) }
    mem := { s.mem with
      phys := s.mem.phys.filter fun x => !ofWay x.1
      poison := s.mem.poison.filter fun l => !ofWay (l * 64) } }

/-- R398: everything that an accepted PARTITION_CONFIG puts into effect; the shares of the write-combining buffer become smaller (R337).
DEDUCED, log entry 100. -/
def partitionConfigured (s : State) (p : Nat) (c : PartCfg) (bs : List Byte) : State :=
  let (k, s0) := takeFree s 1
  let s1 := clearField (freeStreams (dropPages s0 p) c.firstStream c.streams) c
  let s2 := setPart s1 p fun _ => { noPartition with
    configured := true, cfg := c, digest := Config.sha384 bs, tokens := c.regBurst * 4096 * 8, tokenTime := s.now, key := some (Config.freeKey k) }
  let s3 := (bitsOf 16 c.drillMask).foldl (fun x n => setChannel x n fun ch => { ch with part := some p, disable := false, st := .idle }) s2
  trimAll { s3 with boot := { s3.boot with testMode := false } }

/-- PARTITION_CONFIG. -/
def runPartitionConfig (s : State) (a : Asked) : Option Reply × State :=
  let p := payFld a.body 0 1
  let c := cfgOf a.body
  match cfgRefusal s p c a.body with
  | some r => (some r, s)
  | none => (some (plain .completed), partitionConfigured s p c a.body)

def execPartitionConfig (fn m : Nat) (s : State) : Host.Outcome State Fault Refusal := .next (serve s fn m 0x0010 runPartitionConfig)

/-! ### PARTITION_REMOVE (R400) -/

/-- The five steps. -/
def partitionRemoved (s : State) (p : Nat) : State :=
  let c := (partOf s p).cfg
  let s1 := disableWhere s fun Q => Q.cfg.part == p
  let s2 := (bitsOf 16 c.drillMask).foldl (fun x n => setChannel (disableChannel x n) n fun ch => { ch with part := none }) s1
  let s3 := freeStreams (drainWhere s2 fun e => e.part == p) c.firstStream c.streams
  let s4 := { s3 with
    mem := { s3.mem with moves := s3.mem.moves.filter (·.part != p) }
    net := { s3.net with qps := s3.net.qps.filter fun e => e.2.part != p } }
  setPart (dropPages s4 p) p fun _ => noPartition

/-- PARTITION_REMOVE. -/
def runPartitionRemove (s : State) (a : Asked) : Option Reply × State :=
  let p := payFld a.body 0 1
  if 3 < p ∨ (partOf s p).configured = false then (some (plain .loadBadShape), s)
  else (some (plain .completed), partitionRemoved s p)

def execPartitionRemove (fn m : Nat) (s : State) : Host.Outcome State Fault Refusal := .next (serve s fn m 0x0011 runPartitionRemove)

/-! ### Queues -/

/-- The properties that QUEUE_ENABLE gives a queue (R401). -/
def queueCfgOf (a : Asked) : QueueCfg :=
  let f (off n : Nat) : Nat := payFld a.body off n
  { kind := f 2 1, part := a.part, be := bitOf (f 3 1) 0, halt := bitOf (f 3 1) 1, ringLog2 := f 4 1, channel := f 5 1, vector := f 6 2
    base := f 8 8, owner := a.fn }

/-- R401, R439: fields in range, the queue not enabled, and a channel of the partition's. DEDUCED, log entry 97. -/
def enableShape (s : State) (q : Nat) (c : QueueCfg) : Bool :=
  decide (255 < q) || (queueOf s q).state != .disabled || c.kind == 0 || decide (4 < c.kind) || decide (c.ringLog2 < 12)
    || decide (24 < c.ringLog2) || decide (c.vector < 2) || decide (63 < c.vector)
    || (c.kind == 2 && (decide (15 < c.channel) || (channelNo s c.channel).part != some c.part))

/-- QUEUE_ENABLE (R401): the queue starts EMPTY, its counts and counters at 0. -/
def runQueueEnable (s : State) (a : Asked) : Option Reply × State :=
  let q := payFld a.body 0 2
  let c := queueCfgOf a
  if enableShape s q c then (some (plain .loadBadShape), s)
  else if c.base % 4096 ≠ 0 then (some (plain .loadAlign), s)
  else if !mappedRead s c.part c.base (2 ^ c.ringLog2) then (some (plain .loadBounds), s)
  else (some (plain .completed), setQueue s q fun _ => { noQueue with cfg := c, state := .empty })

def execQueueEnable (fn m : Nat) (s : State) : Host.Outcome State Fault Refusal := .next (serve s fn m 0x0020 runQueueEnable)

/-- QUEUE_DISABLE (R402). -/
def runQueueDisable (s : State) (a : Asked) : Option Reply × State :=
  let q := payFld a.body 0 2
  if 255 < q then (some (plain .loadBadShape), s) else (some (plain .completed), disableQueue s q)

def execQueueDisable (fn m : Nat) (s : State) : Host.Outcome State Fault Refusal := .next (serve s fn m 0x0021 runQueueDisable)

/-- QUEUE_RESUME (R402): a HALTED queue goes to FETCH, or to EMPTY when head equals tail. -/
def runQueueResume (s : State) (a : Asked) : Option Reply × State :=
  let q := payFld a.body 0 2
  if 255 < q ∨ (queueOf s q).state ≠ .halted then (some (plain .loadBadShape), s)
  else (some (plain .completed), setQueue s q fun Q => { Q with state := if ringDiff Q.tail Q.head = 0 then .empty else .fetch, since := s.now })

def execQueueResume (fn m : Nat) (s : State) : Host.Outcome State Fault Refusal := .next (serve s fn m 0x0022 runQueueResume)

/-- QUEUE_ABORT (R392): the reply holds the count of commands ended. -/
def runQueueAbort (s : State) (a : Asked) : Option Reply × State :=
  let first := payFld a.body 0 8
  let last := payFld a.body 8 8
  if last < first then (some ⟨.loadBadShape, 0, 0, toLe 4 0⟩, s)
  else
    let (st, n, s1) := abortRange s (payFld a.body 16 1) first last
    (some ⟨st, 0, 0, toLe 4 n⟩, s1)

def execQueueAbort (fn m : Nat) (s : State) : Host.Outcome State Fault Refusal := .next (serve s fn m 0x0023 runQueueAbort)

end Sys2Proof.Machine
end

