-- ==== Sys2Proof/Machine/MemRequests.lean ====
section
/-! DEFINITION. Requests about memory and streams: PLOT_MAP, PLOT_UNMAP and PLOT_QUERY (R309, R313, R568 to R570), WINDOW_SET
(R319, R571), LAYOUT_SET and STREAM_QUERY (R231, R572, R573), KV_POOL_SET and KV_QUERY (R254, R256, R574, R575). -/

namespace Sys2Proof.Machine

/-! ### Address tests (R568) -/

/-- The tests that come before any other of a request's own, for a range of `n` plots at `va`. -/
def rangeRefusal (va n : Nat) : Option Reply :=
  if va % plotBytes ≠ 0 then some (plain .loadAlign)
  else if va = 0 ∨ 2 ^ 48 < va + n * plotBytes then some (plain .loadBadShape)
  else none

/-- A run that a plot request names by its count, 1 to 16,777,215. -/
def runRefusal (va n : Nat) : Option Reply :=
  match rangeRefusal va n with
  | some r => some r
  | none => if n = 0 ∨ 2 ^ 24 ≤ n then some (plain .loadBadShape) else none

/-! ### PLOT_MAP -/

def mapVa (bs : List Byte) : Nat := payFld bs 0 8
def mapCount (bs : List Byte) : Nat := payFld bs 8 4
def mapFlags (bs : List Byte) : Nat := payFld bs 12 1
def mapPlace (bs : List Byte) : Nat := payFld bs 13 1
def mapQp (bs : List Byte) : Nat := payFld bs 14 2
def mapWhere (bs : List Byte) : Nat := payFld bs 16 8
def mapKey (bs : List Byte) : Nat := payFld bs 24 4

/-- Whether a loam frame can be taken where it is named: in the partition's ways, allocatable, free and not retired. -/
def loamFrameFree (s : State) (p f : Nat) : Bool := (partSlices s (partOf s p)).contains (f / 768) && (freeInSlice s (f / 768)).contains f

/-- Whether a subsoil frame lies in the range that the profile leaves unbacked (R5). -/
def frameUnbacked (s : State) (f : Nat) : Bool := !backedFrame (stackCount s) f && decide (f < 24 * 524288)

/-- Whether a subsoil frame can be taken where it is named; one of the unbacked range can as well (R309). -/
def subFrameFree (s : State) (p f : Nat) : Bool :=
  let g := f / 524288
  !((List.range 4).flatMap (usedSubFrames s)).contains f && (frameUnbacked s f || (bitOf (partOf s p).cfg.groupMask g && decide (g < 24) && !groupFailed s g))

/-- The homes of a run of `n` plots as the placement gives them; fewer than `n` where frames are lacking. -/
def mapHomes (s : State) (p : Nat) (bs : List Byte) : List Home :=
  let n := mapCount bs
  let w := mapWhere bs
  match mapPlace bs with
  | 1 => (freeLoam s n (partSlices s (partOf s p))).map .loam
  | 2 => (freeSub s p n).map .subsoil
  | 3 => (rangeFrom w n).map .loam
  | 4 => (rangeFrom w n).map fun f => if frameUnbacked s f then .unbacked f else .subsoil f
  | 5 => List.replicate n .host
  | _ => List.replicate n .remote

/-- Whether a placement or its frames or queue pair is refused (R568). -/
def placeRefused (s : State) (p : Nat) (bs : List Byte) : Bool :=
  let n := mapCount bs
  let w := mapWhere bs
  match mapPlace bs with
  | 1 => false
  | 2 => false
  | 3 => (rangeFrom w n).any fun f => !loamFrameFree s p f
  | 4 => (rangeFrom w n).any fun f => !subFrameFree s p f
  | 5 => false
  | 6 => !qpReadyIn s p (mapQp bs)
  | _ => true

/-- Plots that are mapped already. -/
def anyMapped (P : Partition) (k n : Nat) : Bool := P.plots.any fun e => decide (k ≤ e.1) && decide (e.1 < k + n)

/-- Units by which the plot-entry pages grow as `n` more plots are mapped (Table 13-8). -/
def entryGrowth (P : Partition) (n : Nat) : Nat := entryPages (P.plots.length + n) - entryPages P.plots.length

def homesUnits (hs : List Home) : Nat × Nat := ((hs.map fun h => (homeUnits h).1).foldl (· + ·) 0, (hs.map fun h => (homeUnits h).2).foldl (· + ·) 0)

/-- The quota that a mapping would exceed, as its tier (R318). -/
def mapQuota (P : Partition) (place n : Nat) (hs : List Home) : Option Nat :=
  if loamLeft P < (homesUnits hs).1 + entryGrowth P n ∨ (place = 1 ∧ hs.length < n) then some 1
  else if subLeft P < (homesUnits hs).2 ∨ (place = 2 ∧ hs.length < n) then some 2
  else if 5 ≤ place ∧ P.cfg.quotaFar < P.anchors.length + n then some 3
  else none

/-- Why a PLOT_MAP is refused, in order. -/
def mapRefusal (s : State) (p fn : Nat) (bs : List Byte) : Option Reply :=
  let P := partOf s p
  let n := mapCount bs
  if mapVa bs % plotBytes ≠ 0 ∨ (mapPlace bs = 5 ∧ mapWhere bs % 4096 ≠ 0) then some (plain .loadAlign)
  else match runRefusal (mapVa bs) n with
    | some r => some r
    | none =>
      if placeRefused s p bs || anyMapped P (mapVa bs / plotBytes) n then some (plain .loadBadShape)
      else if mapPlace bs = 5 ∧ bitOf s.sec.ideRequired p = true
          ∧ (ideCovers s fn (mapWhere bs) && ideCovers s fn (mapWhere bs + n * plotBytes - 1)) = false then some (plain .secKeyAbsent)
      else (mapQuota P (mapPlace bs) n (mapHomes s p bs)).map fun t => ⟨.loadQuota, 0, t, []⟩

/-- A frame is written to zero before its mapping takes effect (R309). -/
def zeroFrame (s : State) (h : Home) : State :=
  match frameAddr h with
  | none => s
  | some a =>
    let outside (l : Nat) : Bool := decide (l < a / 64) || decide (a / 64 + 1024 ≤ l)
    keyWhole { s with mem := { s.mem with
        phys := memClear s.mem.phys a plotBytes, poison := s.mem.poison.filter outside, wcb := s.mem.wcb.filter fun e => outside e.line } } a

/-- The anchor of plot `i` of a run. -/
def anchorAt (bs : List Byte) (fn i : Nat) : Anchor :=
  if mapPlace bs = 5 then .host (mapWhere bs + i * plotBytes) fn else .remote (mapQp bs) (mapKey bs) (mapWhere bs + i * plotBytes)

/-- Map one plot of a run. -/
def mapPlot (p fn : Nat) (bs : List Byte) (s : State) (i : Nat) (h : Home) : State :=
  let anchored : Bool := decide (5 ≤ mapPlace bs)
  let slot := (lowestFree ((partOf s p).anchors.map (·.1)) (2 ^ 24)).getD 0
  let pl : Plot := {
    home := h, anchor := if anchored then some slot else none
    read := bitOf (mapFlags bs) 0, write := bitOf (mapFlags bs) 1, auto := bitOf (mapFlags bs) 2, moving := false, uses := 0, lastUse := 0 }
  setPart (zeroFrame s h) p fun P => { P with
    plots := insertKey (mapVa bs / plotBytes + i) pl P.plots
    anchors := if anchored then insertKey slot (anchorAt bs fn i) P.anchors else P.anchors }

/-- The whole run is mapped and charged. -/
def plotsMapped (s : State) (p fn : Nat) (bs : List Byte) : State :=
  let hs := mapHomes s p bs
  let s1 := charge s p ((homesUnits hs).1 + entryGrowth (partOf s p) (mapCount bs)) (homesUnits hs).2
  hs.zipIdx.foldl (fun x hi => mapPlot p fn bs x hi.2 hi.1) s1

/-- PLOT_MAP. -/
def runPlotMap (s : State) (a : Asked) : Option Reply × State :=
  match mapRefusal s a.part a.fn a.body with
  | some r => (some r, s)
  | none => (some (plain .completed), plotsMapped s a.part a.fn a.body)

def execPlotMap (fn m : Nat) (s : State) : Host.Outcome State Fault Refusal := .next (serve s fn m 0x0050 runPlotMap)

/-! ### PLOT_UNMAP and PLOT_QUERY -/

/-- Whether the request of a mailbox still has plots to unmap. -/
def unmapsLeft (s : State) (fn box : Nat) : Bool := s.mem.moves.any fun m => m.cause == .unmap fn box

/-- An unmap takes its place in a plot's order, behind the moves that have reached it (R313). -/
def queueUnmap (p fn box : Nat) (s : State) (k : Nat) : State :=
  let m : Move := { part := p, plot := k, dest := .host, cause := .unmap fn box, index := 0, active := false, writes := [] }
  { s with mem := { s.mem with moves := s.mem.moves ++ [m] } }

/-- PLOT_UNMAP (R313, R569): the whole run or nothing, each plot at once or when the moves before it on that plot have ended; the request
stays TAKEN until the last. DEDUCED, log entry 107. -/
def runPlotUnmap (s : State) (a : Asked) : Option Reply × State :=
  let va := payFld a.body 0 8
  let n := payFld a.body 8 4
  let P := partOf s a.part
  let lo := va / plotBytes
  if (mbxOf s a.fn a.box).begun then (if unmapsLeft s a.fn a.box then none else some (plain .completed), s)
  else match runRefusal va n with
  | some r => (some r, s)
  | none =>
    if !plotsOk P lo (lo + n - 1) (fun _ => true) then (some (plain .loadBounds), s)
    else if !plotsOk P lo (lo + n - 1) (fun pl => match pl.home with | .window _ => false | _ => true) then (some (plain .loadBadShape), s)
    else
      let run := (P.plots.filter fun e => decide (lo ≤ e.1) && decide (e.1 < lo + n)).map (·.1)
      let s1 := runMover (run.foldl (queueUnmap a.part a.fn a.box) s)
      if unmapsLeft s1 a.fn a.box then (none, setMbx s1 a.fn a.box fun x => { x with begun := true }) else (some (plain .completed), s1)

def execPlotUnmap (fn m : Nat) (s : State) : Host.Outcome State Fault Refusal := .next (serve s fn m 0x0051 runPlotUnmap)

/-- The home field of a plot entry, with the frame field's content. -/
def homeFields (pl : Plot) : Nat × Nat :=
  match pl.home with
  | .loam f => (1, f)
  | .subsoil f => (2, f)
  | .host => (3, pl.anchor.getD 0)
  | .remote => (4, pl.anchor.getD 0)
  | .unbacked f => (5, f)
  | .window w => (6, w)

/-- A plot entry (Table 13-4); an unmapped plot reads as 0. -/
def plotBits (e : Option Plot) : Nat :=
  match e with
  | none => 0
  | some pl =>
    let (home, frame) := homeFields pl
    putFld (pl.anchor.getD 0) 104 24 + putFld frame 80 24 + putFld pl.uses 64 16 + putFld pl.lastUse 16 48 + bit pl.anchor.isSome 9
      + bit pl.moving 8 + bit pl.write 7 + bit pl.read 6 + bit pl.auto 4 + putFld home 0 4

/-- PLOT_QUERY (R570). -/
def runPlotQuery (s : State) (a : Asked) : Option Reply × State :=
  let va := payFld a.body 0 8
  let n := payFld a.body 8 4
  match runRefusal va n with
  | some r => (some r, s)
  | none =>
    if a.room / 16 < n then (some (plain .loadBadShape), s)
    else (some ⟨.completed, 0, 0, (rangeFrom (va / plotBytes) n).flatMap fun k => toLe 16 (plotBits (plotOf s a.part k))⟩, s)

def execPlotQuery (fn m : Nat) (s : State) : Host.Outcome State Fault Refusal := .next (serve s fn m 0x0052 runPlotQuery)

/-! ### WINDOW_SET -/

def wsDepth (bs : List Byte) : Nat := payFld bs 1 1
def wsPositions (bs : List Byte) : Nat := payFld bs 2 2
def wsPlots (bs : List Byte) : Nat := payFld bs 4 4
def wsBase (bs : List Byte) : Nat := payFld bs 8 8

/-- Whether a window has an executing fill or reader (R319, R321). -/
def windowBusy (s : State) (p w : Nat) : Bool :=
  s.queues.any fun Q => Q.cfg.part == p && Q.state == .run && (match Q.cmd with
    | some c => (hOpcode c.hdr == 0x220 && wfWin c.body == w) || c.windows.any (·.1 == w)
    | none => false)

/-- Units of a window's slots and of its share of the plot-entry pages. -/
def windowSlotUnits (w : Window) : Nat := 16 * w.slots.length * w.slotPlots

/-- A window is removed: its range is unmapped, its slots and their quota are freed (R571). -/
def windowRemoved (s : State) (p w : Nat) : State :=
  match lookupKey w (partOf s p).windows with
  | none => s
  | some win =>
    let P := partOf s p
    let left := P.plots.filter fun e => e.2.home != .window w
    setPart (uncharge s p (windowSlotUnits win + (entryPages P.plots.length - entryPages left.length)) 0) p fun X =>
      { X with plots := left, windows := eraseKey w X.windows }

/-- Frames taken one from each slice in turn (R319). -/
def roundRobin : Nat → List (List Nat) → List Nat
  | 0, _ => []
  | n + 1, ls => if ls.all (·.isEmpty) then [] else ls.filterMap List.head? ++ roundRobin n (ls.map List.tail)

/-- The frames of a new window's slots, in order. -/
def windowFrames (s : State) (p n : Nat) : List Nat :=
  (roundRobin 752 ((partSlices s (partOf s p)).map (freeInSlice s))).take n

/-- A window is set: range, slots, charges. -/
def windowMade (s : State) (p w : Nat) (bs : List Byte) : State :=
  let n := wsPositions bs * wsPlots bs
  let frames := windowFrames s p (wsDepth bs * wsPlots bs)
  let slots := (List.range (wsDepth bs)).map fun i => (⟨(frames.drop (i * wsPlots bs)).take (wsPlots bs), .empty, []⟩ : WinSlot)
  let pl : Plot := { home := .window w, anchor := none, read := true, write := false, auto := false, moving := false, uses := 0, lastUse := 0 }
  let s1 := charge s p (16 * wsDepth bs * wsPlots bs + entryGrowth (partOf s p) n) 0
  let s2 := frames.foldl (fun x f => zeroFrame x (.loam f)) s1
  setPart s2 p fun P => { P with
    plots := (rangeFrom (wsBase bs / plotBytes) n).foldl (fun ps k => insertKey k pl ps) P.plots
    windows := insertKey w { base := wsBase bs / plotBytes, positions := wsPositions bs, slotPlots := wsPlots bs, slots := slots, fills := 0 } P.windows }

/-- Why a WINDOW_SET that sets a window is refused, in a state in which the old one is gone. -/
def windowRefusal (s : State) (p : Nat) (bs : List Byte) : Option Reply :=
  let n := wsPositions bs * wsPlots bs
  let P := partOf s p
  let d := wsDepth bs * wsPlots bs
  if wsDepth bs < 2 ∨ 8 < wsDepth bs ∨ 4096 < wsPositions bs ∨ wsPlots bs = 0 ∨ 8192 < wsPlots bs then some (plain .loadBadShape)
  else if anyMapped P (wsBase bs / plotBytes) n then some (plain .loadBadShape)
  else if loamLeft P < 16 * d + entryGrowth P n ∨ (windowFrames s p d).length < d then some ⟨.loadQuota, 0, 1, []⟩
  else none

/-- WINDOW_SET (R319, R571). -/
def runWindowSet (s : State) (a : Asked) : Option Reply × State :=
  let w := payFld a.body 0 1
  if wsPositions a.body = 0 then
    (if 7 < w ∨ windowBusy s a.part w = true then (some (plain .loadBadShape), s) else (some (plain .completed), windowRemoved s a.part w))
  else match rangeRefusal (wsBase a.body) (wsPositions a.body * wsPlots a.body) with
    | some r => (some r, s)
    | none =>
      if 7 < w ∨ windowBusy s a.part w = true then (some (plain .loadBadShape), s)
      else
        let s1 := windowRemoved s a.part w
        match windowRefusal s1 a.part a.body with
        | some r => (some r, s)
        | none => (some (plain .completed), windowMade s1 a.part w a.body)

def execWindowSet (fn m : Nat) (s : State) : Host.Outcome State Fault Refusal := .next (serve s fn m 0x0053 runWindowSet)

/-! ### LAYOUT_SET and STREAM_QUERY -/

def recordOfEntry (e : Nat) : Record := { n := fld e 0 24, fmt := fld e 24 8, carry := bitOf e 32 }

/-- R205. -/
def recordOk (r : Record) : Bool :=
  let t := (fmtByte r.fmt).fmt
  r.n % 64 == 0 && decide (64 ≤ r.n) && decide (r.n ≤ 65536) && (t == some .bf16 || t == some .fp16 || t == some .e4m3 || t == some .e5m2)
    && (fmtByte r.fmt).reserved == 0 && fmtLegalOut r.fmt && !(r.carry && (fmtByte r.fmt).rmode == 2)

/-- Whether a stream that is neither FREE nor RETIRED uses a layout slot. -/
def layoutUsed (s : State) (p slot : Nat) : Bool := s.streams.any fun e => e.2.part == p && e.2.layout == slot && e.2.st != .retired

/-- LAYOUT_SET (R231, R572). -/
def runLayoutSet (s : State) (a : Asked) : Option Reply × State :=
  let slot := payFld a.body 0 1
  let r := payFld a.body 1 1
  let rs := (List.range r).map fun i => recordOfEntry (layoutEntry a.body i)
  if 63 < slot ∨ 64 < r ∨ rs.all recordOk = false ∨ layoutUsed s a.part slot = true then (some (plain .loadBadShape), s)
  else (some (plain .completed), setPart s a.part fun P => { P with
    layouts := if r = 0 then eraseKey slot P.layouts else insertKey slot { model := payFld a.body 4 4, records := rs } P.layouts })

def execLayoutSet (fn m : Nat) (s : State) : Host.Outcome State Fault Refusal := .next (serve s fn m 0x0030 runLayoutSet)

def stateOfStream : StreamSt → Nat
  | .idle => 1 | .resident => 2 | .parked => 3 | .exported => 4 | .retired => 5

/-- The image address that a descriptor shows (Table 10-1). -/
def imageField (st : Stream) : Nat :=
  match st.st with
  | .parked => loamAddr (st.image.headD 0)
  | .exported => st.imageAddr
  | _ => 0

/-- The page-table root that a descriptor shows: the address of the root's directory unit. DEDUCED, log entry 59. -/
def kvRootField (s : State) (st : Stream) : Nat :=
  match st.kv with
  | some kv => (match poolOf s st.part kv.pool with | some K => unitAddr K kv.unit | none => 0)
  | none => 0

/-- A stream descriptor (Table 10-1); a FREE entry reads as 0. -/
def streamBits (s : State) (e : Option Stream) : Nat :=
  match e with
  | none => 0
  | some st =>
    let res : Bool := st.st == .resident
    putFld (imageField st) 464 48 + putFld (kvRootField s st) 416 48 + putFld st.kvTokens 392 24
      + putFld st.step 320 64 + putFld st.tag 288 32 + putFld st.model 256 32 + putFld st.parent 236 20
      + putFld (if res then st.cohort else 0) 218 14 + putFld (if res then st.row else 0) 214 4 + putFld st.layout 208 6
      + bit st.dirty 203 + bit st.transit 202 + bit st.undef 201 + bit st.lost 200 + putFld st.part 198 2 + putFld (stateOfStream st.st) 192 3
      + putFld st.lastStatus 176 16 + putFld st.blobUnits 144 32

/-- STREAM_QUERY (R573). -/
def runStreamQuery (s : State) (a : Asked) : Option Reply × State :=
  let n := payFld a.body 4 4
  if n = 0 ∨ min 1024 (a.room / 64) < n then (some (plain .loadBadShape), s)
  else (some ⟨.completed, 0, 0, (rangeFrom (payFld a.body 0 4) n).flatMap fun id => toLe 64 (streamBits s (streamOf s id))⟩, s)

def execStreamQuery (fn m : Nat) (s : State) : Host.Outcome State Fault Refusal := .next (serve s fn m 0x0031 runStreamQuery)

/-! ### KV_POOL_SET -/

/-- The pool that a payload of R574 spells, without frames. -/
def poolShape (bs : List Byte) : Pool :=
  let f (off n : Nat) : Nat := payFld bs off n
  { fmtKv := f 1 1, fmtX := f 2 1, hkv := f 3 1, dh := f 4 2, inDim := f 6 2, layers := f 8 1, pages := f 12 4, loamSlots := f 16 4
    subSlots := f 20 4, dirUnits := f 24 4, loamFrames := [], subFrames := [], recs := [], unitsUsed := []
    counts := ⟨0, 0, 0, 0, 0, 0, 0, 0⟩ }

/-- Table 11-1, and Fl + Fs ≤ P (R254). -/
def poolInRange (K : Pool) : Bool :=
  let kv := fmtByte K.fmtKv
  let x := fmtByte K.fmtX
  let within (v lo hi : Nat) : Bool := decide (lo ≤ v) && decide (v ≤ hi)
  [some Fmt.e4m3, some .e5m2, some .bf16, some .fp16].contains kv.fmt && kv.reserved == 0 && decide (kv.rmode ≤ 1) && fmtLegalOut K.fmtKv
    && [some Fmt.e4m3, some .e5m2, some .int8, some .bf16, some .fp16].contains x.fmt && x.reserved == 0 && fmtLegalIn K.fmtX
    && within K.hkv 1 64 && within K.dh 32 256 && K.dh % 32 == 0 && within K.inDim 64 16384 && K.inDim % 64 == 0 && within K.layers 1 64
    && within K.pages 1 (2 ^ 24) && decide (K.loamSlots ≤ 2 ^ 24) && decide (K.subSlots ≤ 2 ^ 24) && within K.dirUnits 1 (2 ^ 24)
    && decide (K.loamSlots + K.subSlots ≤ K.pages)

/-- Units of 4 KiB that a pool's regions take in loam (slots, directory area, page records) and in subsoil (slots, source
blocks) (R256, Table 13-8). -/
def poolUnits (K : Pool) : Nat × Nat :=
  (ceilDiv (K.loamSlots * pageBytes K) 4096 + K.dirUnits + ceilDiv (32 * K.pages) 4096,
   ceilDiv (K.subSlots * pageBytes K + K.pages * srcBytes K) 4096)

/-- A pool without an allocated page gives its regions back. DEDUCED, log entry 105. -/
def poolReleased (s : State) (p k : Nat) : State :=
  match poolOf s p k with
  | none => s
  | some K =>
    let s1 := setPart (uncharge s p (poolUnits K).1 (poolUnits K).2) p fun P => { P with pools := eraseKey k P.pools }
    { s1 with streams := s1.streams.map fun (id, st) =>
        (id, if st.part == p && (match st.kv with | some kv => kv.pool == k | none => false) then { st with kv := none, kvTokens := 0 } else st) }

/-- The counts of a pool, which it keeps when it is set anew (R281). -/
def poolCounts (s : State) (p k : Nat) : PoolCounts := match poolOf s p k with | some K => K.counts | none => ⟨0, 0, 0, 0, 0, 0, 0, 0⟩

/-- KV_POOL_SET (R254, R256, R574). -/
def runKvPoolSet (s : State) (a : Asked) : Option Reply × State :=
  let k := payFld a.body 0 1
  let K := poolShape a.body
  let busy : Bool := match poolOf s a.part k with | some old => !old.recs.isEmpty | none => false
  if 7 < k ∨ poolInRange K = false ∨ busy = true then (some (plain .loadBadShape), s)
  else
    let s1 := poolReleased s a.part k
    let (ul, us) := poolUnits K
    let fl := freeLoam s1 (ceilDiv ul 16) (partSlices s1 (partOf s1 a.part))
    let fs := freeSub s1 a.part (ceilDiv us 16)
    if loamLeft (partOf s1 a.part) < ul ∨ fl.length < ceilDiv ul 16 then (some ⟨.loadQuota, 0, 1, []⟩, s)
    else if subLeft (partOf s1 a.part) < us ∨ fs.length < ceilDiv us 16 then (some ⟨.loadQuota, 0, 2, []⟩, s)
    else (some (plain .completed), setPart (charge s1 a.part ul us) a.part fun P => { P with
      pools := insertKey k { K with loamFrames := fl, subFrames := fs, counts := poolCounts s a.part k } P.pools })

def execKvPoolSet (fn m : Nat) (s : State) : Host.Outcome State Fault Refusal := .next (serve s fn m 0x0040 runKvPoolSet)

/-! ### KV_QUERY (R575) -/

/-- Four free words. DESIGN CHOICE, log entry 106. -/
def freeQuad (s : State) : Nat × Nat × Nat × Nat × State :=
  let (k, s1) := takeFree s 4
  let w (i : Nat) : Nat := (Config.freeWord (k + i)).toNat
  (w 0, w 1, w 2, w 3, s1)

/-- A page record (Table 11-3). A free page has no directory entry and no position written; its other fields, and the slot of a
dropped page, the spec leaves open. -/
def pageBits (s : State) (e : Option Page) : Nat × State :=
  let (w0, w1, w2, w3, s1) := freeQuad s
  match e with
  | none => (putFld w3 208 24 + putFld w0 160 32 + putFld (w1 + w2 * 2 ^ 32) 112 48 + putFld (w3 / 2 ^ 24) 59 6 + putFld (w3 / 2 ^ 30) 57 1
      + putFld 3 54 2, s1)
  | some g =>
    let (home, slot) : Nat × Nat := match g.home with | .loam i => (0, i) | .subsoil i => (1, i) | .dropped => (2, w3)
    (putFld slot 208 24 + putFld g.wTag 160 32 + putFld g.lastUse 112 48 + putFld g.refs 91 21 + putFld g.pins 70 21 + putFld g.fill 65 5
      + putFld g.layer 59 6 + bit g.busy 58 + bit g.srcLost 57 + putFld home 54 2, s1)

/-- Records of a run of identifiers. -/
def pageRecords (K : Pool) : List Nat → State → List Byte × State
  | [], s => ([], s)
  | id :: rest, s =>
    let (b, s1) := pageBits s (pageOf K id)
    let (bs, s2) := pageRecords K rest s1
    (toLe 32 b ++ bs, s2)

/-- A layer entry of a root (R257). -/
def layerEntry (kv : KvRoot) (l : Nat) : Nat :=
  let us := (lookupKey l kv.units).getD []
  putFld ((lookupKey l kv.tokens).getD 0) 0 17 + ((List.range us.length).map fun i => putFld (us.getD i 0) (32 + 24 * i) 24).foldl (· + ·) 0

/-- The root of a stream, zeros where it has none. -/
def rootBytes (st : Option Stream) : List Byte :=
  match st.bind (·.kv) with
  | some kv => toLe 64 (putFld kv.pool 0 3) ++ (List.range 64).flatMap fun l => toLe 16 (layerEntry kv l)
  | none => List.replicate 1088 0

/-- A directory entry (Table 11-2). -/
def dirBits (st : Option Stream) (layer idx : Nat) : Nat :=
  match st.bind fun x => dirEntry x layer idx with
  | some e => putFld 1 31 1 + bit e.pin 30 + putFld e.page 0 24
  | none => 0

/-- KV_QUERY. -/
def runKvQuery (s : State) (a : Asked) : Option Reply × State :=
  let f (off n : Nat) : Nat := payFld a.body off n
  let count := f 12 2
  let st := streamOf s (f 8 4)
  let shape : Option Reply × State := (some (plain .loadBadShape), s)
  match f 0 1 with
  | 0 =>
    if 7 < f 1 1 ∨ count = 0 ∨ a.room / 32 < count then shape
    else match poolOf s a.part (f 1 1) with
      | none => (some (plain .loadUnitDisabled), s)
      | some K =>
        if K.pages < f 4 4 + count then shape
        else
          let (bs, s1) := pageRecords K (rangeFrom (f 4 4) count) s
          (some ⟨.completed, 0, 0, bs⟩, s1)
  | 1 => if count ≠ 1 ∨ a.room < 1088 then shape else (some ⟨.completed, 0, 0, rootBytes st⟩, s)
  | 2 =>
    if 63 < f 2 2 ∨ count = 0 ∨ a.room / 4 < count ∨ 4096 < f 4 4 + count then shape
    else (some ⟨.completed, 0, 0, (rangeFrom (f 4 4) count).flatMap fun i => toLe 4 (dirBits st (f 2 2) i)⟩, s)
  | _ => shape

def execKvQuery (fn m : Nat) (s : State) : Host.Outcome State Fault Refusal := .next (serve s fn m 0x0041 runKvQuery)

end Sys2Proof.Machine
end

