-- ==== Sys2Proof/Machine/PowerRows.lean ====
section
/-! DEFINITION. Power, droop and thermal control (chapter 21): the estimator and the governor, the slew limiter's windows,
droop stretching, VR_ALERT_N, the thermal levels and the hard trip, PWR_CONFIG; with the platform events that their sensors
give (R543). -/

namespace Sys2Proof.Machine

/-! ### ACLK -/

/-- Whether the power hardware runs: the device runs and its clocks have locked (R533). -/
def powered (s : State) : Bool := s.boot.dev == .run && s.boot.clocks

/-- ACLK changes: the time at the old frequency is counted, and VDD_CORE goes with the frequency (R472, Table 21-10). -/
def setAclk (s : State) (mhz : Nat) : State :=
  let c := timeCounts s
  setPwr s fun P => { P with aclk := mhz, since := s.now, vdd := operatingVolts s mhz, counts := c }

/-- Whether a protection holds ACLK at the floor: VR_ALERT_N and its hold, or a thermal hold (R471, R474). -/
def floorHeld (s : State) : Bool := s.pwr.hold || s.pwr.vrLow || s.pwr.vrRise.isSome

/-- What has acted in this interval is noted for R476. -/
def noteActed (s : State) : State := setPwr s fun P => { P with acted := true }

/-- Whether the start-up test has begun: from then on the governor sets ACLK (R534). -/
def testBegun (s : State) : Bool := s.boot.st == .check || s.boot.st == .running || s.boot.st == .fwFailed

/-- The floor is left once nothing holds it: ACLK returns to what lever 3 leaves of 1.40 GHz (R471, R474), or stays at the
floor before the start-up test (R534). -/
def leaveFloor (s : State) : State :=
  if floorHeld s || !testBegun s then s
  else setAclk s (if s.pwr.cfg.fixed then 1400 else max 400 (1400 - 25 * s.pwr.low))

/-! ### Means and limits (R463) -/

/-- The mean of the latest `n` estimates, or of all there are while there are fewer. DEDUCED, log entry 87. -/
def meanOf (xs : List Nat) (n : Nat) : Nat := (xs.take n).foldl (· + ·) 0 / max 1 (min n xs.length)

/-- Whether the mean of the latest `n` estimates, in 0.1 W, exceeds a percentage of a limit in W. -/
def meanAbove (xs : List Nat) (n pct lim : Nat) : Bool :=
  decide (pct * 10 * lim * min n xs.length < 100 * (xs.take n).foldl (· + ·) 0)

/-- Whether it lies below a percentage of a limit. -/
def meanBelow (xs : List Nat) (n pct lim : Nat) : Bool :=
  decide (100 * (xs.take n).foldl (· + ·) 0 < pct * 10 * lim * min n xs.length)

def eitherAbove (P : Power) (pct : Nat) : Bool := meanAbove P.history 500 pct P.cfg.pl1 || meanAbove P.history 50000 pct P.cfg.pl100

def bothBelow (P : Power) (pct : Nat) : Bool := meanBelow P.history 500 pct P.cfg.pl1 && meanBelow P.history 50000 pct P.cfg.pl100

/-! ### The governor (R464 to R466, Table 21-3) -/

/-- ACLK falls one step. -/
def stepDown (s : State) : State := setAclk s (s.pwr.aclk - 25)

def stepUp (s : State) : State := setAclk s (s.pwr.aclk + 25)

/-- R464: the first lever with room tightens. Levers 1 and 3 are never used in fixed-frequency mode (R476), nor while the floor
is held. -/
def tighten (s : State) : State :=
  let P := s.pwr
  let free := !P.cfg.fixed && !floorHeld s
  if free && decide (1400 < P.aclk) then setPwr (stepDown s) fun x => { x with cut := x.cut + 1 }
  else if 2 < P.scale then setPwr s fun x => { x with scale := x.scale - 1 }
  else if free && decide (400 < P.aclk) then setPwr (stepDown s) fun x => { x with low := x.low + 1 }
  else setPwr s fun x => { x with shed := true }

/-- R466: whether ACLK may rise above 1.40 GHz. -/
def boostAllowed (s : State) : Bool :=
  let P := s.pwr
  !P.cfg.fixed && !P.cfg.boostOff && bothBelow P 93 && decide (P.tjMax ≤ 85) && !P.tooHot && !floorHeld s
    && decide (1400 ≤ P.aclk) && decide (P.aclk < 1650)

/-- The last lever in use releases; where no lever is in use, ACLK may rise into boost. Lever 4 has its own end (R465).
DEDUCED, log entry 88. -/
def release (s : State) : State :=
  let P := s.pwr
  if P.shed then s
  else if 0 < P.low then
    (if floorHeld s then setPwr s fun x => { x with low := x.low - 1 }
     else if P.tooHot then s
     else setPwr (stepUp s) fun x => { x with low := x.low - 1 })
  else if P.scale < 8 then setPwr s fun x => { x with scale := x.scale + 1 }
  else if 0 < P.cut then
    (let s1 := setPwr s fun x => { x with cut := x.cut - 1 }
     if boostAllowed s then stepUp s1 else s1)
  else if boostAllowed s then stepUp s
  else s

/-- One action at the end of an interval, once the start-up test has begun (R534). -/
def govern (s : State) : State :=
  let P := s.pwr
  if !testBegun s then s
  else if P.shed && meanBelow P.history 500 90 P.cfg.pl1 then setPwr s fun x => { x with shed := false }
  else if eitherAbove P 98 then tighten s
  else if bothBelow P 97 then release s
  else s

/-- Table 21-7: above the target ACLK falls a step per interval; above 85 °C, and without boost, it leaves boost. DEDUCED, log entry 110. -/
def coolDown (s : State) : State :=
  let P := s.pwr
  if floorHeld s || !testBegun s then s
  else if P.tooHot && decide (400 < P.aclk) then
    setPwr (stepDown s) fun x => { x with low := if P.aclk ≤ 1400 then x.low + 1 else x.low }
  else if (decide (85 < P.tjMax) || P.cfg.boostOff) && decide (1400 < P.aclk) then stepDown s
  else s

/-- R476: whether the interval that ends broke the fixed frequency. -/
def brokeFixed (s : State) : Bool :=
  let P := s.pwr
  P.cfg.fixed && (P.acted || P.aclk != 1400 || floorHeld s || P.stackHot || P.tooHot || decide (P.scale < 8) || P.shed || !P.droop.isEmpty
    || !P.waiting.isEmpty)

/-- An accepted PWR_CONFIG takes effect with the interval that begins (R462); fixed frequency leaves levers 1 and 3. -/
def applyNext (s : State) : State :=
  match s.pwr.next with
  | none => s
  | some c =>
    let s1 := setPwr s fun P => { P with
      cfg := c, next := none, cut := if c.fixed then 0 else P.cut, low := if c.fixed then 0 else P.low }
    if c.fixed && !floorHeld s1 && testBegun s1 then setAclk s1 1400 else s1

/-- The estimate is formed and averaged, and its energy counted in units of 0.2 uJ (R460, R463). -/
def recordEstimate (s : State) (est : Nat) : State :=
  setPwr s fun P =>
    let h := (est :: P.history).take 50000
    { P with
      est := est, history := h, mean1 := meanOf h 500, mean100 := meanOf h 50000
      counts := { P.counts with energy := P.counts.energy + est } }

/-- The end of an interval for R476 and the slew limiter's status. -/
def closeInterval (s : State) : State :=
  let broke := brokeFixed s
  setPwr s fun P => { P with
    slewWait := P.waited || !P.waiting.isEmpty
    waited := false
    acted := false
    ffBroken := P.ffBroken || broke
    counts := if broke then { P.counts with ffBreaks := satAdd 32 P.counts.ffBreaks 1 } else P.counts }

/-! ### Platform events (R543) -/

/-- Thresholds of the numeric sensors, lowest first (Table 25-5). -/
def thresholds (s : State) : Sensor → List Nat
  | .power => [s.pwr.cfg.pl1]
  | .furrow => [85, 100, 110]
  | .stack => [95, 100]
  | _ => []

/-- What a numeric sensor reads now; the 1 ms mean in whole watts. -/
def sensorNow (s : State) : Sensor → Nat
  | .power => s.pwr.mean1 / 10
  | .furrow => s.pwr.tjMax
  | .stack => s.pwr.hbmMax
  | .aclk => s.pwr.aclk
  | _ => 0

/-- How many thresholds a sensor has reached. -/
def sensorLevel (s : State) (x : Sensor) : Nat := ((thresholds s x).filter fun t => decide (t ≤ sensorNow s x)).length

/-- The sensors with thresholds, by their place in `levels`. -/
def eventSensors : List (Nat × Sensor) := [(0, .power), (1, .furrow), (2, .stack)]

/-- The level of a sensor that was last reported, and one more than the time of the report; 0 before the first. -/
def reported (s : State) (i : Nat) : Nat × Nat := s.mgmt.levels.getD i (0, 0)

/-- Store what a sensor reports. -/
def putReport (xs : List (Nat × Nat)) (i : Nat) (v : Nat × Nat) : List (Nat × Nat) :=
  modifyAt i (fun _ => v) (xs ++ List.replicate (3 - xs.length) (0, 0))

/-- Whether the management relay serves PLDM (R538). -/
def relayUp (s : State) : Bool := s.boot.fwReady && s.boot.fwAlive

/-- A crossing of a threshold is reported to the named receiver, at most once per sensor in 10 ms. -/
def sensorEvent (s : State) (e : Nat × Sensor) : State :=
  let lv := sensorLevel s e.2
  let (old, time) := reported s e.1
  match s.mgmt.receiver with
  | none => s
  | some dest =>
    if lv ≠ old ∧ relayUp s = true ∧ (time = 0 ∨ time + 9999999 ≤ s.now) then
      { s with
        mgmt := { s.mgmt with levels := putReport s.mgmt.levels e.1 (lv, s.now + 1) }
        out := s.out ++ [.mgmt s.mgmt.i3c.isSome (s.mgmt.eid.getD 0) (.event dest e.2 lv)] }
    else s

def platformEvents (s : State) : State := eventSensors.foldl sensorEvent s

/-! ### The rows of the governor and the slew limiter -/

/-- ESTIMATION_INTERVAL (R460 to R466, R476): an estimate in 0.1 W; one lever moves, then what PWR_CONFIG set takes effect.
DEDUCED, log entry 149. -/
def estimationInterval (s : State) (est : Nat) : State :=
  if !powered s then s
  else
    let s1 := recordEstimate (closeInterval (settleBuckets s)) est
    let s2 := govern s1
    let s3 := if s2.pwr.aclk = s1.pwr.aclk then coolDown s2 else s2
    platformEvents (applyNext s3)

def execEstimationInterval (est : Nat) (s : State) : Host.Outcome State Fault Refusal := .next (estimationInterval s est)

/-- The taker of a number in the limiter's lists. -/
def unitTaker (u : Nat) : Bool × Nat := if 192 ≤ u then (true, u - 192) else (false, u)

/-- A waiting unit leaves the list; its wait is counted (R468). -/
def leaveWaiting (s : State) (x : SlewUnit) : State :=
  setPwr s fun P => { P with
    waiting := dropUnit P.waiting x.taker
    counts := { P.counts with slewWaitNs := satAdd 48 P.counts.slewWaitNs (s.now - x.since) } }

/-- The work that a waiting unit would start now, with its current. -/
def waitingWork (s : State) (x : SlewUnit) : Option (Nat × Bool × Nat) :=
  let (harrow, i) := unitTaker x.taker
  if takerUp s harrow i && !claimedTaker s harrow i && mayRequest s harrow i then
    (chooseWork s harrow i).map fun (q, fb) => (q, fb, startCurrent s harrow q)
  else none

/-- Grant the waiting starts in the order of their requests while the window's sum still fits; a unit whose work has gone asks
no longer. -/
def admitWaiting : Nat → State → State
  | 0, s => s
  | n + 1, s => match s.pwr.waiting with
    | [] => s
    | x :: _ => match waitingWork s x with
      | none => admitWaiting n (leaveWaiting s x)
      | some (q, fb, cur) =>
        if s.pwr.admitted + cur ≤ slewAllowance then
          let s1 := drawUnit (setPwr (leaveWaiting s x) fun P => { P with admitted := P.admitted + cur }) x.taker cur
          admitWaiting n (takeItem s1 (unitTaker x.taker).1 (unitTaker x.taker).2 q fb)
        else s

/-- SLEW_WINDOW (R467, R468): a window of 250 ns begins. -/
def slewWindow (s : State) : State :=
  if !powered s then s
  else
    let s1 := setPwr s fun P => { P with admitted := 0, released := 0 }
    let s2 := admitWaiting s1.pwr.waiting.length s1
    releaseBallast s2.pwr.ballast.length s2

def execSlewWindow (s : State) : Host.Outcome State Fault Refusal := .next (slewWindow s)

/-! ### Droop (R470) -/

/-- DROOP_TRIP: the furrow's ACLK period is doubled. -/
def droopTrip (s : State) (f : Nat) : State :=
  if !powered s || !decide (f < 96) || (lookupKey f s.pwr.droop).isSome then s
  else setPwr s fun P => { P with
    droop := insertKey f s.now P.droop, acted := true, counts := { P.counts with droopEvents := satAdd 32 P.counts.droopEvents 1 } }

def execDroopTrip (f : Nat) (s : State) : Host.Outcome State Fault Refusal := .next (droopTrip s f)

/-- DROOP_RELEASE: the period is restored; the stretched cycles, at half the frequency, are counted. -/
def droopRelease (s : State) (f : Nat) : State :=
  match lookupKey f s.pwr.droop with
  | none => s
  | some t => setPwr s fun P => { P with
      droop := eraseKey f P.droop, acted := true
      counts := { P.counts with droopCycles := satAdd 48 P.counts.droopCycles ((s.now - t) * P.aclk / 2000) } }

def execDroopRelease (f : Nat) (s : State) : Host.Outcome State Fault Refusal := .next (if powered s then droopRelease s f else s)

/-! ### VR_ALERT_N (R471) -/

/-- The alert is latched: ACLK and VDD_CORE go to the floor. -/
def latchAlert (s : State) : State :=
  setPwr (setAclk s 400) fun P => { P with
    vrLow := true, vrRise := none, acted := true, counts := { P.counts with vrAlerts := satAdd 32 P.counts.vrAlerts 1 } }

/-- VR_ALERT_ASSERT: low for `ns`. From 50 ns it is latched, from 20 ns it may be (R553), below that it is not. DEDUCED, log entry 111. -/
def vrAlertAssert (s : State) (ns : Nat) : State :=
  if !powered s || s.pwr.vrLow || decide (ns < 20) then s
  else if 50 ≤ ns then latchAlert s
  else
    let (k, s1) := takeFree s 1
    if (Config.freeWord k).getLsbD 0 then latchAlert s1 else s1

def execVrAlertAssert (ns : Nat) (s : State) : Host.Outcome State Fault Refusal := .next (vrAlertAssert s ns)

/-- VR_ALERT_DEASSERT: the hold of 100 us begins. -/
def vrAlertDeassert (s : State) : State :=
  if powered s && s.pwr.vrLow then setPwr s fun P => { P with vrLow := false, vrRise := some s.now } else s

def execVrAlertDeassert (s : State) : Host.Outcome State Fault Refusal := .next (vrAlertDeassert s)

/-- VR_ALERT_HOLD_END: 100 us after the rise the voltage and then ACLK are restored. -/
def vrAlertHoldEnd (s : State) : State :=
  match s.pwr.vrRise with
  | some t =>
    if powered s && decide (t + 100000 ≤ s.now) then leaveFloor (setPwr s fun P => { P with vrRise := none, acted := true }) else s
  | none => s

def execVrAlertHoldEnd (s : State) : Host.Outcome State Fault Refusal := .next (vrAlertHoldEnd s)

/-! ### Loss of everything (R475, R532, R547) -/

/-- Everything that the device holds is lost; host and remote memory, hard repairs, what has been sent and the commands that wait
outside are not. DESIGN CHOICE, log entry 123. -/
def lostAll (s : State) (dev : DevSt) : State :=
  { State.reset with
    pending := s.pending
    free := s.free
    out := s.out
    net := { noNet with wire := s.net.wire }
    pcie := { noPcie with fns := noPcie.fns.zipWith (fun f old => { f with sent := old.sent }) s.pcie.fns }
    boot := { noBoot with dev := dev }
    mem := { noMem with host := s.mem.host, remote := s.mem.remote }
    repairs := s.repairs.map fun r => { r with soft := 0 } }

/-- The hard trip: the clocks stop, THERMTRIP_N is asserted and the PCIe link drops. -/
def hardTrip (s : State) : State := let s1 := lostAll s .tripped; { s1 with pins := { s1.pins with thermtrip := true } }

/-! ### Thermal control (R473, R474, Table 21-7) -/

/-- What the sensors read: injection point 0x18 raises one to 100 °C, or 110 °C in test mode (Table 24-5); targets below 96 are
furrows, the rest stacks. -/
def sensedTemps (s : State) (furrow stack : Nat) : Nat × Nat × State :=
  let hot := if s.boot.testMode then 110 else 100
  (List.range 102).foldl (fun (f, k, x) t => match injected x 0x18 t with
    | (true, y) => if t < 96 then (max f hot, k, y) else (f, max k hot, y)
    | (false, _) => (f, k, x)) (furrow, stack, s)

/-- A thermal hold begins or ends. -/
def thermalHold (s : State) (furrow stack : Nat) : State :=
  if !s.pwr.hold && (decide (100 ≤ furrow) || decide (100 ≤ stack)) then
    setPwr (setAclk s 400) fun P => { P with hold := true, acted := true, counts := { P.counts with holds := satAdd 32 P.counts.holds 1 } }
  else if s.pwr.hold && decide (furrow ≤ 97) && decide (stack ≤ 97) then
    leaveFloor (setPwr s fun P => { P with hold := false, acted := true })
  else s

/-- The levels that rise and fall with hysteresis. -/
def thermalLevels (P : Power) (furrow stack : Nat) : Power :=
  let stackHot : Bool := if P.stackHot then decide (92 < stack) else decide (95 ≤ stack)
  let tooHot : Bool := if P.tooHot then decide (P.cfg.target - 2 < furrow) else decide (P.cfg.target < furrow)
  { P with
    tjMax := furrow, hbmMax := stack, stackHot := stackHot, tooHot := tooHot
    acted := P.acted || P.stackHot || P.tooHot || stackHot || tooHot }

/-- THERMAL_SAMPLE: the hottest furrow and the hottest stack, in whole degrees. -/
def thermalSample (s : State) (furrow stack : Nat) : State :=
  if !powered s then s
  else
    let (f, k, s1) := sensedTemps s furrow stack
    if 110 ≤ f then hardTrip s1
    else platformEvents (thermalHold (setPwr (settleBuckets s1) fun P => thermalLevels P f k) f k)

def execThermalSample (furrow stack : Nat) (s : State) : Host.Outcome State Fault Refusal := .next (thermalSample s furrow stack)

/-! ### PWR_CONFIG (R462, Table 21-2) -/

/-- The limits that a payload asks for, with its defaults. -/
def pwrCfgOf (bs : List Byte) : PwrCfg :=
  let f (off n : Nat) : Nat := payFld bs off n
  { pl1 := orDefault (f 0 2) 500, pl100 := orDefault (f 2 2) 450, target := orDefault (f 5 1) 95
    fixed := bitOf (f 4 1) 0, boostOff := bitOf (f 4 1) 1 }

/-- PWR_CONFIG: in range and consistent, it takes effect with the next interval that begins. -/
def runPwrConfig (s : State) (a : Asked) : Option Reply × State :=
  let c := pwrCfgOf a.body
  if c.pl1 < 280 ∨ 520 < c.pl1 ∨ c.pl100 < 280 ∨ 450 < c.pl100 ∨ c.target < 60 ∨ 95 < c.target ∨ c.pl1 < c.pl100 then
    (some (plain .loadBadShape), s)
  else (some (plain .completed), setPwr s fun P => { P with next := some c })

def execPwrConfig (fn m : Nat) (s : State) : Host.Outcome State Fault Refusal := .next (serve s fn m 0x0090 runPwrConfig)

end Sys2Proof.Machine
end

