-- ==== Sys2Proof/Machine/Faults.lean ====
section
/-! DEFINITION. The single-fault path (R514 to R522): detector events, the conditions under which a unit fails, its fence, the
recovery of its work, re-homing and the fault log; with patrol scrub and the failure of a subsoil channel (R344, R345). -/

namespace Sys2Proof.Machine

/-! ### Units -/

/-- Whether a unit exists on the part, as its profile enables it. -/
def unitEnabled (s : State) : FailUnit → Bool
  | .engine e => furrowEnabled s (e / 2)
  | .furrow f => furrowEnabled s f
  | .link l => decide (l < 172) && furrowEnabled s (linkEnds l).1 && furrowEnabled s (linkEnds l).2
  | .frame n => decide (n < 96 * 768) && decide (n % 768 < 752)
  | .slice n => decide (n < 96)
  | .channel h => decide (h < 192) && decide (h / 32 < stackCount s)
  | .block _ => true
  | .buffer n => decide (n < 16)

/-- The detectors of a unit by their points in Table 24-5; 0 is a test, or a detector without a point. -/
def detectorsOf : FailUnit → List Nat
  | .engine _ => [0, 0x01, 0x02]
  | .furrow _ => [0, 0x03, 0x04, 0x05, 0x06, 0x07]
  | .link _ => [0x12]
  | .frame _ => [0]
  | .slice _ => [0x08, 0x09, 0x0A, 0x0B]
  | .channel _ => [0x0C, 0x0D, 0x0E, 0x0F]
  | .block _ => [0x10, 0x11, 0x1F]
  | .buffer _ => [0]

/-! ### The fence (stage 2) -/

/-- A taker gets no more items of any command, and asks the slew limiter for no start. DEDUCED, log entry 115. -/
def withdraw (s : State) (harrow : Bool) (i : Nat) : State :=
  let out (w : Work) : Work :=
    if harrow then { w with grantHarrows := w.grantHarrows.filter (· != i) } else { w with grantEngines := w.grantEngines.filter (· != i) }
  let s1 := { s with queues := s.queues.map fun Q => { Q with cmd := Q.cmd.map fun c => { c with work := c.work.map out } } }
  enterBallast (setPwr s1 fun P => { P with waiting := dropUnit P.waiting (unitNo harrow i) }) (unitNo harrow i)

def withdrawFurrow (s : State) (f : Nat) : State := withdraw (withdraw (withdraw s false (2 * f)) false (2 * f + 1)) true f

/-- R521: every queue that is enabled enters HALTED with its commands ended, and the event interrupt is raised. DEDUCED, log entry 99. -/
def haltDevice (s : State) : State :=
  let qs := queuesWhere s fun Q => Q.state != .disabled
  let s1 := qs.foldl (fun x q => raiseEvent (haltQueue x q) 0 (queueOf x q).cfg.part) s
  raiseEventAll (setFlt s1 fun F => { F with halted := true }) 4

/-- The unit takes no new work (Table 24-2); new_fence and the event interrupt tell of it. -/
def fenceUnit (s : State) (u : FailUnit) : State :=
  let s1 := match u with
    | .engine e => withdraw (setFlt s fun F => { F with engines := F.engines ++ [e] }) false e
    | .furrow f => withdrawFurrow (setFlt s fun F => { F with furrows := F.furrows ++ [f] }) f
    | .block _ => haltDevice s
    | u => markFenced s u
  tellFence s1 u

/-- The first failure in handling is fenced; later ones wait for its release (R520). -/
def fenceFirst (s : State) : State := match s.flt.handling with | h :: _ => fenceUnit s h.unit | [] => s

/-- A failure is latched (stage 1). -/
def latchFailure (s : State) (u : FailUnit) (det : Nat) (inj : Bool) : State :=
  if unitFailed s u || inHandling s u then s
  else
    let s1 := joinHandling s u det inj
    if s.flt.handling.isEmpty then fenceFirst s1 else s1

/-! ### Detector events -/

/-- The injection targets of a unit under a point (Table 24-5): a tender's is one of its furrow's two. -/
def injTargets (u : FailUnit) (det : Nat) : List Nat :=
  match u with
  | .engine e => [e]
  | .furrow f => if det = 0x05 then [2 * f, 2 * f + 1] else [f]
  | .link l => [l]
  | .frame n => [n]
  | .slice n => [n]
  | .channel h => [h]
  | .block b => if det = 0x1F then [0] else [b]
  | .buffer _ => []

/-- Whether an armed point makes this event, and the state after (R529); a test is no point. -/
def injectedAt (s : State) (u : FailUnit) (det : Nat) : Bool × State :=
  if det = 0 then (false, s)
  else match (injTargets u det).find? (fun t => (armedPoint s det t).isSome) with
    | some t => injected s det t
    | none => (false, s)

/-- A stream's entry becomes FREE: resident state, image and KV are released (R518). -/
def freeStream (s : State) (id : Nat) : State :=
  let s1 := releaseKv (freeImage (leaveCohort s id) id) id
  { s1 with streams := s1.streams.filter (·.1 != id) }

/-- Streams whose descriptor lies in a slice: descriptor lines rotate across the 96 slices (R516). -/
def streamsOfSlice (s : State) (n : Nat) : List Nat := (s.streams.map (·.1)).filter fun id => id % 96 == n

/-- A stream-table line that cannot be read: it is rebuilt from parity; in a group without parity the stream that lay there is
lost (Table 24-1, R518), which of the slice's the spec leaves to the event. DESIGN CHOICE, log entry 113. -/
def streamLine (s : State) (n : Nat) : State :=
  if !s.flt.groups.contains (n / 4) then s
  else match streamsOfSlice s n with
    | [] => s
    | ids =>
      let (k, s1) := takeFree s 1
      freeStream s1 (ids.getD ((Config.freeWord k).toNat % ids.length) 0)

/-- An executing command ends with FAULT_UNRECOVERED. -/
def endFault (s : State) (q a : Nat) : State :=
  let Q := queueOf s q
  match Q.cmd with
  | none => s
  | some c =>
    if Q.state == .run && stoppable Q then
      endEarly (discardItems s q) q Q.cfg.part (failAt .faultUnrecovered a 0) c.outs (workDone Q c)
    else s

/-- Some line of a slice, or of a channel. -/
def loamLine (n x : Nat) : Nat := loamAddr (n * 768) / 64 + x % (768 * 1024)
def channelLine (h x : Nat) : Nat := subBase / 64 + h / 8 * 0x2000_0000 + x / 4 % 0x100_0000 * 32 + h % 8 * 4 + x % 4

/-- An uncorrectable line, which the event does not name, stays so until it is written whole (R326, R342). DESIGN CHOICE, log entry 112. -/
def poisonSome (s : State) (line : Nat → Nat) : State :=
  let (k, s1) := takeFree s 1
  poisonLine s1 (line (Config.freeWord k).toNat)

/-- What an event comes to: it is corrected, or it meets a condition of Table 24-2, or it ends the command of a channel whose buffers it
is in, after which the channel is IDLE (Table 24-1). -/
def detect (s : State) (u : FailUnit) (det : Nat) (inj : Bool) : State :=
  match u, det with
  | .buffer n, _ => match (channelNo s n).cur with | some q => endFault s q 0 | none => s
  | .slice n, 0x09 => countLoamLine (poisonSome s (loamLine n)) n inj
  | .slice n, 0x0B => streamLine s n
  | .furrow f, 0x07 => let (bad, s1) := secondLine s (96 + f) 2; if bad then latchFailure s1 u det inj else s1
  | .channel h, 0x0C => countSubCorrected s h
  | .channel h, 0x0D => countSubLine (poisonSome s (channelLine h)) h inj
  | _, 0x01 => s
  | _, 0x03 => s
  | _, 0x08 => s
  | _, 0x10 => s
  | _, _ => latchFailure s u det inj

/-- FAULT_LATCH (R515, R519, R521): a detector event of a unit. DESIGN CHOICE, log entry 112. -/
def faultLatch (s : State) (u : FailUnit) (det : Nat) : State :=
  if !powered s || !(detectorsOf u).contains det || !unitEnabled s u || unitFailed s u then s
  else
    let (inj, s1) := injectedAt s u det
    detect (countEvent s1 det) u det inj

def execFaultLatch (unit : FailUnit) (det : Nat) (s : State) : Host.Outcome State Fault Refusal := .next (faultLatch s unit det)

/-! ### Patrol scrub (R342, R344) -/

/-- The last line of a channel in address order, at which a scrub pass completes. -/
def lastScrubLine (h : Nat) : Nat := subBase + h / 8 * 0x8_0000_0000 + 0x8_0000_0000 - 2048 + h % 8 * 256 + 192

/-- What scrub finds at a line: 0 clean, 1 correctable, 2 uncorrectable, 3 an error that the stack's own code has corrected (R343),
with what an armed point makes of it. -/
def scrubFinds (s : State) (h line found : Nat) : Nat × Bool × State :=
  match injected s 0x0D h with
  | (true, x) => (2, true, x)
  | (false, _) => match injected s 0x0C h with
    | (true, x) => ((if linePoisoned s line || found == 2 then 2 else 1), true, x)
    | (false, _) => ((if linePoisoned s line then 2 else found), false, s)

/-- PATROL_SCRUB: scrub reads a line of an enabled channel that has not failed. -/
def patrolScrub (s : State) (addr found : Nat) : State :=
  let a := addr / 64 * 64
  let h := channelOf a
  if !isSub a || !unitEnabled s (.channel h) || unitFailed s (.channel h) then s
  else
    let (f, inj, s0) := scrubFinds s h (a / 64) found
    let s1 := if f = 2 then countSubLine (poisonLine s0 (a / 64)) h inj else if f = 1 then countSubCorrected s0 h
      else if f = 3 then setSub s0 h fun c => { c with onDie := satAdd 32 c.onDie 1 } else s0
    if a = lastScrubLine h then setSub s1 h fun c => { c with scrubPasses := satAdd 16 c.scrubPasses 1 } else s1

def execPatrolScrub (addr found : Nat) (s : State) : Host.Outcome State Fault Refusal := .next (patrolScrub s addr found)

/-! ### Recovery (stage 4) -/

/-- The least of a list, 0 when it is empty. -/
def least : List Nat → Nat
  | [] => 0
  | x :: xs => xs.foldl min x

/-- The tiles of a holding or consuming command whose slots some engines hold (R112): any slot of a command that holds, and the
unfinished tiles of one that only consumes. -/
def lostTiles (s : State) (es : List Nat) (q : Nat) (c : Cmd) : List Nat :=
  let mine := es.flatMap fun e => ((engineOf s e).slots.filter fun sl => sl.st != .free && sl.st != .state && sl.q == q).map (·.tile)
  let left := es.flatMap fun e => (((engineOf s e).items.filter (·.q == q)).flatMap (·.tiles))
    ++ (match c.work with | some w => (w.bound.filter (·.1 == e)).map (·.2) | none => [])
  if fld c.body 548 2 = 0 then mine.filter left.contains else mine

/-- R112: executing commands that lose held tiles end. DEDUCED, log entry 114. -/
def endHolders (s : State) (es : List Nat) : State :=
  (queuesWhere s fun Q => Q.state == .run && (match Q.cmd.bind (·.work) with | some w => w.grid.holds | none => false)).foldl (fun x q =>
    match (queueOf x q).cmd with
    | some c => (match lostTiles x es q c with | [] => x | t :: ts => endFault x q (least (t :: ts)))
    | none => x) s

/-- The streams whose state lies on some engines (R208); the row of one that a park has moved is given back later, and holds no state. -/
def lostStreams (s : State) (es : List Nat) : List Nat :=
  s.cohorts.flatMap fun (n, co) =>
    if co.granules.flatten.any fun g => es.contains (g / 64) then
      (co.members.map (·.2)).filter fun id => match streamOf s id with | some st => st.st == .resident && st.cohort == n | none => false
    else []

/-- The streams whose resident state an executing command needs: those that it writes, and those that it forks, parks, exports or
migrates. -/
def neededStreams (Q : Queue) : List Nat :=
  match Q.cmd with
  | some c => if [0x110, 0x111, 0x301, 0x302, 0x304, 0x403].contains (hOpcode c.hdr) then c.streams else []
  | none => []

/-- R208, R236: their state is lost, and executing commands that need it end with the lowest of them. -/
def loseStates (s : State) (es : List Nat) : State :=
  let ids := lostStreams s es
  let s1 := ids.foldl toLost s
  (queuesWhere s1 fun Q => Q.state == .run && (neededStreams Q).any ids.contains).foldl
    (fun x q => endFault x q (least ((neededStreams (queueOf x q)).filter ids.contains))) s1

/-- Tiles of an item that have been written already, and will be again. -/
def tilesDone (w : Work) (it : Item) : Nat :=
  ((tilesOf w.grid it.index).filter fun t => !it.tiles.contains t
    && (!w.grid.split || lookupKey (drawnKey it.index t) w.drawn == some (w.grid.chunks - 1))).length

/-- R133, R136: an item goes back to its command's redispatch list. -/
def redispatchItem (s : State) (it : Item) : State :=
  match openWorkOf (queueOf s it.q) with
  | none => s
  | some (_, w) =>
    setQueue s it.q fun Q => { Q with
      redispatch := (Q.redispatch ++ [it.index]).eraseDups
      cmd := Q.cmd.map fun c => { c with work := some { w with written := w.written - tilesDone w it } } }

/-- What a fenced engine held: its items go back, its products leave, its held tiles are lost, and so are its gate tiles whose set is not
whole. -/
def emptyEngine (s : State) (e : Nat) : State :=
  let s1 := (engineOf s e).items.foldl redispatchItem s
  let s2 := { s1 with queues := s1.queues.map fun Q => { Q with cmd := Q.cmd.map fun c => { c with work := c.work.map fun w =>
    { w with reducers := w.reducers.filter (·.2 != e), spilled := w.spilled.filter (·.1 != e) } } } }
  let s3 := setHarrow s2 (e / 2) fun H => { H with intake := H.intake.filter fun d => d.engine != e || decide (d.need ≤ d.gates) }
  setEngine s3 e fun E => { E with
    items := [], cur := none
    slots := E.slots.map fun sl => match sl.st with
      | .held => { sl with lost := true }
      | .state => sl
      | _ => freeSlot }

/-- What a fenced harrow held. -/
def emptyHarrow (s : State) (f : Nat) : State :=
  let s1 := (harrowOf s f).items.foldl redispatchItem s
  let s2 := { s1 with queues := s1.queues.map fun Q => { Q with cmd := Q.cmd.map fun c => { c with work := c.work.map fun w =>
    { w with staged := eraseKey f w.staged } } } }
  setHarrow s2 f fun _ => noHarrow

/-- Engines are lost. -/
def loseEngines (s : State) (es : List Nat) : State := es.foldl emptyEngine (loseStates (endHolders s es) es)

/-- R516, R518: a slice's share of the stream table is rebuilt, its group then without parity; in a group without it the share
is lost. -/
def loseSlice (s : State) (n : Nat) : State :=
  if s.flt.groups.contains (n / 4) then (streamsOfSlice s n).foldl freeStream s
  else setFlt s fun F => { F with groups := F.groups ++ [n / 4] }

/-- R517: failed frames leave every quota. DEDUCED, log entry 91. -/
def shrinkQuotas (s : State) : State :=
  { s with parts := s.parts.map fun P => { P with cfg := { P.cfg with
      quotaLoam := min P.cfg.quotaLoam (loamCapacity s (waysOf P.cfg)), quotaSub := min P.cfg.quotaSub (subCapacity s P.cfg.groupMask) } } }

/-- Recovery of a failed unit. -/
def recover (s : State) (u : FailUnit) : State :=
  match u with
  | .engine e => loseEngines s [e]
  | .furrow f => emptyHarrow (loseEngines s [2 * f, 2 * f + 1]) f
  | .slice n => shrinkQuotas (loseSlice s n)
  | .frame _ => shrinkQuotas s
  | .channel _ => shrinkQuotas s
  | .link _ => s
  | .block _ => s
  | .buffer _ => s

/-- FAULT_SETTLE_DONE (R519): stages 3 and 4 of the failure in handling. -/
def faultSettleDone (s : State) : State :=
  match s.flt.handling with
  | h :: rest =>
    if powered s && !h.settled then setFlt (recover s h.unit) fun F => { F with handling := { h with settled := true } :: rest } else s
  | [] => s

def execFaultSettleDone (s : State) : Host.Outcome State Fault Refusal := .next (faultSettleDone s)

/-! ### Re-homing (R517) -/

/-- Slices and channel groups that no partition owns. -/
def looseSlices (s : State) : List Nat :=
  (List.range 96).filter fun n => !s.flt.slices.contains n && !s.parts.any fun P => P.configured && (waysOf P.cfg).contains n
def looseGroups (s : State) : List Nat :=
  (List.range (4 * stackCount s)).filter fun g => !s.parts.any fun P => P.configured && bitOf P.cfg.groupMask g

/-- A loam frame for a partition: of its ways, else of frames that no partition owns. -/
def rehomeLoam (s : State) (p : Nat) : Option Nat := (freeLoam s 1 (partSlices s (partOf s p) ++ looseSlices s)).head?
def rehomeSub (s : State) (p : Nat) : Option Nat := (freeSub s p 1 ++ freeSubIn s 1 (looseGroups s)).head?

/-- The destination of a plot: the lowest free frame of the partition's other ways, then of its other channel groups, then of
frames that no partition owns. DEDUCED, log entry 117. -/
def rehomeDest (s : State) (p : Nat) : Option Home :=
  ((freeLoam s 1 (partSlices s (partOf s p))).map Home.loam ++ (freeSub s p 1).map Home.subsoil
    ++ (freeLoam s 1 (looseSlices s)).map Home.loam ++ (freeSubIn s 1 (looseGroups s)).map Home.subsoil).head?

/-- A move of a plot away from its failed home. -/
def rehomeMove (p : Nat) (s : State) (k : Nat) : State :=
  match rehomeDest s p with
  | none => s
  | some d => queueMove s p k d .rehome

/-- Moves for every plot of a partition that has lost its home. -/
def rehomePlots (s : State) (p : Nat) : State :=
  (((partOf s p).plots.filter fun e => homeFailed s e.2.home
    && !s.mem.moves.any fun m => m.part == p && m.plot == e.1 && m.cause == .rehome).map (·.1)).foldl (rehomeMove p) s

/-- A reserved destination in a failed frame is replaced by one of its tier. -/
def retarget (s : State) (m : Move) : State :=
  let to? : Option Home := match m.dest with
    | .loam _ => (rehomeLoam s m.part).map .loam
    | .subsoil _ => (rehomeSub s m.part).map .subsoil
    | _ => none
  match to? with
  | some d => { s with mem := { s.mem with moves := s.mem.moves.map fun x => if sameMove x m then { x with dest := d } else x } }
  | none => s

/-- Whether a line of a frame just copied cannot be read. -/
def framePoisoned (s : State) (f : Nat) : Bool := s.mem.poison.any fun l => decide (loamAddr f / 64 ≤ l) && decide (l < loamAddr f / 64 + 1024)

/-- A fallow image moves as one run of frames; one with a poisoned line loses its stream's state. -/
def rehomeImage (s : State) (id : Nat) : State :=
  match streamOf s id with
  | none => s
  | some st =>
    if !st.image.any (fun f => homeFailed s (.loam f)) then s
    else match runIn s st.image.length (partSlices s (partOf s st.part) ++ looseSlices s) with
      | none => s
      | some fs =>
        let s1 := (st.image.zip fs).foldl (fun x (a, b) => copyFrame x (loamAddr a) (loamAddr b)) s
        let whole := (readImage s1 { st with image := fs }).isOk
        let s2 := setStream s1 id fun x => { x with image := fs, imageAddr := loamAddr (fs.headD 0) }
        if whole then s2 else toLost s2 id

/-- Change a slot of a window. -/
def setSlotOf (s : State) (p w i : Nat) (f : WinSlot → WinSlot) : State :=
  setPart s p fun P => match lookupKey w P.windows with
    | some win => { P with windows := insertKey w { win with slots := modifyAt i f win.slots } P.windows }
    | none => P

/-- What a window slot becomes when a line of it cannot be read. -/
def spoiled (addr : Nat) : WinState → WinState
  | .ready pos _ => .failed pos (uncorrectable addr)
  | .filling pos _ => .failed pos (uncorrectable addr)
  | st => st

/-- Frame `j` of slot `i` of a window is copied. -/
def rehomeSlot (s : State) (p w i j : Nat) (f : Nat) : State :=
  match rehomeLoam s p with
  | none => s
  | some b =>
    let s1 := copyFrame s (loamAddr f) (loamAddr b)
    let bad := framePoisoned s1 b
    setSlotOf s1 p w i fun sl => { sl with
      frames := modifyAt j (fun _ => b) sl.frames, st := if bad then spoiled (loamAddr b) sl.st else sl.st }

/-- Every window slot of a partition that has lost a frame. -/
def rehomeWindows (s : State) (p : Nat) : State :=
  let hits := (partOf s p).windows.flatMap fun (w, win) => win.slots.zipIdx.flatMap fun (sl, i) =>
    (sl.frames.zipIdx.filter fun e => homeFailed s (.loam e.1)).map fun (f, j) => (w, i, j, f)
  hits.foldl (fun x (w, i, j, f) => rehomeSlot x p w i j f) s

/-- Pages whose slot has bytes in frame `j` of the pool's loam or subsoil region. -/
def pagesIn (K : Pool) (loam : Bool) (j : Nat) : List Nat :=
  let meets (i : Nat) : Bool := runsMeet (i * pageBytes K) (pageBytes K) (j * plotBytes) plotBytes
  (K.recs.filter fun e => match e.2.home with
    | .loam i => loam && meets i
    | .subsoil i => !loam && meets i
    | .dropped => false).map (·.1)

/-- Frame `j` of a pool's region is replaced; its page slots are not copied, so their pages drop (R273). -/
def rehomePoolFrame (s : State) (p k : Nat) (loam : Bool) (j f : Nat) : State :=
  match (if loam then rehomeLoam s p else rehomeSub s p), poolOf s p k with
  | some b, some K =>
    let s1 := if loam then s else copyFrame (drainFrame s (.subsoil f)) (subAddr f) (subAddr b)
    let s2 := (pagesIn K loam j).foldl (fun x id => dropPage x p k id) s1
    setPool s2 p k fun X => if loam then { X with loamFrames := modifyAt j (fun _ => b) X.loamFrames }
      else { X with subFrames := modifyAt j (fun _ => b) X.subFrames }
  | _, _ => s

/-- Every frame of a partition's pools that has failed. -/
def rehomePools (s : State) (p : Nat) : State :=
  let hits := (partOf s p).pools.flatMap fun (k, K) =>
    ((K.loamFrames.zipIdx.filter fun e => homeFailed s (.loam e.1)).map fun (f, j) => (k, true, j, f))
      ++ ((K.subFrames.zipIdx.filter fun e => homeFailed s (.subsoil e.1)).map fun (f, j) => (k, false, j, f))
  hits.foldl (fun x (k, loam, j, f) => rehomePoolFrame x p k loam j f) s

/-- Whether a command has split scratch, chunk summaries, or tiles in a spill area in loam. -/
def hasScratch (c : Cmd) : Bool :=
  match c.work with
  | some w => w.grid.split || w.grid.scan != 0 || w.spilled.any fun x => x.2.2
  | none => false

/-- R517: a command whose split scratch, spill area or chunk summaries lie in a failed slice ends; the model does not place
scratch, so whether it lies there is a free value. DESIGN CHOICE, log entry 116. -/
def endScratch (s : State) (n : Nat) : State :=
  (queuesWhere s fun Q => Q.state == .run && (waysOf (partOf s Q.cfg.part).cfg).contains n && (match Q.cmd with
    | some c => hasScratch c
    | none => false)).foldl (fun x q =>
      let (k, x1) := takeFree x 1
      if (Config.freeWord k).getLsbD 0 then endFault x1 q 0xFFFFFFFF else x1) s

/-- Everything that has lost its home gets a new one. -/
def rehomeAll (s : State) : State :=
  let s1 := (s.mem.moves.filter fun m => !pageMove m && homeFailed s m.dest).foldl retarget s
  let s2 := (List.range 4).foldl (fun x p => rehomePools (rehomeWindows (rehomePlots x p) p) p) s1
  runMover ((s2.streams.map (·.1)).foldl rehomeImage s2)

def rehomeUnit (s : State) (u : FailUnit) : State :=
  match u with
  | .slice n => rehomeAll (endScratch s n)
  | .frame _ => rehomeAll s
  | .channel _ => rehomeAll s
  | _ => s

/-! ### Release (stage 5) -/

/-- A record enters the fault log, a ring of 32 (Table 24-7). -/
def logFault (s : State) (h : Handling) : State :=
  setFlt s fun F =>
    let e : LogEntry := ⟨h.time, h.unit, h.detector, h.injected, s.now - h.time⟩
    { F with
      log := if F.log.length < 32 then F.log ++ [e] else modifyAt (F.head % 32) (fun _ => e) F.log
      head := (F.head + 1) % 32 }

/-- FAULT_RELEASE (R520): the failure in handling is released, and the next one is fenced. -/
def faultRelease (s : State) : State :=
  match s.flt.handling with
  | h :: rest =>
    if powered s && h.settled then
      fenceFirst (rehomeUnit (logFault (setFlt s fun F => { F with handling := rest }) h) h.unit)
    else s
  | [] => s

def execFaultRelease (s : State) : Host.Outcome State Fault Refusal := .next (faultRelease s)

end Sys2Proof.Machine
end

