-- ==== Sys2Proof/Machine/Bist.lean ====
section
/-! DEFINITION. In-service and start-up tests (R523 to R528) and injection (R529): the periodic slices, BIST_RUN with the
shut-down report, INJECT and the arming of its points. -/

namespace Sys2Proof.Machine

def setBist (s : State) (f : Bist → Bist) : State := setFlt s fun F => { F with bist := f F.bist }

/-! ### Periodic targets (Table 24-4) -/

/-- What a target of a column is, by its number. -/
inductive Target where
  | engine (e : Nat)
  | harrow (f : Nat)
  | tender (t : Nat)
  | bank (f : Nat)
  | slot (e : Nat)
  | frame (n : Nat)
  deriving DecidableEq, Repr

/-- Targets of a column. -/
def targetCount : Nat := 6696

/-- Target number `k` of column `col`: 16 engines, 8 harrows, 16 tenders, 384 banks, 256 slots, 6,016 frames. -/
def targetOf (col k : Nat) : Target :=
  let f (row : Nat) : Nat := row * 12 + col
  if k < 16 then .engine (2 * f (k / 2) + k % 2)
  else if k < 24 then .harrow (f (k - 16))
  else if k < 40 then .tender (2 * f ((k - 24) / 2) + k % 2)
  else if k < 424 then .bank (f ((k - 40) / 48))
  else if k < 680 then .slot (2 * f ((k - 424) / 32) + (k - 424) / 16 % 2)
  else .frame (f ((k - 680) / 752) * 768 + (k - 680) % 752)

/-- The unit that fails when a target fails its test (R515, R525). -/
def targetUnit : Target → FailUnit
  | .engine e => .engine e
  | .harrow f => .furrow f
  | .tender t => .furrow (t / 2)
  | .bank f => .furrow f
  | .slot e => .engine e
  | .frame n => .frame n

/-- The next target of a column from a number on that is neither fenced nor retired. -/
def nextTarget (s : State) (col k : Nat) : Option Nat :=
  ((List.range targetCount).map fun j => (k + j) % targetCount).find? fun t => !unitFailed s (targetUnit (targetOf col t))

/-- A column claims its next target. -/
def claimTarget (s : State) (col : Nat) : State :=
  match nextTarget s col (s.flt.bist.next.getD col 0) with
  | none => s
  | some t => setBist s fun b => { b with
      claims := b.claims ++ [⟨col, t, s.now⟩], next := modifyAt col (fun _ => (t + 1) % targetCount) b.next }

def skipTargets (n : Nat) (b : Bist) : Bist := { b with skipped := satAdd 32 b.skipped n }

/-- The next slice falls due at the next multiple of 100 ms of device time. DEDUCED, log entry 85. -/
def nextSlice (now : Nat) : Nat := (now / 100000000 + 1) * 100000000

/-- BIST_SLICE (R523): a slice is due every 100 ms; below 1.40 GHz it is deferred and its 12 targets are counted. A target still
claimed from the slice before is skipped. DEDUCED, log entry 119. -/
def bistSlice (s : State) : State :=
  let b := s.flt.bist
  if !powered s || !b.startupDone || !b.periodic || decide (s.now < b.due) then s
  else
    let s1 := setBist s fun x => { x with due := nextSlice s.now }
    if b.paused then s1
    else if s.pwr.aclk < 1400 then setBist s1 (skipTargets 12)
    else (List.range 12).foldl claimTarget (setBist s1 fun x => { skipTargets b.claims.length x with slices := satAdd 48 x.slices 1, claims := [] })

def execBistSlice (s : State) : Host.Outcome State Fault Refusal := .next (bistSlice s)

/-- Whether a claimed data-path unit has ended its item (R524); a storage target is tested at once. -/
def targetIdle (s : State) : Target → Bool
  | .engine e => (engineOf s e).items.isEmpty
  | .harrow f => (harrowOf s f).items.isEmpty && (harrowOf s f).intake.isEmpty
  | _ => true

/-- Whether accesses to a target wait for its test (R525). -/
def isStorage : Target → Bool
  | .bank _ => true
  | .slot _ => true
  | .frame _ => true
  | _ => false

/-- The wait of accesses to a storage target, which the spec leaves to their arrival. -/
def addWait (s : State) : State :=
  let (k, s1) := takeFree s 1
  setBist s1 fun b => { b with waitNs := satAdd 48 b.waitNs (Config.freeWord k).toNat }

/-- A test fails: it is counted, and its unit fails (R515). -/
def testFails (s : State) (u : FailUnit) : State :=
  latchFailure (countEvent (setBist s fun b => { b with failed := satAdd 32 b.failed 1 }) 0) u 0 false

/-- BIST_TARGET_TEST (R524, R525): the test of the target that a column has claimed, once the unit's item has ended; after 1 ms
it is skipped. -/
def bistTargetTest (s : State) (col : Nat) (passed : Bool) : State :=
  match s.flt.bist.claims.find? (·.col == col) with
  | none => s
  | some c =>
    let t := targetOf col c.target
    let s1 := setBist s fun b => { b with claims := b.claims.filter (·.col != col) }
    if !powered s then s
    else if !targetIdle s t then (if c.time + 1000000 < s.now then setBist s1 (skipTargets 1) else s)
    else
      let s2 := if isStorage t then addWait s1 else s1
      if passed then s2 else testFails s2 (targetUnit t)

def execBistTargetTest (col : Nat) (passed : Bool) (s : State) : Host.Outcome State Fault Refusal := .next (bistTargetTest s col passed)

/-! ### BIST_RUN (R527, R528) -/

def anyConfigured (s : State) : Bool := s.parts.any (·.configured)

def fullField (s : State) : Bool := match s.boot.profile with | some pr => fullProfile pr | none => false

/-- The reply of op 0: BST_STATUS and the counters, as they lie on page 13 from 0x010. DEDUCED, log entry 83. -/
def bistReport (s : State) : List Byte :=
  let b := s.flt.bist
  toLe 8 (bstStatus s) ++ toLe 8 b.slices ++ toLe 4 b.skipped ++ toLe 4 b.failed ++ toLe 8 b.waitNs
    ++ toLe 2 (min s.flt.frames.length 0xFFFF)

/-- The units that a test can find failing: engines, furrows and frames (Table 24-2). -/
def testable (s : State) (u : FailUnit) : Bool :=
  unitEnabled s u && (match u with | .engine _ => true | .furrow _ => true | .frame _ => true | _ => false)

/-- A full test: every unit that it finds failing is fenced. -/
def fullTest (s : State) (failing : List FailUnit) : State := (failing.filter (testable s)).foldl testFails s

/-- The body of a shut-down report: fenced furrows, engines and slices, links down, up to 64 retired frames, the profile digest
and the time. DEDUCED, log entry 82. -/
def reportBody (s : State) : List Byte :=
  let frames := s.flt.frames.take 64
  let bs := toLe 12 (maskOf s.flt.furrows) ++ toLe 24 (maskOf s.flt.engines) ++ toLe 12 (maskOf s.flt.slices) ++ toLe 22 (maskOf (linksDown s))
    ++ toLe 2 frames.length ++ (List.range 64).flatMap (fun i => toLe 4 (frames.getD i 0))
    ++ bufBytes (match s.boot.profile with | some pr => pr.head.digest | none => []) 0 48 ++ toLe 8 s.now
  bufBytes bs 0 512

/-- A signature with the identity key; its randomness comes from the random source (R484). -/
def signMsg (s : State) (msg : List Byte) : List Byte × State :=
  let (k, s1) := takeFree s 1
  (bufBytes (Config.sign (s.boot.identity.getD 0) (Config.freeKey k) msg) 0 4627, s1)

/-- The report, the body and its signature, is written to a host address. -/
def writeReport (s : State) (addr : Nat) : State :=
  let body := reportBody s
  let (sig, s1) := signMsg s body
  { s1 with mem := { s1.mem with host := memWrite s1.mem.host addr (body ++ sig) } }

/-- The units that a report lists. -/
def reportUnits (bs : List Byte) : List FailUnit :=
  let num (off n : Nat) : Nat := payFld bs off n
  (bitsOf 96 (num 0 12)).map FailUnit.furrow ++ (bitsOf 192 (num 12 24)).map FailUnit.engine ++ (bitsOf 96 (num 36 12)).map FailUnit.slice
    ++ (bitsOf 172 (num 48 22)).map FailUnit.link ++ (List.range (min 64 (num 70 2))).map fun i => FailUnit.frame (num (72 + 4 * i) 4)

/-- R528: the signature verifies under the part's own key, and the profile digest is that of the loaded profile. -/
def reportValid (s : State) (bs : List Byte) : Bool :=
  Config.verify (toLe 32 (s.boot.identity.getD 0)) (bs.take 512) (bs.drop 512)
    && (bs.drop 328).take 48 == bufBytes (match s.boot.profile with | some pr => pr.head.digest | none => []) 0 48

/-- Every unit that the report lists is fenced. -/
def applyReport (s : State) (bs : List Byte) : State :=
  let s1 := (reportUnits bs).foldl (fun x u => if unitFailed x u then x else recover (fenceUnit x u) u) s
  setBist s1 fun b => { b with reportApplied := true }

/-- Full tests and reports run only while no partition is configured. -/
def testForbidden (s : State) : Option Reply := if anyConfigured s then some (plain .loadModeForbidden) else none

/-- Ops 3 and 4: the test begins, with full_running set, and its request stays TAKEN; taken up again, it ends. One test runs at
a time. DESIGN CHOICE, log entry 84. -/
def duringFull (s : State) (a : Asked) (finish : State → Reply × State) : Option Reply × State :=
  if (mbxOf s a.fn a.box).begun then
    let (r, s1) := finish (setBist s fun b => { b with full := false })
    (some r, s1)
  else match testForbidden s with
    | some r => (some r, s)
    | none => (none, if s.flt.bist.full then s else setMbx (setBist s fun b => { b with full := true }) a.fn a.box fun x => { x with begun := true })

/-- A full test whose request ends otherwise is over. -/
def endFull (s : State) (fn m : Nat) : State :=
  let M := mbxOf s fn m
  if M.begun && reqCode M == 0x00A1 then setBist s fun b => { b with full := false } else s

/-- BIST_RUN; what a full test finds comes with the command. -/
def runBist (failing : List FailUnit) (s : State) (a : Asked) : Option Reply × State :=
  let op := payFld a.body 0 1
  let addr := payFld a.body 8 8
  match op with
  | 0 => (some ⟨.completed, 0, 0, bistReport s⟩, s)
  | 1 => if fullField s then (some (plain .completed), setBist s fun b => { b with paused := true }) else (some (plain .loadUnitDisabled), s)
  | 2 => if fullField s then (some (plain .completed), setBist s fun b => { b with paused := false }) else (some (plain .loadUnitDisabled), s)
  | 3 => duringFull s a fun x => (plain .completed, fullTest x failing)
  | 4 => duringFull s a fun x =>
      let s1 := fullTest x failing
      if mayIssue s a.fn then (plain .completed, writeReport s1 addr) else (plain .memUnmapped, s1)
  | 5 => (match testForbidden s with
    | some r => (some r, s)
    | none =>
      if !mayIssue s a.fn then (some (plain .memUnmapped), s)
      else
        let bs := memRead s.mem.host addr 5139
        if reportValid s bs then (some (plain .completed), applyReport s bs) else (some (plain .secSignature), s))
  | _ => (some (plain .loadBadShape), s)

def execBistRun (fn m : Nat) (failing : List FailUnit) (s : State) : Host.Outcome State Fault Refusal :=
  .next (serve s fn m 0x00A1 (runBist failing))

/-! ### INJECT (R529, Table 24-5) -/

/-- Points that bring-up test mode alone accepts. -/
def testModePoint (p : Nat) : Bool := p == 0x11 || p == 0x1F

/-- Whether a target number lies in the numbering of a point's target. -/
def targetInRange (p t : Nat) : Bool :=
  if [0x01, 0x02, 0x05].contains p then decide (t < 192)
  else if [0x03, 0x04, 0x06, 0x07, 0x08, 0x09, 0x0A, 0x0B, 0x16].contains p then decide (t < 96)
  else if [0x0C, 0x0D, 0x0E, 0x0F].contains p then decide (t < 192)
  else if p = 0x12 then decide (t < 172)
  else if p = 0x13 then decide (t < 16)
  else if [0x14, 0x15, 0x1D].contains p then decide (t < 4)
  else if p = 0x18 then decide (t < 102)
  else if p = 0x19 ∨ p = 0x1A then decide (t < 5)
  else if p = 0x1B ∨ p = 0x1C then decide (t < 8)
  else if p = 0x10 ∨ p = 0x11 then true
  else t == 0

/-- Whether the target of a point is enabled. -/
def targetEnabled (s : State) (p t : Nat) : Bool :=
  if [0x01, 0x02, 0x05].contains p then furrowEnabled s (t / 2)
  else if [0x03, 0x04, 0x06, 0x07, 0x16].contains p then furrowEnabled s t
  else if [0x0C, 0x0D, 0x0E, 0x0F].contains p then unitEnabled s (.channel t)
  else if p = 0x12 then unitEnabled s (.link t)
  else if p = 0x18 then (if t < 96 then furrowEnabled s t else decide (t - 96 < stackCount s))
  else if p = 0x19 ∨ p = 0x1A then (pciFn s t).enabled
  else if p = 0x1B ∨ p = 0x1C then portEnabled s (t / 2)
  else if p = 0x1D then (partOf s t).configured
  else true

/-- A point that fires when it arms: its condition takes the real detector's path. -/
def fireAtOnce (s : State) (x : Inj) : State :=
  if x.point = 0x0F then faultLatch s (.channel x.target) 0x0F
  else if x.point = 0x16 then droopTrip (noteInjected s 0x16 x.target) x.target
  else if x.point = 0x17 then vrAlertAssert (noteInjected s 0x17 x.target) 50
  else if x.point = 0x1B then linkDown (noteInjected s 0x1B x.target) x.target
  else s

/-- A slot's point arms. -/
def armSlot (s : State) (slot : Nat) (x : Inj) : State :=
  fireAtOnce (setFlt s fun F => { F with inj := insertKey slot { x with armed := true } F.inj }) x

def sameTarget (p t : Nat) (e : Nat × Inj) : Bool := e.2.point == p && e.2.target == t

/-- INJECT: mode 0 disarms the point at the target; the others take an arming slot, 16 at most. DEDUCED, log entry 120. -/
def runInject (s : State) (a : Asked) : Option Reply × State :=
  let p := payFld a.body 0 2
  let mode := payFld a.body 2 1
  let t := payFld a.body 4 2
  let n := payFld a.body 6 2
  let delay := payFld a.body 8 8
  let cleared := setFlt s fun F => { F with inj := F.inj.filter fun e => !sameTarget p t e }
  if p = 0 ∨ 0x1F < p ∨ 3 < mode ∨ (mode = 2 ∧ n = 0) ∨ targetInRange p t = false then (some (plain .loadBadShape), s)
  else if !targetEnabled s p t then (some (plain .loadUnitDisabled), s)
  else if testModePoint p && !s.boot.testMode then (some (plain .loadModeForbidden), s)
  else if mode = 0 then (some (plain .completed), cleared)
  else match lowestFree (cleared.flt.inj.map (·.1)) 16 with
    | none => (some (plain .loadUnitDisabled), s)
    | some slot =>
      let x : Inj := { point := p, mode := mode, target := t, count := n, due := s.now + delay, armed := false }
      let s1 := setFlt cleared fun F => { F with inj := insertKey slot x F.inj }
      (some (plain .completed), if delay = 0 then armSlot s1 slot x else s1)

def execInject (fn m : Nat) (s : State) : Host.Outcome State Fault Refusal := .next (serve s fn m 0x00A0 runInject)

/-- INJECT_ARM: a slot's delay has passed. -/
def injectArm (s : State) (slot : Nat) : State :=
  match lookupKey slot s.flt.inj with
  | some x => if powered s && !x.armed && decide (x.due ≤ s.now) then armSlot s slot x else s
  | none => s

def execInjectArm (slot : Nat) (s : State) : Host.Outcome State Fault Refusal := .next (injectArm s slot)

end Sys2Proof.Machine
end

