-- ==== Sys2Proof/Machine/DeviceRequests.lean ====
section
/-! DEFINITION. Requests about the device's units: HBM_REPAIR_MARGIN (R349 to R352, R576), TICK_CONFIG (R414, R415) and
BLOB_KEY_SET (R495). -/

namespace Sys2Proof.Machine

/-! ### HBM_REPAIR_MARGIN -/

/-- Why a procedure is refused (R349). -/
def marginRefusal (s : State) (bs : List Byte) : Option Status :=
  let h := payFld bs 0 2
  let r := payFld bs 2 1
  let hard := payFld bs 3 1
  let owned : Bool := s.parts.any fun P => P.configured && bitOf P.cfg.groupMask (h / 8)
  if h < 192 ∧ unitEnabled s (.channel h) = false then some .loadUnitDisabled
  else if 191 < h ∨ r = 0 ∨ 3 < r ∨ 1 < hard ∨ 100 < payFld bs 4 2 ∨ 100 < payFld bs 6 2 then some .loadBadShape
  else if owned || (hard == 1 && !s.boot.testMode) then some .loadModeForbidden
  else none

/-- The rounds that run: up to the first one without a failing row (R350). -/
def roundsRun : Nat → List (Nat × Nat) → List (Nat × Nat)
  | 0, _ => []
  | _ + 1, [] => [(0, 0)]
  | n + 1, (bad, spare) :: rest => if bad = 0 then [(0, 0)] else (bad, min bad spare) :: roundsRun n rest

/-- The result (Table 14-3): unrepaired rows come before a margin below its limit. DEDUCED, log entry 121. -/
def marginReply (bs : List Byte) (f : Margin) : List Byte :=
  let hard := payFld bs 3 1
  let rounds := roundsRun (payFld bs 2 1) f.rounds
  let repairs := (rounds.map (·.2)).foldl (· + ·) 0
  let left := match rounds.getLast? with | some (bad, done) => bad - done | none => 0
  let wLim := orDefault (payFld bs 4 2) 30
  let hLim := orDefault (payFld bs 6 2) 16
  let low : Bool := decide (100 * min f.width0 f.width1 < 64 * wLim) || decide (min f.height0 f.height1 < hLim)
  toLe 2 (payFld bs 0 2) ++ toLe 1 rounds.length ++ toLe 1 (if 0 < left then 2 else if low then 1 else 0)
    ++ toLe 1 f.width0 ++ toLe 1 f.width1 ++ toLe 1 f.height0 ++ toLe 1 f.height1 ++ toLe 4 f.failed
    ++ toLe 4 (if hard = 1 then 0 else repairs) ++ toLe 4 (if hard = 1 then repairs else 0) ++ toLe 4 left ++ toLe 2 f.spares ++ toLe 6 0

/-- The lines of a channel are zeroed (R350). -/
def zeroChannel (s : State) (h : Nat) : State :=
  let on (a : Nat) : Bool := isSub a && channelOf a == h
  { s with mem := { s.mem with
      phys := s.mem.phys.filter fun c => !on c.1
      keys := s.mem.keys.map fun e => if on (e.1 * 64) then (e.1, groupKey s (h / 8)) else e
      poison := s.mem.poison.filter fun l => !on (l * 64)
      wcb := s.mem.wcb.filter fun e => !on (e.line * 64) } }

/-- Repairs of a channel are recorded (R351). -/
def addRepairs (xs : List Repair) (h hard soft : Nat) : List Repair :=
  if xs.any (·.channel == h) then xs.map fun r => if r.channel == h then { r with hard := r.hard + hard, soft := r.soft + soft } else r
  else xs ++ [⟨h, hard, soft⟩]

/-- HBM_REPAIR_MARGIN; what the procedure finds comes with the command. -/
def runMargin (f : Margin) (s : State) (a : Asked) : Option Reply × State :=
  let h := payFld a.body 0 2
  match marginRefusal s a.body with
  | some st => (some (plain st), s)
  | none =>
    if f.lost then (some (plain .faultUnrecovered), latchFailure (countEvent s 0x0F) (.channel h) 0x0F false)
    else
      let n := ((roundsRun (payFld a.body 2 1) f.rounds).map (·.2)).foldl (· + ·) 0
      let hard := payFld a.body 3 1 == 1
      (some ⟨.completed, 0, 0, marginReply a.body f⟩,
        { zeroChannel s h with repairs := addRepairs s.repairs h (if hard then n else 0) (if hard then 0 else n) })

def execHbmRepairMargin (fn m : Nat) (found : Margin) (s : State) : Host.Outcome State Fault Refusal :=
  .next (serve s fn m 0x0060 (runMargin found))

/-! ### TICK_CONFIG -/

def runTickConfig (s : State) (a : Asked) : Option Reply × State :=
  if tickBadShape s a.body then (some (plain .loadBadShape), s)
  else if payFld a.body 0 1 = 2 ∧ portEnabled s (payFld a.body 2 1) = false then (some (plain .loadUnitDisabled), s)
  else (some (plain .completed), tickConfigured s a.body)

def execTickConfig (fn m : Nat) (s : State) : Host.Outcome State Fault Refusal := .next (serve s fn m 0x0070 runTickConfig)

/-! ### BLOB_KEY_SET -/

/-- A slot takes a key. -/
def setBlobKey (s : State) (p slot : Nat) (k : BlobKey) : State := setPart s p fun P => { P with blobKeys := insertKey slot k P.blobKeys }

/-- BLOB_KEY_SET: clear, unwrap under the partition's wrap key, or generate. -/
def runBlobKeySet (s : State) (a : Asked) : Option Reply × State :=
  let slot := payFld a.body 0 1
  let op := payFld a.body 1 1
  if 15 < slot ∨ 2 < op then (some (plain .loadBadShape), s)
  else if op = 0 then (some (plain .completed), setPart s a.part fun P => { P with blobKeys := eraseKey slot P.blobKeys })
  else if op = 2 then
    (let (k, s1) := takeFree s 1
     (some (plain .completed), setBlobKey s1 a.part slot ⟨Config.freeKey k, 2⟩))
  else match (partOf s a.part).wrapKey with
    | none => (some (plain .secKeyAbsent), s)
    | some w => match Config.keyUnwrap w ((a.body.drop 8).take 40) with
      | none => (some (plain .secBlobAuth), s)
      | some key => (some (plain .completed), setBlobKey s a.part slot ⟨key, 1⟩)

def execBlobKeySet (fn m : Nat) (s : State) : Host.Outcome State Fault Refusal := .next (serve s fn m 0x0080 runBlobKeySet)

end Sys2Proof.Machine
end

