-- ==== Sys2Proof/Machine/Microprograms.lean ====
section
/-! DEFINITION. Loading the profile's microprograms at start (R172, R179, R180, R182): why one is refused, and which are loaded. -/

namespace Sys2Proof.Machine

/-! ### Micro-operations -/

/-- The furthest row past its base that a LOOKUP selects (R171). -/
def lookupSpan (imm : Nat) : Nat :=
  let m := fld imm 26 4
  let e := fld imm 10 8 - fld imm 18 8
  match fld imm 30 2 with
  | 0 => e
  | 1 => 2 ^ m - 1
  | _ => e * 2 ^ m + (2 ^ m - 1)

/-- A LOOKUP that is malformed or leaves the rows of its program. -/
def lookupBad (p : Micro) (imm : Nat) : Bool :=
  fld imm 30 2 == 3 || decide (8 < fld imm 26 4) || decide (fld imm 0 10 < p.firstRow)
    || decide (p.firstRow + p.rows.length ≤ fld imm 0 10 + lookupSpan imm)

def opBad (p : Micro) (op : Nat) : Bool :=
  decide (0x0D < fld op 56 8) || fld op 32 12 != 0 || (fld op 56 8 == 0x09 && lookupBad p (fld op 0 32))

/-! ### Seams -/

/-- Where an entry stands, and whether it is a family: a point's input, or a family's interval. -/
def seamLo : Seam → Nat
  | .point s _ _ => s
  | .binade _ lo _ _ => lo
  | .reduce _ lo _ _ => lo

def seamKind : Seam → SeamKind
  | .point _ _ k => k
  | .binade k _ _ _ => k
  | .reduce k _ _ _ => k

/-- The interval of a family entry. -/
def familySpan : Seam → Option (Nat × Nat)
  | .point .. => none
  | .binade _ lo hi _ => some (lo, hi)
  | .reduce _ lo hi _ => some (lo, hi)

def families (p : Micro) : List (Nat × Nat) := p.seams.filterMap familySpan

/-- The point entries as (input, value, kind), in the order in which they are held. -/
def points (p : Micro) : List (Nat × Nat × SeamKind) := p.seams.filterMap fun | .point s v k => some (s, v, k) | _ => none

/-- A reserved pattern field: BINADE beyond m = 6, or a family of kind turning (R172). -/
def patternBad : Seam → Bool
  | .point .. => false
  | .binade k _ _ m => decide (6 < m) || k == .turning
  | .reduce k _ _ _ => k == .turning

/-- Whether a property holds of every two neighbours of a list. -/
def neighbours {α : Type} (ok : α → α → Bool) : List α → Bool
  | [] => true
  | [_] => true
  | x :: y :: rest => ok x y && neighbours ok (y :: rest)

def strictlyRising (p : Micro) : Bool := neighbours (fun a b => flt (f32 a) (f32 b)) ((points p).map (·.1))

/-- An interval with inputs of both signs. -/
def bothSigns (r : Nat × Nat) : Bool := flt (f32 r.1) pzero && flt pzero (f32 r.2)

def meetSpans (a b : Nat × Nat) : Bool := flt (f32 a.1) (f32 b.2) && flt (f32 b.1) (f32 a.2)

/-- Whether some two of a list's elements at different places meet. -/
def anyPair {α : Type} (meets : α → α → Bool) : List α → Bool
  | [] => false
  | x :: xs => xs.any (meets x) || anyPair meets xs

def familyBad (p : Micro) : Bool :=
  (families p).any bothSigns || anyPair meetSpans (families p)
    || (families p).any fun r => (points p).any fun e => fle (f32 r.1) (f32 e.1) && flt (f32 e.1) (f32 r.2)

/-- Values of neighbouring points of one kind run in its direction; a turning entry ends a run. -/
def valuesOrdered (p : Micro) : Bool :=
  neighbours (fun a b => match a.2.2, b.2.2 with
    | .increasing, .increasing => fle (f32 a.2.1) (f32 b.2.1)
    | .decreasing, .decreasing => fle (f32 b.2.1) (f32 a.2.1)
    | _, _ => true) (points p)

/-- Entries in ascending order of where they stand. -/
def insertSeam (x : Seam) : List Seam → List Seam
  | [] => [x]
  | y :: ys => if flt (f32 (seamLo x)) (f32 (seamLo y)) then x :: y :: ys else y :: insertSeam x ys

def seamsByPlace (p : Micro) : List Seam := p.seams.foldl (fun xs x => insertSeam x xs) []

/-- No increasing entry stands beside a decreasing one. -/
def turnsMarked (p : Micro) : Bool :=
  neighbours (fun a b => match seamKind a, seamKind b with
    | .increasing, .decreasing => false
    | .decreasing, .increasing => false
    | _, _ => true) (seamsByPlace p)

/-! ### The store and the verdict -/

/-- Rows that the store does not have, or that a loaded program has taken. -/
def rowsBad (loaded : List Micro) (p : Micro) : Bool :=
  decide (1024 < p.firstRow + p.rows.length)
    || (!p.rows.isEmpty && loaded.any fun q => decide (p.firstRow < q.firstRow + q.rows.length) && decide (q.firstRow < p.firstRow + p.rows.length))

/-- R180: whether a microprogram is refused, after those that are loaded. DEDUCED, log entry 125. -/
def microRefused (loaded : List Micro) (p : Micro) : Bool :=
  p.ident == 0 || reservedFn p.ident || decide (32 < p.ops.length) || decide (64 < p.seams.length) || p.ops.any (opBad p)
    || p.seams.any patternBad || !strictlyRising p || familyBad p || !valuesOrdered p || !turnsMarked p
    || loaded.any (fun q => q.ident == p.ident) || rowsBad loaded p

/-- The microprograms of a profile in turn: those loaded, and the identifiers refused. -/
def loadMicros (ps : List Micro) : List Micro × List Nat :=
  ps.foldl (fun (ok, bad) p => if microRefused ok p then (ok, bad ++ [p.ident]) else (ok ++ [p], bad)) ([], [])

end Sys2Proof.Machine
end

