-- ==== Sys2Proof/Machine/Firmware.lean ====
section
/-! DEFINITION. Firmware: FW_INFO (R513), live update (R510 to R512), the watchdogs and what follows them (R506 to R509), and
the bits that firmware sets (R505, R508). -/

namespace Sys2Proof.Machine

/-! ### Images -/

/-- The object that a fetch brings is accepted (R482): header, lengths, and a signature under a root that the ROM holds. -/
def headOk (h : Signed) (kind len : Nat) : Bool :=
  h.magic == 0x5A525448 && h.kind == kind && decide (h.root ≤ 1) && h.reserved == 0 && h.length == len
    && h.bodyLen + 64 + 5396 == h.length && h.signed

/-- Bytes of an image bank. -/
def bankBytes : Nat := 393216

/-- Check 6 of Table 22-3 (R504): entry point and segments lie within one bank. DEDUCED, log entry 126. -/
def formatOk (i : Image) : Bool :=
  i.reserved == 0 && decide (i.entry < bankBytes) && i.segments.all fun sg => decide (sg.1 + sg.2 ≤ bankBytes)

/-! ### Reeves and image banks (Table 23-1, R499, R500) -/

/-- A reeve that runs an image from its entry point, with both banks execute-only. -/
def runningReeve (bank : Nat) (i : Image) : Reeve :=
  { noReeve with held := false, pc := bank * bankBytes + i.entry, execOnly := [(0, bankBytes), (bankBytes, bankBytes)] }

/-- All four reeves start at the entry point of the running image. -/
def startReeves (s : State) : State :=
  match s.boot.image with
  | some i => setBoot s fun b => { b with reeves := List.replicate 4 (runningReeve b.bank i) }
  | none => s

/-- The security block writes an image into a bank. -/
def writeBank (s : State) (bank : Nat) (i : Image) : State := setBoot s fun b => { b with banks := modifyAt bank (fun _ => some i) b.banks }

/-- An image starts: measurement 5 is extended with it (R487, R488), and its time begins. -/
def startImage (s : State) (i : Image) : State :=
  setBoot s fun b => { b with
    image := some i
    started := s.now
    images := satAdd 32 b.images 1
    chain := Config.sha384 (b.chain ++ i.head.digest ++ toLe 4 i.head.svn) }

/-! ### FW_INFO -/

/-- The reply of FW_INFO. -/
def fwInfoBody (s : State) : List Byte :=
  match s.boot.image with
  | none => toLe 80 0
  | some i =>
    toLe 4 i.head.svn ++ toLe 1 i.head.root ++ toLe 1 s.boot.bank ++ toLe 2 i.handoff ++ bufBytes i.head.digest 0 48
      ++ toLe 8 (s.now - s.boot.started) ++ toLe 8 (wdtExpired s) ++ toLe 4 s.boot.updates ++ toLe 4 0

def runFwInfo (s : State) (_ : Asked) : Option Reply × State := (some ⟨.completed, 0, 0, fwInfoBody s⟩, s)

def execFwInfo (fn m : Nat) (s : State) : Host.Outcome State Fault Refusal := .next (serve s fn m 0x0001 runFwInfo)

/-! ### Live update (R510, R511) -/

/-- Step 1: the limits of R503. -/
def updateBadShape (s : State) (bs : List Byte) : Bool :=
  payFld bs 8 4 == 0 || decide (imageMax < payFld bs 8 4) || payFld bs 0 8 % 4096 != 0 || s.boot.update.isSome || !s.boot.fwAlive

/-- Step 3: checks 5 and 6 of Table 22-3, and the owner's min_fw_svn (R487). -/
def updateSigned (s : State) (len : Nat) (i : Image) : Bool :=
  headOk i.head 1 len && i.head.boundKey == 0 && formatOk i && decide (s.sec.minSvn ≤ i.head.svn)

/-- Step 4: the new image reads what the running image writes. -/
def handoffFits (s : State) (i : Image) : Bool :=
  match s.boot.image with
  | some old => decide (i.handoffMin ≤ old.handoff) && decide (old.handoff ≤ i.handoffMax)
  | none => false

/-- An update that passes its checks: handoff is set, and the request stays taken (R511 step 1). DEDUCED, log entry 130. -/
def beginUpdate (s : State) (a : Asked) (i : Image) : State :=
  setBoot s fun b => { b with
    handoff := true
    update := some { fn := a.fn, box := a.box, image := i, old := b.image.getD i, stage := .quiescing } }

/-- Whether the mailbox is the one whose update is in progress. -/
def updatingBox (s : State) (fn m : Nat) : Bool :=
  match s.boot.update with | some u => u.fn == fn && u.box == m | none => false

/-- FW_UPDATE; what its fetch brings comes with the command. DEDUCED, log entry 127. -/
def runFwUpdate (found : Fetched) (s : State) (a : Asked) : Option Reply × State :=
  if updatingBox s a.fn a.box then (none, s)
  else if updateBadShape s a.body then (some (plain .loadBadShape), s)
  else if !mayIssue s a.fn then (some (plain .memBusError), s)
  else match found with
    | .busError => (some (plain .memBusError), noteInjected s 0x19 a.fn)
    | .timeout => (some (plain .memFarTimeout), noteInjected s 0x1A a.fn)
    | .image i =>
      let s1 := writeBank s (1 - s.boot.bank) i
      if !updateSigned s (payFld a.body 8 4) i then (some (plain .secSignature), s1)
      else if !handoffFits s i then (some (plain .loadModeForbidden), s1)
      else (none, beginUpdate s1 a i)

def execFwUpdate (fn m : Nat) (found : Fetched) (s : State) : Host.Outcome State Fault Refusal :=
  .next (serve s fn m 0x0002 (runFwUpdate found))

/-- Whether a mailbox other than the update's has been taken. -/
def othersTaken (s : State) : Bool :=
  (List.range 5).any fun fn => (List.range 8).any fun m => (mbxOf s fn m).state == .taken && !updatingBox s fn m

def setStage (s : State) (u : Update) (st : UpdSt) : State := setBoot s fun b => { b with update := some { u with stage := st } }

/-- UPDATE_QUIESCED (R511 steps 1 and 2): every request already taken has finished, and the handoff record is written. -/
def updateQuiesced (s : State) : State :=
  match s.boot.update with
  | some u => if u.stage == .quiescing && s.boot.fwAlive && !othersTaken s then setStage s u .saved else s
  | none => s

def execUpdateQuiesced (s : State) : Host.Outcome State Fault Refusal := .next (updateQuiesced s)

/-- UPDATE_SWITCH (R511 step 3): the idle bank becomes active, and the measurements show the new image. -/
def updateSwitch (s : State) : State :=
  match s.boot.update with
  | some u => if u.stage == .saved && s.boot.fwAlive then
      setStage (startReeves (setBoot (startImage s u.image) fun b => { b with bank := 1 - b.bank })) u .switched else s
  | none => s

def execUpdateSwitch (s : State) : Host.Outcome State Fault Refusal := .next (updateSwitch s)

/-- Every shadow page is built. -/
def buildAll (s : State) : State := allKeys.foldl buildPage s

/-- Every function's trapped writes are taken. -/
def drainAll (s : State) : State := (List.range 5).foldl drainTraps s

/-- UPDATE_RESTORED (R511 steps 4 and 5): the pages are rebuilt, handoff clears, FW_UPDATE is replied, and what waited is taken. -/
def updateRestored (s : State) : State :=
  match s.boot.update with
  | some u =>
    if u.stage == .switched && s.boot.fwAlive then
      let s1 := setBoot (buildAll s) fun b => { b with handoff := false, updates := b.updates + 1, update := none }
      drainAll (answer s1 u.fn u.box (plain .completed))
    else s
  | none => s

def execUpdateRestored (s : State) : Host.Outcome State Fault Refusal := .next (updateRestored s)

/-! ### Watchdogs (R506 to R509, R512) -/

/-- The expiries of the last second, with a new one. -/
def expiriesNow (s : State) (r : Nat) : List (Nat × Nat) :=
  (s.boot.expiries ++ [(r, s.now)]).filter fun e => decide (s.now < e.2 + 1000000000)

/-- R506: the reeve is stopped, counted, and fw_alive clears with the event interrupt. DEDUCED, log entry 128. -/
def stopReeve (s : State) (r : Nat) : State :=
  let xs := expiriesNow s r
  raiseEventAll (setBoot s fun b => { b with
    fwAlive := false
    expired := modifyAt r (fun n => satAdd 16 n 1) b.expired
    expiries := xs
    reeves := modifyAt r (fun _ => noReeve) b.reeves
    recovering := (b.recovering.filter (· != r)) ++ [r] }) 3

/-- The request that a reeve was serving waits for its recovery. -/
def holdRequest (s : State) (r : Nat) (held : Option (Nat × Nat)) : State :=
  match held with
  | some (fn, m) => if (mbxOf s fn m).state == .taken then setMbx s fn m fun M => { M with held := some r } else s
  | none => s

/-- An update ends (R512): one that has switched is reverted, and measurement 5 shows the old image once more. -/
def endUpdate (s : State) (r : Nat) : State :=
  match s.boot.update with
  | none => s
  | some u =>
    let s1 := if u.stage == .switched then startReeves (setBoot (startImage s u.old) fun b => { b with bank := 1 - b.bank }) else s
    setMbx (setBoot s1 fun b => { b with update := none }) u.fn u.box fun M => { M with held := some r }

/-- R509: every reeve is held. -/
def failFirmware (s : State) : State :=
  setBoot s fun b => { b with st := .fwFailed, fwAlive := false, fwReady := false, recovering := [], reeves := b.reeves.map fun R => { R with held := true } }

/-- A reeve restarts at the entry point of the running image, in recovery mode (R506). -/
def restartReeve (s : State) (r : Nat) : State :=
  match s.boot.image with
  | some i => setBoot s fun b => { b with reeves := modifyAt r (fun _ => runningReeve b.bank i) b.reeves }
  | none => s

/-- WATCHDOG_EXPIRY: a reeve's watchdog expires; whether the active bank's hash holds, and the mailbox whose request the reeve
was serving, come with the event. -/
def watchdogExpiry (s : State) (r : Nat) (hashOk : Bool) (held : Option (Nat × Nat)) : State :=
  if s.boot.dev == .run && s.boot.st == .running && decide (r < 4) then
    let s1 := noteInjected (noteInjected s 0x14 r) 0x15 r
    let s2 := endUpdate (holdRequest (stopReeve s1 r) r held) r
    if !hashOk || decide (3 ≤ (s2.boot.expiries.filter (·.1 == r)).length) then failFirmware s2 else restartReeve s2 r
  else s

def execWatchdogExpiry (reeve : Nat) (hashOk : Bool) (held : Option (Nat × Nat)) (s : State) : Host.Outcome State Fault Refusal :=
  .next (watchdogExpiry s reeve hashOk held)

/-- What a request does, by its code, for those that need nothing from outside. DEDUCED, log entry 122. -/
def requestRun (code : Nat) : Option (State → Asked → Option Reply × State) :=
  lookupKey code [(0x0001, runFwInfo), (0x0010, runPartitionConfig), (0x0011, runPartitionRemove), (0x0020, runQueueEnable),
    (0x0021, runQueueDisable), (0x0022, runQueueResume), (0x0023, runQueueAbort), (0x0030, runLayoutSet), (0x0031, runStreamQuery),
    (0x0040, runKvPoolSet), (0x0041, runKvQuery), (0x0050, runPlotMap), (0x0051, runPlotUnmap), (0x0052, runPlotQuery), (0x0053, runWindowSet),
    (0x0070, runTickConfig), (0x0080, runBlobKeySet), (0x0090, runPwrConfig), (0x00A0, runInject)]

/-- The moves in slots on plots that a request waits to unmap finish (R313). -/
def finishUnmaps (fn m : Nat) : Nat → State → State
  | 0, s => s
  | n + 1, s =>
    let marked (v : Move) : Bool := s.mem.moves.any fun u => u.cause == .unmap fn m && u.part == v.part && u.plot == v.plot
    match s.mem.moves.find? fun v => v.active && !pageMove v && marked v with
    | some v => finishUnmaps fn m n (plotMoveCommit s v.part v.plot)
    | none => s

/-- Every unit that a full test can find failing. -/
def testUnits : List FailUnit :=
  (List.range 192).map FailUnit.engine ++ (List.range 96).map FailUnit.furrow ++ (List.range (96 * 768)).map FailUnit.frame

/-- A full test that no command ends: what it finds is a free value. DESIGN CHOICE, log entry 188. -/
def finishFull (s : State) (fn m : Nat) : State :=
  let M := mbxOf s fn m
  if M.begun && reqCode M == 0x00A1 then
    let (k, s1) := takeFree s (testUnits.length / 32 + 1)
    fullTest s1 ((testUnits.zipIdx.filter fun e => (Config.freeWord (k + e.2 / 32)).getLsbD (e.2 % 32)).map (·.1))
  else s

/-- The state in which a journal entry has been finished; none when there is nothing to finish. -/
def finishEntry (s : State) (fn m : Nat) : Option State :=
  let M := mbxOf s fn m
  match reqBody s fn M, requestRun (reqCode M) with
  | .ok bs, some run =>
    if (requestFail s fn M bs).isSome || (commandPath (reqCode M) && s.flt.halted) then none
    else match run s ⟨fn, m, (fnPart s fn).getD 0, bs, replyRoom M, reqIndirect M⟩ with
      | (some r, s1) => if r.status == .completed then some s1 else none
      | (none, s1) => if reqCode M = 0x0051 then some (finishUnmaps fn m s1.mem.moves.length s1) else none
  | _, _ => none

/-- R507: the entry is finished or rolled back, and replied with FAULT_WATCHDOG; an unmap of which a part has taken effect is finished. -/
def recoverBox (finish : Bool) (s0 : State) (box : Nat × Nat) : State :=
  let s := endFull s0 box.1 box.2
  let M := mbxOf s box.1 box.2
  match (if finish || (M.begun && reqCode M == 0x0051) then finishEntry s box.1 box.2 else none) with
  | some s1 => answer s1 box.1 box.2 ⟨.faultWatchdog, 1, 0, []⟩
  | none => answer s box.1 box.2 ⟨.faultWatchdog, 0, 0, []⟩

/-- The mailboxes whose requests wait for a reeve. -/
def heldBy (s : State) (r : Nat) : List (Nat × Nat) :=
  (List.range 5).flatMap fun fn => ((List.range 8).filter fun m =>
    (mbxOf s fn m).state == .taken && (mbxOf s fn m).held == some r).map fun m => (fn, m)

/-- WATCHDOG_RECOVERY_DONE: a restarted reeve has settled its journal entry. Once no reeve restarts, an interrupted update's
handoff is over. -/
def watchdogRecoveryDone (s : State) (r : Nat) (finish : Bool) : State :=
  if s.boot.dev == .run && s.boot.st == .running && s.boot.recovering.contains r then
    let s1 := (heldBy s r).foldl (recoverBox finish) s
    let left := s1.boot.recovering.filter (· != r)
    setBoot s1 fun b => { b with recovering := left, handoff := if left.isEmpty then false else b.handoff }
  else s

def execWatchdogRecoveryDone (reeve : Nat) (finish : Bool) (s : State) : Host.Outcome State Fault Refusal :=
  .next (watchdogRecoveryDone s reeve finish)

/-! ### What firmware sets (R505, R508, R536) -/

/-- FW_ALIVE_SET: firmware runs, with no reeve restarting; what was captured is taken. DEDUCED, log entry 129. -/
def fwAliveSet (s : State) : State :=
  if s.boot.dev == .run && s.boot.st == .running && !s.boot.fwAlive && s.boot.recovering.isEmpty then
    drainAll (setBoot s fun b => { b with fwAlive := true })
  else s

def execFwAliveSet (s : State) : Host.Outcome State Fault Refusal := .next (fwAliveSet s)

/-- FW_READY_SET: every shadow page has been built. DEDUCED, log entry 147. -/
def fwReadySet (s : State) : State :=
  if s.boot.dev == .run && s.boot.fwAlive && !s.boot.fwReady then setBoot (buildAll s) fun b => { b with fwReady := true } else s

def execFwReadySet (s : State) : Host.Outcome State Fault Refusal := .next (fwReadySet s)

end Sys2Proof.Machine
end

