-- ==== Sys2Proof/Machine/Startup.lean ====
section
/-! DEFINITION. Start-up (R503, R526, R531 to R537, R547, R577): reset and rails, the milestones after PERST#, the boot checks
of Table 22-3, and the start-up test with which the reeves are released. -/

namespace Sys2Proof.Machine

/-! ### Reset and rails -/

/-- PERST_ASSERT (R532): everything is lost, at any time. -/
def execPerstAssert (s : State) : Host.Outcome State Fault Refusal := .next (if s.boot.dev == .held then s else lostAll s .held)

/-- PERST_RELEASE (R533, R412): device time starts at 0, and the straps are sampled (Table 26-5). -/
def perstRelease (s : State) (strap : Nat) : State :=
  if s.boot.dev == .held then
    { setBoot s fun b => { b with dev := .run } with now := 0, mgmt := { s.mgmt with strap := strap % 4 } }
  else s

def execPerstRelease (strap : Nat) (s : State) : Host.Outcome State Fault Refusal := .next (perstRelease s strap)

/-- RAIL_FAULT (R547): a rail has left its window; the device starts again only after PERST# has been asserted and released. -/
def execRailFault (s : State) : Host.Outcome State Fault Refusal :=
  .next (if s.boot.dev == .run || s.boot.dev == .tripped then lostAll s .railStop else s)

/-! ### Milestones (Table 25-1) -/

/-- CLOCK_LOCK: the fixed clocks have locked; ACLK runs at the floor, and the power protections are active. -/
def clockLock (s : State) : State :=
  if s.boot.dev == .run && !s.boot.clocks then setBoot (setAclk s 400) fun b => { b with clocks := true } else s

def execClockLock (s : State) : Host.Outcome State Fault Refusal := .next (clockLock s)

/-- RANDOM_SOURCE_HEALTH_TESTS_DONE: the result of check 1 of Table 22-3. From then on there is a device key (R346). DEDUCED, log
entry 163. -/
def randomSourceDone (s : State) (ok : Bool) : State :=
  if powered s && !s.boot.rngDone then
    let (k, s1) := takeFree s 1
    { setBoot s1 fun b => { b with rngDone := true, rngOk := ok } with mem := { s1.mem with devKey := Config.freeKey k } }
  else s

def execRandomSourceHealthTestsDone (ok : Bool) (s : State) : Host.Outcome State Fault Refusal := .next (randomSourceDone s ok)

/-- MGMT_FRONT_END_READY: the front end answers on I3C and SMBus. -/
def execMgmtFrontEndReady (s : State) : Host.Outcome State Fault Refusal :=
  .next (if powered s then { s with mgmt := { s.mgmt with ready := true } } else s)

/-- LOAM_ZERO_DONE: all loam slices have been zeroed. -/
def loamZeroDone (s : State) : State :=
  if powered s && !s.boot.loamZeroed then
    { setBoot s fun b => { b with loamZeroed := true } with mem := { s.mem with phys := s.mem.phys.filter fun c => isSub c.1 } }
  else s

def execLoamZeroDone (s : State) : Host.Outcome State Fault Refusal := .next (loamZeroDone s)

/-- Rates, widths and modes that the link trains to (R426). -/
def linkShape (speed width : Nat) (flit : Bool) : Bool :=
  decide (1 ≤ speed) && decide (speed ≤ 7) && [1, 2, 4, 8, 16].contains width && (decide (speed < 6) || flit)

/-- PCIE_LINK_UP (R426, R533): the data link layer comes up; Device Readiness Status is sent the first time, later ones are
counted as retrains. -/
def pcieLinkUp (s : State) (speed width : Nat) (flit : Bool) : State :=
  if powered s && s.boot.rngDone && !s.pcie.linkUp && linkShape speed width flit then
    { s with pcie := { s.pcie with
        linkUp := true, trained := true, speed := speed, width := width, flit := flit
        retrains := if s.pcie.trained then satAdd 32 s.pcie.retrains 1 else s.pcie.retrains
        readiness := if s.pcie.trained then s.pcie.readiness else s.pcie.readiness ++ [0] } }
  else s

def execPcieLinkUp (speed width : Nat) (flit : Bool) (s : State) : Host.Outcome State Fault Refusal := .next (pcieLinkUp s speed width flit)

/-! ### The boot checks (Table 22-3, R482 to R486) -/

/-- The first check that fails, as boot_fail. -/
def bootFail (s : State) (p : Profile) (i : Image) : Option Nat :=
  if !s.boot.rngOk then some 8
  else if !headOk p.head 2 (s.boot.len % 2 ^ 32) then some 1
  else match Config.pufIdentity p.head.digest with
    | none => some 3
    | some k =>
      if k ≠ p.head.boundKey then some 4
      else if !headOk i.head 1 (s.boot.len / 2 ^ 32) || i.head.boundKey != 0 then some 5
      else if !formatOk i then some 6
      else none

/-- A load ends in FAILED. -/
def failLoad (s : State) (code : Nat) : State := setBoot s fun b => { b with st := .failed, fail := code }

/-- The links take the MAC addresses of the profile (R447). -/
def applyMacs (s : State) (p : Profile) : State :=
  { s with net := { s.net with links := s.net.links.zipIdx.map fun (l, n) => { l with mac := p.macs.getD n 0 } } }

/-- The checks pass: identity, profile and image stand, and the start-up test begins, for which ACLK leaves the floor (R534).
DEDUCED, log entry 131. -/
def passChecks (s : State) (p : Profile) (i : Image) : State :=
  leaveFloor (applyMacs (setBoot s fun b => { b with
    st := .check, profile := some p, identity := some p.head.boundKey, image := some i, bank := 0 }) p)

/-- BOOT_FETCH_DONE (R503): profile and image have been fetched, the image into bank 0, and the checks run. -/
def bootFetchDone (s : State) (p : Profile) (i : Image) : State :=
  if s.boot.st == .fetch then
    match bootFail s p i with
    | some code => failLoad (writeBank s 0 i) code
    | none => passChecks (writeBank s 0 i) p i
  else s

def execBootFetchDone (profile : Profile) (image : Image) (s : State) : Host.Outcome State Fault Refusal :=
  .next (bootFetchDone s profile image)

/-- BOOT_FETCH_TIMEOUT (R503): a fetch read gets no completion within 10 ms. -/
def execBootFetchTimeout (s : State) : Host.Outcome State Fault Refusal :=
  .next (if s.boot.st == .fetch then noteInjected (failLoad s 7) 0x1A 0 else s)

/-! ### The start-up test (R526, R534, R577) -/

/-- The units that the start-up test can find failing; loam is not tested. -/
def startTested (s : State) (u : FailUnit) : Bool :=
  unitEnabled s u && !unitFailed s u && (match u with | .engine _ => true | .furrow _ => true | _ => false)

/-- A unit that fails is fenced before any partition exists. DEDUCED, log entry 118. -/
def fenceAtStart (s : State) (u : FailUnit) : State :=
  if startTested s u then
    logFault (recover (fenceUnit (countEvent (setBist s fun b => { b with startupFail := true, failed := satAdd 32 b.failed 1 }) 0) u) u)
      ⟨u, 0, false, s.now, true⟩
  else s

/-- Tilth and accumulators are initialised, and in the full-field profile the units are tested. -/
def startTest (s : State) (failing : List FailUnit) : State :=
  let s1 := { s with field := { s.field with accum := [], tilth := [] } }
  let s2 := if fullField s then failing.foldl fenceAtStart s1 else s1
  setBist s2 fun b => { b with startupDone := true, periodic := fullField s, due := nextSlice s.now }

/-- The microprograms are loaded (R180). -/
def loadProfileMicros (s : State) : State :=
  match s.boot.profile with
  | none => s
  | some p => setBoot s fun b => { b with loaded := (loadMicros p.micros).1, refused := (loadMicros p.micros).2 }

/-- STARTUP_TEST_DONE: the test ends, microprograms load, the reeves are released, and bring-up test mode begins (R577). -/
def startupTestDone (s : State) (failing : List FailUnit) : State :=
  if powered s && s.boot.st == .check then
    let s1 := loadProfileMicros (startTest s failing)
    let s2 := match s1.boot.image with | some i => startImage s1 i | none => s1
    setBoot (startReeves s2) fun b => { b with st := .running, testMode := true }
  else s

def execStartupTestDone (failing : List FailUnit) (s : State) : Host.Outcome State Fault Refusal := .next (startupTestDone s failing)

end Sys2Proof.Machine
end

