-- ==== Sys2Proof/Machine/PciRows.lean ====
section
/-! DEFINITION. PCI Express (R426 to R445): configuration requests, function-level and hot resets, D3hot, completion errors,
IDE streams and DOE Discovery. -/

namespace Sys2Proof.Machine

def setPcie (s : State) (f : Pcie → Pcie) : State := { s with pcie := f s.pcie }

/-- Whether configuration requests reach a function: the device runs, its link is up and the function is enabled (R428). -/
def pciReaches (s : State) (fn : Nat) : Bool := s.boot.dev == .run && s.pcie.linkUp && decide (fn < 5) && (pciFn s fn).enabled

/-! ### Function-level reset (R444, R393) -/

/-- A request that firmware has taken runs to its end (R393): the moves that it waits for and its full test finish, and its effect stands.
DEDUCED, log entry 133. -/
def finishTaken (s : State) (fn m : Nat) : State :=
  let s1 := finishFull (finishUnmaps fn m s.mem.moves.length s) fn m
  (finishEntry s1 fn m).getD s1

/-- The requests of a function end; the reply of an update in progress will go to no mailbox. -/
def endRequests (s : State) (fn : Nat) : State :=
  let taken := (List.range 8).filter fun m => (mbxOf s fn m).state == .taken && !updatingBox s fn m
  let s1 := taken.foldl (fun x m => endFull (finishTaken x fn m) fn m) s
  setBoot s1 fun b => { b with update := b.update.map fun u => if u.fn == fn then { u with box := 8 } else u }

/-- R444: one function is reset. Its requests stop first; then its queues, mailboxes, trap words, MSI-X table and per-function
registers go. PRESUMED, log entry 132. DEDUCED, log entry 134. -/
def resetFunction (s : State) (fn : Nat) : State :=
  let s1 := setPci s fn fun f => { f with resetting := true, bme := false, d3hot := false, config := [] }
  let s2 := endRequests (disableWhere s1 fun Q => Q.cfg.owner == fn) fn
  let s3 := setFn s2 fn fun _ => noFunction
  if fwServes s3 then [0, 3, 4, 8].foldl (fun x page => buildPage x (fn * 64 + page)) s3 else s3

/-- VF Enable clears, and every enabled virtual function is reset with it (R445). DEDUCED, log entry 136. -/
def clearVfEnable (s : State) : State :=
  let s1 := ((rangeFrom 1 4).filter fun fn => (pciFn s fn).enabled).foldl resetFunction s
  setPcie ((rangeFrom 1 4).foldl (fun x fn => setPci x fn fun f => { f with enabled := false }) s1) fun p => { p with vfEnable := false }

/-- A load whose fetch is cut off ends (Table 25-3). -/
def cutFetch (s : State) : State := if s.boot.st == .fetch then failLoad s 7 else s

/-- FUNCTION_LEVEL_RESET (R444, R445, R541). -/
def functionLevelReset (s : State) (fn : Nat) : State :=
  if !pciReaches s fn then s
  else if fn = 0 then setPcie (clearVfEnable (resetFunction (cutFetch s) 0)) fun p => { p with numVfs := 0 }
  else resetFunction s fn

def execFunctionLevelReset (fn : Nat) (s : State) : Host.Outcome State Fault Refusal := .next (functionLevelReset s fn)

/-- FUNCTION_READINESS_STATUS (R444): the reset is complete. -/
def functionReadinessStatus (s : State) (fn : Nat) : State :=
  if pciReaches s fn && (pciFn s fn).resetting then
    setPcie (setPci s fn fun f => { f with resetting := false }) fun p => { p with readiness := p.readiness ++ [fn + 1] }
  else s

def execFunctionReadinessStatus (fn : Nat) (s : State) : Host.Outcome State Fault Refusal := .next (functionReadinessStatus s fn)

/-- The keys of an IDE stream end with its reset (Table 22-7). -/
def dropIde (x : IdeStream) : IdeStream := { x with secure := false, key := none }

/-- HOT_RESET (R445): a Hot Reset or a link that goes down resets every function; the IDE streams are reset with the link.
PRESUMED, log entry 135. -/
def hotReset (s : State) : State :=
  if s.boot.dev == .run && s.pcie.linkUp then
    let s1 := setPcie (clearVfEnable (resetFunction (cutFetch s) 0)) fun p => { p with numVfs := 0 }
    setPcie s1 fun p => { p with linkUp := false, ide := p.ide.map dropIde }
  else s

def execHotReset (s : State) : Host.Outcome State Fault Refusal := .next (hotReset s)

/-! ### Power states (R429) -/

/-- D3HOT_ENTRY. -/
def execD3hotEntry (fn : Nat) (s : State) : Host.Outcome State Fault Refusal :=
  .next (if pciReaches s fn then setPci s fn fun f => { f with d3hot := true } else s)

/-- RETURN_TO_D0: the commands of its queues resume, and pending entries send their messages. -/
def returnToD0 (s : State) (fn : Nat) : State :=
  if pciReaches s fn && (pciFn s fn).d3hot then
    (List.range 64).foldl (fun x e => sendPending x fn e) (setPci s fn fun f => { f with d3hot := false })
  else s

def execReturnToD0 (fn : Nat) (s : State) : Host.Outcome State Fault Refusal := .next (returnToD0 s fn)

/-! ### Configuration space (R427, R428, R430, R443) -/

/-- A stored configuration value of a function. -/
def storedCfg (s : State) (fn key : Nat) : Nat := (lookupKey key (pciFn s fn).config).getD 0

/-- Where the model stores the registers that it names by number: BAR0 first, then the others. -/
def bar0Key : Nat := 0
def payloadKey : Nat := 1
def readRequestKey : Nat := 2
def otherKey (r : Nat) : Nat := r + 64

/-- Whether a function has a feature of Table 19-2: those of the left column, of which SR-IOV, DOE and IDE are the physical function's
(R430, R442, R443). -/
def hasFeature (fn : Nat) : PciFeature → Bool
  | .sriov => fn == 0
  | .doe => fn == 0
  | .ide => fn == 0
  | .tags14 => true
  | .relaxedOrdering => true
  | .idOrdering => true
  | .aer => true
  | .ecrc => true
  | .msix => true
  | .flr => true
  | .aspmL1 => true
  | .l0p => true
  | .drs => true
  | .frs => true
  | .powerManagement => true
  | _ => false

/-- Where the enable of a feature is stored; the others have none, or none that the device supports. -/
def enableKey : PciFeature → Option Nat
  | .tags14 => some 3
  | .relaxedOrdering => some 4
  | .idOrdering => some 5
  | .ecrc => some 6
  | .msix => some 7
  | .aspmL1 => some 8
  | .l0p => some 9
  | _ => none

/-- Number of an IDE stream's range: Selective streams 0 to 3. -/
def selIde (s : State) (i : Nat) : IdeStream := if i < 4 then s.pcie.ide.getD (i + 1) noIde else noIde

/-- The low bits of a 64-bit memory BAR of 1 MiB, not prefetchable (R431). -/
def bar0Value (s : State) (fn : Nat) : Nat := if fn = 0 then storedCfg s fn bar0Key / 2 ^ 20 * 2 ^ 20 + 4 else 0

/-- What a configuration read returns. DESIGN CHOICE, log entry 80. -/
def configRead (s : State) (fn : Nat) (reg : CfgReg) : Nat :=
  let pf (v : Nat) : Nat := if fn = 0 then v else 0
  match reg with
  | .vendorDevice => Config.vendorId % 2 ^ 16 + (if fn = 0 then 0x0B96 else 0x0B97) * 2 ^ 16
  | .classCode => 0x120000
  | .command => bit (pciFn s fn).bme 2
  | .bar0 => bar0Value s fn
  | .totalVfs => pf 4
  | .initialVfs => pf 4
  | .firstVfOffset => pf 1
  | .vfStride => pf 1
  | .numVfs => pf s.pcie.numVfs
  | .supported f => bit (hasFeature fn f) 0
  | .enable f => (match enableKey f with | some k => storedCfg s fn k | none => 0)
  | .maxPayload => storedCfg s fn payloadKey
  | .maxReadRequest => (lookupKey readRequestKey (pciFn s fn).config).getD 2
  | .vfEnable => pf (bit s.pcie.vfEnable 0)
  | .ideFirstFn i => pf (selIde s i).firstFn
  | .ideLastFn i => pf (selIde s i).lastFn
  | .ideFirstAddr i => pf (selIde s i).firstAddr
  | .ideLastAddr i => pf (selIde s i).lastAddr
  | .other r => Config.configValue r (storedCfg s fn (otherKey r))

/-- VF Enable is set: virtual functions 1 to NumVFs exist. -/
def setVfEnable (s : State) : State :=
  setPcie ((rangeFrom 1 s.pcie.numVfs).foldl (fun x fn => setPci x fn fun f => { f with enabled := true }) s) fun p => { p with vfEnable := true }

/-- A range of a Selective IDE stream is set. -/
def setRange (s : State) (i : Nat) (f : IdeStream → IdeStream) : State :=
  if i < 4 then setPcie s fun p => { p with ide := modifyAt (i + 1) f p.ide } else s

/-- What a configuration write does; one to a read-only register, one of a register that the function does not have, and one of a value
that Table 19-2 does not list, does nothing. DESIGN CHOICE, log entry 80. -/
def configWrite (s : State) (fn : Nat) (reg : CfgReg) (v : Nat) : State :=
  let pf (x : State) : State := if fn = 0 then x else s
  let store (key : Nat) (v : Nat) : State := setPci s fn fun f => { f with config := insertKey key v f.config }
  match reg with
  | .command => setPci s fn fun f => { f with bme := bitOf v 2 }
  | .bar0 => pf (store bar0Key v)
  | .numVfs => pf (if v ≤ 4 ∧ s.pcie.vfEnable = false then setPcie s fun p => { p with numVfs := v } else s)
  | .vfEnable => pf (if bitOf v 0 then (if s.pcie.vfEnable then s else setVfEnable s) else if s.pcie.vfEnable then clearVfEnable s else s)
  | .ideFirstFn i => pf (setRange s i fun x => { x with firstFn := v })
  | .ideLastFn i => pf (setRange s i fun x => { x with lastFn := v })
  | .ideFirstAddr i => pf (setRange s i fun x => { x with firstAddr := v })
  | .ideLastAddr i => pf (setRange s i fun x => { x with lastAddr := v })
  | .enable f => (match enableKey f with | some k => store k (v % 2) | none => s)
  | .maxPayload => if v ≤ 2 then store payloadKey v else s
  | .maxReadRequest => if v ≤ 5 then store readRequestKey v else s
  | .other r => store (otherKey r) v
  | .supported _ => s
  | .vendorDevice => s
  | .classCode => s
  | .totalVfs => s
  | .initialVfs => s
  | .firstVfOffset => s
  | .vfStride => s

def say (s : State) (a : Answer) : State := { s with out := s.out ++ [a] }

/-- CONFIG_REQUEST (R428): hardware answers, whatever the state of firmware; a write is answered with 0. DESIGN CHOICE, log entry 137. -/
def configRequest (s : State) (fn : Nat) (reg : CfgReg) (write : Option Nat) : State :=
  if !pciReaches s fn then s
  else match write with
    | some v => say (configWrite s fn reg v) (.config fn 0)
    | none => say s (.config fn (configRead s fn reg))

def execConfigRequest (fn : Nat) (reg : CfgReg) (write : Option Nat) (s : State) : Host.Outcome State Fault Refusal :=
  .next (configRequest s fn reg write)

/-! ### Completion errors (R437, R438, R403, R503) -/

/-- Whether a span touches a plot homed in host memory. -/
def touchesHost (s : State) (p : Nat) (spans : List (Nat × Nat)) : Bool :=
  (partOf s p).plots.any fun (k, pl) => pl.home == .host && touches spans k

/-- The move of a plot out of host memory that is in a slot for a queue's command. -/
def hostMove (s : State) (q : Nat) : Option Move :=
  s.mem.moves.find? fun m => m.active && !pageMove m && moveQueue m == some q
    && (match plotOf s m.part m.plot with | some pl => pl.home == .host | none => false)

/-- The next line that a queue's channel command reads of host memory, as descriptor and offset: of a copy's source, or the flushing read
of DRILL_VISIBLE (R438). -/
def drillHostLine (s : State) (q : Nat) (c : Cmd) : Option (Nat × Nat) :=
  let p := (queueOf s q).cfg.part
  if hOpcode c.hdr = 0x210 then (if (flushFns s p).isEmpty then none else some (0, 0))
  else ((channelNo s (queueOf s q).cfg.channel).store.zipIdx.drop c.done).findSome? fun (e, i) => (hostOffset s p e.2).map fun o => (i, o)

/-- An error on such a read takes the path of R365. -/
def drillHostError (s : State) (q : Nat) (c : Cmd) : Option State :=
  (drillHostLine s q c).map fun (d, off) => drillBusError s (queueOf s q).cfg.channel d off

/-- What the error of a read of queue `q`, which its reissues have met too, ends: a move, an executing command, one at stage B,
or the fetch of its ring. DEDUCED, log entry 138. -/
def hostErrorEnd (s : State) (q : Nat) : Option State :=
  let Q := queueOf s q
  let p := Q.cfg.part
  let f := failAt .memUnmapped 0 0
  match hostMove s q, Q.cmd with
  | some m, _ =>
    some (runMover (moveFail (countMoveFailed (settleMove s m) m.part) m f))
  | none, some c =>
    if Q.state = .run then
      (if Q.cfg.kind = 2 ∧ hOpcode c.hdr ≠ 0x220 then drillHostError s q c
       else if touchesHost s p c.reads && undecided Q then
         some (endRead s q p c f)
       else none)
    else if Q.state = .check ∧ Q.result = none ∧ touchesHost s p (farSpans s q) = true then
      some (setResult s q (failResult f 0))
    else none
  | none, none => if Q.state = .fetch ∧ touchesHost s p [(ringAddr Q Q.head, 64)] then some (ringFault s q f 0) else none

/-- HOST_COMPLETION_ERROR: a completion with Unsupported Request, Completer Abort or poisoned data; during a boot fetch it ends
the load. -/
def hostCompletionError (s : State) (q : Nat) : State :=
  if s.boot.st == .fetch then noteInjected (failLoad s 7) 0x19 0
  else match hostErrorEnd s q with
    | some s1 => noteInjected s1 0x19 (queueOf s q).cfg.owner
    | none => s

def execHostCompletionError (q : Nat) (s : State) : Host.Outcome State Fault Refusal := .next (hostCompletionError s q)

/-! ### IDE and DOE (R442, R443) -/

/-- A finished session over the physical function's DOE. -/
def doeSession (s : State) (num : Nat) : Bool := s.sec.sessions.any fun x => x.num == num && x.doe && x.finished

/-- IDE_KM: a key, a start or a stop of an IDE stream, 0 the link's. A start needs a key. -/
def ideKm (s : State) (session stream : Nat) (op : IdeOp) : State :=
  if !(pciReaches s 0 && doeSession s session) then s
  else
    let change (f : IdeStream → IdeStream) : State := say (setPcie s fun p => { p with ide := modifyAt stream f p.ide }) (.spdm true (.ideKm stream true))
    let refused := say s (.spdm true (.ideKm stream false))
    if 5 ≤ stream then refused
    else match op with
      | .program k => change fun x => { x with key := some k }
      | .go => if (s.pcie.ide.getD stream noIde).key.isSome then change fun x => { x with secure := true } else refused
      | .stop => change dropIde

def execIdeKm (session stream : Nat) (op : IdeOp) (s : State) : Host.Outcome State Fault Refusal := .next (ideKm s session stream op)

/-- IDE_CHECK_FAIL: a TLP that fails its check is discarded and reported, and the stream enters Insecure. -/
def ideCheckFail (s : State) (stream : Nat) : State :=
  if s.pcie.linkUp && (s.pcie.ide.getD stream noIde).secure then
    setPcie s fun p => { p with aer := p.aer + 1, ide := modifyAt stream (fun x => { x with secure := false }) p.ide }
  else s

def execIdeCheckFail (stream : Nat) (s : State) : Host.Outcome State Fault Refusal := .next (ideCheckFail s stream)

/-- The data object types of the DOE instance, by index (Table 19-2). -/
def doeKinds : List String := ["Discovery", "CMA/SPDM", "Secured CMA/SPDM"]

/-- DOE_DISCOVERY (R442): the type at an index. -/
def execDoeDiscovery (index : Nat) (s : State) : Host.Outcome State Fault Refusal :=
  .next (if pciReaches s 0 then say s (.discovery index ((doeKinds[index]?).toList)) else s)

end Sys2Proof.Machine
end

