-- ==== Sys2Proof/Machine/Spdm.lean ====
section
/-! DEFINITION. Attestation (R488 to R491, R537, R538): measurements and the SPDM responder over DOE and MCTP; and the owner's
requests (R492, R493, R497). -/

namespace Sys2Proof.Machine

def setSec (s : State) (f : Security → Security) : State := { s with sec := f s.sec }

/-! ### Measurements (Table 22-4) -/

/-- The certificate chain of slot 0 (R485). -/
def chainBytes (s : State) : List Byte := match s.boot.profile with | some p => p.chain | none => []

/-- Measurement 4: identifiers and bytes of the loaded microprograms, and the refused identifiers. -/
def microDigest (s : State) : List Byte :=
  Config.sha384 ((s.boot.loaded.flatMap fun p => toLe 1 p.ident ++ p.raw) ++ s.boot.refused.flatMap (toLe 1))

/-- The content of a measurement block. -/
def measurement (s : State) (i : Nat) : Option (List Byte) :=
  let signed (h : Signed) : List Byte := bufBytes h.digest 0 48 ++ toLe 4 h.svn ++ toLe 1 h.root
  match i with
  | 1 => some Config.romDigest
  | 2 => some (match s.boot.image with | some x => signed x.head | none => [])
  | 3 => some (match s.boot.profile with
      | some p => signed p.head ++ toLe 1 p.furrows ++ toLe 1 p.ports ++ toLe 1 p.hbmStacks
      | none => [])
  | 4 => some (microDigest s)
  | 5 => some (toLe 4 s.boot.images ++ s.boot.chain)
  | 6 => some (toLe 48 (s.sec.owner.getD 0))
  | 7 => some (toLe 8 (policyWord s))
  | 8 => some ((List.range 4).flatMap fun p => if (partOf s p).configured then bufBytes (partOf s p).digest 0 48 else toLe 48 0)
  | _ => none

/-- How many blocks there are. -/
def measurementCount : Nat := 8

/-- The blocks that an index asks for: 0 their number, 0xFF all of them. -/
def measured (s : State) (i : Nat) : Option (List (Nat × List Byte)) :=
  if i = 0 then some [(0, toLe 1 measurementCount)]
  else if i = 0xFF then some ((rangeFrom 1 measurementCount).map fun k => (k, (measurement s k).getD []))
  else (measurement s i).map fun bs => [(i, bs)]

/-! ### The responder's two paths (R490, R537, R538) -/

def pathOf (s : State) (doe : Bool) : SpdmPath := if doe then s.sec.doe else s.sec.mctp

def setPath (s : State) (doe : Bool) (f : SpdmPath → SpdmPath) : State :=
  setSec s fun x => if doe then { x with doe := f x.doe } else { x with mctp := f x.mctp }

/-- Whether a message reaches the responder's front: the physical function's DOE, or the management front end. -/
def pathUp (s : State) (doe : Bool) : Bool := if doe then pciReaches s 0 else s.boot.dev == .run && s.mgmt.ready

/-- An ERROR response is counted (Table 22-9). DEDUCED, log entry 79. -/
def sayError (s : State) (doe : Bool) (e : SpdmErr) : State :=
  say (setSec s fun x => { x with spdmErrors := satAdd 32 x.spdmErrors 1 }) (.spdm doe (.error e))

/-- A message that the front end answers itself while firmware is not ready (R538). -/
def countNotReady (s : State) : State := { s with mgmt := { s.mgmt with notReady := satAdd 16 s.mgmt.notReady 1 } }

/-- The bytes of a response that can outgrow the requester's transfer size. -/
def rspBytes : SpdmRsp → List Byte
  | .digests bs => bs
  | .certificate bs _ => bs
  | .challengeAuth sig => sig
  | .measurements blocks sig => (blocks.flatMap fun b => toLe 1 b.1 ++ b.2) ++ sig.getD []
  | .keyExchange _ sig => sig
  | _ => []

/-- A response is sent, or, larger than the requester takes, waits for CHUNK_GET behind an ERROR. -/
def sayRsp (s : State) (doe : Bool) (r : SpdmRsp) : State :=
  let n := (pathOf s doe).xfer
  if n ≠ 0 ∧ n < (rspBytes r).length then sayError (setPath s doe fun p => { p with large := rspBytes r }) doe .large
  else say s (.spdm doe r)

/-- A request on a path that reaches the responder: `early` ones are answered before the identity is derived (R490). DEDUCED, log
entry 142. -/
def atResponder (s : State) (doe early : Bool) (act : State → State) : State :=
  if !pathUp s doe then s
  else if !doe && !relayUp s then say (countNotReady s) (.spdm false (.error .busy))
  else if !early && s.boot.identity.isNone then sayError s doe .busy
  else act s

/-- A request that ends in an error or in a response with the state after it. -/
def request (s : State) (doe early : Bool) (act : State → Except SpdmErr (SpdmRsp × State)) : State :=
  atResponder s doe early fun x => match act x with
    | .ok (r, x1) => sayRsp x1 doe r
    | .error e => sayError x doe e

/-- A request for which ML-DSA-87 must have been agreed (R491). -/
def signedOnly (s : State) (doe : Bool) (act : Except SpdmErr (SpdmRsp × State)) : Except SpdmErr (SpdmRsp × State) :=
  if (pathOf s doe).agreed then act else .error .unsupported

/-! ### Connection (R490, R491) -/

/-- GET_VERSION: versions 1.2 and 1.3; the connection starts anew. -/
def execGetVersion (doe : Bool) (s : State) : Host.Outcome State Fault Refusal :=
  .next (request s doe true fun x => .ok (.version [0x12, 0x13], setPath x doe fun _ => noPath))

/-- GET_CAPABILITIES, with the requester's transfer size. -/
def execGetCapabilities (doe : Bool) (xfer : Nat) (s : State) : Host.Outcome State Fault Refusal :=
  .next (request s doe true fun x => .ok (.capabilities, setPath x doe fun p => { p with xfer := xfer }))

/-- NEGOTIATE_ALGORITHMS: whether the requester offers ML-DSA-87 (R491). -/
def execNegotiateAlgorithms (doe mldsa : Bool) (s : State) : Host.Outcome State Fault Refusal :=
  .next (request s doe true fun x => .ok (.algorithms mldsa, setPath x doe fun p => { p with agreed := mldsa }))

/-! ### Certificates, challenge and measurements -/

/-- GET_DIGESTS: the digest of slot 0's chain. -/
def execGetDigests (doe : Bool) (s : State) : Host.Outcome State Fault Refusal :=
  .next (request s doe false fun x => signedOnly x doe (.ok (.digests (Config.sha384 (chainBytes x)), x)))

/-- A portion of slot 0's chain, with what is left of it. -/
def certificate (s : State) (slot off len : Nat) : Except SpdmErr (SpdmRsp × State) :=
  let bs := chainBytes s
  if slot ≠ 0 ∨ bs.length ≤ off then .error .invalid
  else .ok (.certificate ((bs.drop off).take len) (bs.length - off - min len (bs.length - off)), s)

/-- GET_CERTIFICATE: slot 0 only. -/
def execGetCertificate (doe : Bool) (slot off len : Nat) (s : State) : Host.Outcome State Fault Refusal :=
  .next (request s doe false fun x => signedOnly x doe (certificate x slot off len))

/-- CHALLENGE: signed with the identity key (R484). -/
def execChallenge (doe : Bool) (slot : Nat) (nonce : List Byte) (s : State) : Host.Outcome State Fault Refusal :=
  .next (request s doe false fun x => signedOnly x doe (
    if slot ≠ 0 then .error .invalid
    else
      let (sig, x1) := signMsg x nonce
      .ok (.challengeAuth sig, x1)))

/-- A session of a path. -/
def sessionOn (s : State) (doe : Bool) (num : Nat) : Option Session := s.sec.sessions.find? fun x => x.num == num && x.doe == doe

/-- A finished session of a path. -/
def openSession (s : State) (doe : Bool) (num : Nat) : Option Session := (sessionOn s doe num).filter (·.finished)

/-- The measurements that an index asks for, signed when the request carries a nonce. -/
def measurements (s : State) (doe : Bool) (session : Option Nat) (index : Nat) (nonce : Option (List Byte)) :
    Except SpdmErr (SpdmRsp × State) :=
  if (match session with | some n => (openSession s doe n).isNone | none => false) then .error .invalidSession
  else match measured s index, nonce with
    | none, _ => .error .invalid
    | some blocks, none => .ok (.measurements blocks none, s)
    | some blocks, some bs => signedOnly s doe (
        let (sig, s1) := signMsg s (bs ++ blocks.flatMap fun b => toLe 1 b.1 ++ b.2)
        .ok (.measurements blocks (some sig), s1))

/-- GET_MEASUREMENTS (R488). -/
def execGetMeasurements (doe : Bool) (session : Option Nat) (index : Nat) (nonce : Option (List Byte)) (s : State) :
    Host.Outcome State Fault Refusal :=
  .next (request s doe false fun x => measurements x doe session index nonce)

/-! ### Sessions -/

/-- At most four sessions are open on both paths together. -/
def sessionLimit : Nat := 4

def setSession (s : State) (num : Nat) (f : Session → Session) : State :=
  setSec s fun x => { x with sessions := x.sessions.map fun y => if y.num == num then f y else y }

def dropSession (s : State) (num : Nat) : State := setSec s fun x => { x with sessions := x.sessions.filter (·.num != num) }

/-- A session is opened; `root` is the root digest of a requester that asks for mutual authentication. -/
def openNew (s : State) (doe : Bool) (root : Option Nat) : Except SpdmErr (SpdmRsp × State) :=
  if sessionLimit ≤ s.sec.sessions.length then .error .busy
  else
    let n := s.sec.nextNum
    let (sig, s1) := signMsg s (toLe 4 n)
    .ok (.keyExchange n sig, setSec s1 fun x => { x with
      sessions := x.sessions ++ [{ num := n, doe := doe, root := root, finished := false, keys := 0 }], nextNum := n + 1 })

/-- KEY_EXCHANGE. -/
def execKeyExchange (doe : Bool) (root : Option Nat) (s : State) : Host.Outcome State Fault Refusal :=
  .next (request s doe false fun x => signedOnly x doe (openNew x doe root))

/-- FINISH: the session is established when the requester's message verifies and shows the chain that KEY_EXCHANGE named; else
it is dropped. -/
def finishSession (s : State) (doe : Bool) (num : Nat) (root : Option Nat) (valid : Bool) : State :=
  match sessionOn s doe num with
  | none => sayError s doe .invalidSession
  | some y =>
    if y.finished then sayError s doe .unexpected
    else if valid && root == y.root then sayRsp (setSession s num fun z => { z with finished := true }) doe (.finish num)
    else sayError (dropSession s num) doe .invalid

def execFinish (doe : Bool) (session : Nat) (root : Option Nat) (valid : Bool) (s : State) : Host.Outcome State Fault Refusal :=
  .next (atResponder s doe false fun x => finishSession x doe session root valid)

/-- A request inside an established session. -/
def inSession (s : State) (doe : Bool) (num : Nat) (act : State → SpdmRsp × State) : State :=
  request s doe false fun x => if (openSession x doe num).isSome then .ok (act x) else .error .invalidSession

/-- END_SESSION: the session and its keys are gone. -/
def execEndSession (doe : Bool) (session : Nat) (s : State) : Host.Outcome State Fault Refusal :=
  .next (inSession s doe session fun x => (.ended session, dropSession x session))

/-- HEARTBEAT. -/
def execHeartbeat (doe : Bool) (session : Nat) (s : State) : Host.Outcome State Fault Refusal :=
  .next (inSession s doe session fun x => (.heartbeat session, x))

/-- KEY_UPDATE. -/
def execKeyUpdate (doe : Bool) (session : Nat) (s : State) : Host.Outcome State Fault Refusal :=
  .next (inSession s doe session fun x => (.keyUpdate session, setSession x session fun y => { y with keys := y.keys + 1 }))

/-! ### Chunks -/

/-- A chunk of a large request: chunks come in order, and the last one completes the request. -/
def takeChunk (s : State) (doe : Bool) (seq : Nat) (last : Bool) (bytes : List Byte) : Except SpdmErr (SpdmRsp × State) :=
  let p := pathOf s doe
  if seq ≠ p.chunkNext then .error .invalid
  else .ok (.chunkAck seq, setPath s doe fun x =>
    if last then { x with chunkNext := 0, chunkIn := [], request := x.chunkIn ++ bytes }
    else { x with chunkNext := seq + 1, chunkIn := x.chunkIn ++ bytes })

/-- CHUNK_SEND. -/
def execChunkSend (doe : Bool) (seq : Nat) (last : Bool) (bytes : List Byte) (s : State) : Host.Outcome State Fault Refusal :=
  .next (request s doe false fun x => takeChunk x doe seq last bytes)

/-- A chunk of the response that waits, of the requester's transfer size. -/
def giveChunk (s : State) (doe : Bool) (seq : Nat) : Except SpdmErr (SpdmRsp × State) :=
  let p := pathOf s doe
  let n := max 1 p.xfer
  if p.large.isEmpty then .error .unexpected
  else if p.large.length ≤ seq * n then .error .invalid
  else
    let last := decide (p.large.length ≤ (seq + 1) * n)
    .ok (.chunk seq last ((p.large.drop (seq * n)).take n), if last then setPath s doe fun x => { x with large := [] } else s)

/-- CHUNK_GET. -/
def execChunkGet (doe : Bool) (seq : Nat) (s : State) : Host.Outcome State Fault Refusal :=
  .next (request s doe false fun x => giveChunk x doe seq)

/-! ### The owner (R492, R493, Table 22-6) -/

/-- A request of the owner in a session: SEC_PARTITION without mutual authentication; `act` gives the status and the state.
DEDUCED, log entry 140. -/
def ownerRequest (s : State) (num : Nat) (act : State → Nat → Status × State) : State :=
  match s.sec.sessions.find? (·.num == num) with
  | none => s
  | some x =>
    request s x.doe false fun st => match x.finished, x.root with
      | true, some root => .ok (.vendor num (statusCode (act st root).1), (act st root).2)
      | _, _ => .ok (.vendor num (statusCode .secPartition), st)

/-- OWNER_BIND: the first one that succeeds binds. -/
def execOwnerBind (session : Nat) (s : State) : Host.Outcome State Fault Refusal :=
  .next (ownerRequest s session fun x root =>
    if x.sec.owner.isSome then (.secPartition, x) else (.completed, setSec x fun y => { y with owner := some root }))

/-- R492: once an owner is bound, only its root is heard. -/
def ofOwner (x : State) (root : Nat) (act : Status × State) : Status × State :=
  match x.sec.owner with
  | some d => if d = root then act else (.secPartition, x)
  | none => act

/-- The wrap key of a partition is set once (R494). -/
def wrapKeySet (x : State) (p key : Nat) : Status × State :=
  if 3 < p ∨ (partOf x p).configured = false then (.loadUnitDisabled, x)
  else if (partOf x p).wrapKey.isSome then (.loadBadShape, x)
  else (.completed, setPart x p fun P => { P with wrapKey := some (key % 2 ^ 256) })

/-- WRAP_KEY_SET. -/
def execWrapKeySet (session p key : Nat) (s : State) : Host.Outcome State Fault Refusal :=
  .next (ownerRequest s session fun x root => ofOwner x root (wrapKeySet x p key))

/-- The union of two masks of `n` bits. -/
def orMask (n a b : Nat) : Nat := maskOf ((List.range n).filter fun i => bitOf a i || bitOf b i)

/-- A locked link requires MACsec (R497); the registers of a port that the profile disables hold their reset values (R3). -/
def lockMacsec (s : State) (mask : Nat) : State :=
  ((bitsOf 8 mask).filter fun l => portEnabled s (l / 2)).foldl (fun x l => setPort x (l / 2) fun P => { P with cfg := setBit P.cfg (16 + l % 2) }) s

/-- The policy only tightens (R493). -/
def policySet (x : State) (ide macsec svn : Nat) : Status × State :=
  if svn % 2 ^ 32 < x.sec.minSvn then (.loadBadShape, x)
  else (.completed, lockMacsec (setSec x fun y => { y with
    policySet := true, ideRequired := orMask 4 y.ideRequired ide, macsecLocked := orMask 8 y.macsecLocked macsec, minSvn := svn % 2 ^ 32 })
    macsec)

/-- POLICY_SET. -/
def execPolicySet (session ide macsec svn : Nat) (s : State) : Host.Outcome State Fault Refusal :=
  .next (ownerRequest s session fun x root => ofOwner x root (policySet x ide macsec svn))

/-- The connectivity key of a link, under its name (R453). DEDUCED, log entry 141. -/
def cakSet (x : State) (link ckn cak : Nat) : Status × State :=
  if !portEnabled x (link / 2) then (.loadUnitDisabled, x)
  else (.completed, setLink x link fun l => { l with cak := some (ckn % 2 ^ 128 * 2 ^ 256 + cak % 2 ^ 256) })

/-- CAK_SET. -/
def execCakSet (session link ckn cak : Nat) (s : State) : Host.Outcome State Fault Refusal :=
  .next (ownerRequest s session fun x root => ofOwner x root (cakSet x link ckn cak))

end Sys2Proof.Machine
end

