-- ==== Sys2Proof/Machine/Management.lean ====
section
/-! DEFINITION. Management (R538 to R543): the MCTP control messages that the front end answers itself, and PLDM, which firmware
serves; with the JTAG port (R555). -/

namespace Sys2Proof.Machine

def setMgmt (s : State) (f : Mgmt → Mgmt) : State := { s with mgmt := f s.mgmt }

/-- Whether a message on a binding reaches the front end (R531, R539). -/
def bindingUp (s : State) (i3c : Bool) : Bool := s.boot.dev == .run && s.mgmt.ready && (!i3c || s.mgmt.i3c.isSome)

/-- A reply goes out on the binding that carried its request, under the endpoint ID at its arrival (R539, R541). -/
def replyOn (s : State) (i3c : Bool) (eid : Nat) (r : MgmtRsp) : State := say s (.mgmt i3c eid r)

def eidNow (s : State) : Nat := s.mgmt.eid.getD 0

/-- A control message: hardware answers it, whatever firmware does (R538). -/
def control (s : State) (i3c : Bool) (act : State → MgmtRsp × State) : State :=
  if bindingUp s i3c then let (r, s1) := act s; replyOn s1 i3c (eidNow s) r else s

/-- A PLDM request: until firmware serves, it is answered ERROR_NOT_READY and counted (R538). -/
def pldm (s : State) (i3c : Bool) (act : State → MgmtRsp × State) : State :=
  if !bindingUp s i3c then s
  else if !relayUp s then replyOn (countNotReady s) i3c (eidNow s) .notReady
  else let (r, s1) := act s; replyOn s1 i3c (eidNow s) r

/-- A PLDM request about sensors, with which events of thresholds that have been crossed go out (R543). -/
def pldmSensors (s : State) (i3c : Bool) (act : State → MgmtRsp × State) : State :=
  let s1 := pldm s i3c act
  if bindingUp s i3c then platformEvents s1 else s1

/-! ### MCTP control (Table 25-4) -/

/-- SET_ENDPOINT_ID (R539): the null and the broadcast identifier are no endpoint's. PRESUMED, log entry 144. -/
def execSetEndpointId (i3c : Bool) (eid : Nat) (s : State) : Host.Outcome State Fault Refusal :=
  .next (control s i3c fun x => if 0 < eid ∧ eid < 255 then (.setEid eid, setMgmt x fun m => { m with eid := some eid }) else (.invalid, x))

/-- GET_ENDPOINT_ID. -/
def execGetEndpointId (i3c : Bool) (s : State) : Host.Outcome State Fault Refusal :=
  .next (control s i3c fun x => (.eid (eidNow x), x))

/-- The identifier made of the first 16 bytes of bound_key (R542). DEDUCED, log entry 143. -/
def endpointUuid (key : Nat) : List Byte :=
  modifyAt 8 (fun b => b % 0x40 + 0x80) (modifyAt 6 (fun b => b % 0x10 + 0x80) ((toLe 32 key).take 16))

/-- GET_ENDPOINT_UUID. -/
def execGetEndpointUuid (i3c : Bool) (s : State) : Host.Outcome State Fault Refusal :=
  .next (control s i3c fun x => (match x.boot.identity with | some k => .uuid (endpointUuid k) | none => .notReady, x))

/-- GET_MCTP_VERSION_SUPPORT. -/
def execGetMctpVersionSupport (i3c : Bool) (s : State) : Host.Outcome State Fault Refusal :=
  .next (control s i3c fun x => (.version (Config.versionBytes 0), x))

/-- GET_MESSAGE_TYPE_SUPPORT. -/
def execGetMessageTypeSupport (i3c : Bool) (s : State) : Host.Outcome State Fault Refusal :=
  .next (control s i3c fun x => (.messageTypes [0x00, 0x01, 0x05, 0x06], x))

/-- I3C_DYNAMIC_ADDRESS (R539): 7 bits, not 0. -/
def execI3cDynamicAddress (addr : Nat) (s : State) : Host.Outcome State Fault Refusal :=
  .next (if s.boot.dev == .run && s.mgmt.ready && decide (0 < addr) && decide (addr < 128) then setMgmt s fun m => { m with i3c := some addr } else s)

/-! ### PLDM type 0 -/

/-- GET_TID. -/
def execGetTid (i3c : Bool) (s : State) : Host.Outcome State Fault Refusal := .next (pldm s i3c fun x => (.tid x.mgmt.tid, x))

/-- SET_TID. -/
def execSetTid (i3c : Bool) (tid : Nat) (s : State) : Host.Outcome State Fault Refusal :=
  .next (pldm s i3c fun x => (.done, setMgmt x fun m => { m with tid := tid % 256 }))

/-- The PLDM types, with the commands of each (Table 25-4). -/
def pldmCommands : List (Nat × List String) :=
  [(0, ["GetTID", "SetTID", "GetPLDMVersion", "GetPLDMTypes", "GetPLDMCommands"]),
   (2, ["GetPDRRepositoryInfo", "GetPDR", "GetSensorReading", "GetStateSensorReadings", "SetEventReceiver"]),
   (4, ["GetFRURecordTableMetadata", "GetFRURecordTable"])]

/-- GET_PLDM_VERSION of a type. -/
def execGetPldmVersion (i3c : Bool) (kind : Nat) (s : State) : Host.Outcome State Fault Refusal :=
  .next (pldm s i3c fun x => (if (lookupKey kind pldmCommands).isSome then .version (Config.versionBytes (256 + kind)) else .invalidType, x))

/-- GET_PLDM_TYPES. -/
def execGetPldmTypes (i3c : Bool) (s : State) : Host.Outcome State Fault Refusal :=
  .next (pldm s i3c fun x => (.types (pldmCommands.map (·.1)), x))

/-- GET_PLDM_COMMANDS of a type. -/
def execGetPldmCommands (i3c : Bool) (kind : Nat) (s : State) : Host.Outcome State Fault Refusal :=
  .next (pldm s i3c fun x => (match lookupKey kind pldmCommands with | some cs => .commands cs | none => .invalidType, x))

/-! ### PLDM type 2: sensors (Table 25-5) -/

/-- The sensors in the order of the table; a sensor's place is its identifier and that of its record. DEDUCED, log entry 86. -/
def sensors : List Sensor := [.power, .furrow, .stack, .aclk, .port 0, .port 1, .port 2, .port 3, .device]

/-- GET_PDR_REPOSITORY_INFO. -/
def execGetPdrRepositoryInfo (i3c : Bool) (s : State) : Host.Outcome State Fault Refusal :=
  .next (pldm s i3c fun x => (.pdrInfo sensors.length, x))

/-- GET_PDR of a record: the sensor and its thresholds. -/
def execGetPdr (i3c : Bool) (record : Nat) (s : State) : Host.Outcome State Fault Refusal :=
  .next (pldmSensors s i3c fun x => (match sensors[record]? with | some y => .pdr y (thresholds x y) | none => .invalid, x))

/-- What a numeric sensor reads, from the shadow page of the power block, as of its stamp. -/
def numericReading (s : State) : Sensor → Option Nat
  | .power => some (fld (shadowWord s 6 0x020) 32 32 / 10)
  | .furrow => some (fld (shadowWord s 6 0x010) 32 8)
  | .stack => some (fld (shadowWord s 6 0x010) 24 8)
  | .aclk => some (fld (shadowWord s 6 0x010) 40 12)
  | _ => none

/-- GET_SENSOR_READING. -/
def execGetSensorReading (i3c : Bool) (sensor : Nat) (s : State) : Host.Outcome State Fault Refusal :=
  .next (pldmSensors s i3c fun x => (match sensors[sensor]?.bind (numericReading x) with | some v => .reading v | none => .invalid, x))

/-- A port: 0 down, 1 training, 2 up, 3 up and synchronised, from its status in the shadow. DEDUCED, log entry 145. -/
def portState (s : State) (n : Nat) : Nat :=
  let w := shadowWord s 8 (0x030 + 8 * n)
  if fld w 0 2 = 2 ∨ fld w 2 2 = 2 then (if bitOf w 11 then 3 else 2) else if fld w 0 2 = 1 ∨ fld w 2 2 = 1 then 1 else 0

/-- The device: 0 booting, 1 running, 2 updating, 3 firmware failed, 4 fault halt. -/
def deviceState (s : State) : Nat :=
  if bitOf (shadowWord s 13 0x010) 7 then 4
  else match s.boot.st with
    | .fwFailed => 3
    | .running => if s.boot.handoff then 2 else 1
    | _ => 0

def stateReading (s : State) : Sensor → Option Nat
  | .port n => some (portState s n)
  | .device => some (deviceState s)
  | _ => none

/-- GET_STATE_SENSOR_READINGS. -/
def execGetStateSensorReadings (i3c : Bool) (sensor : Nat) (s : State) : Host.Outcome State Fault Refusal :=
  .next (pldmSensors s i3c fun x => (match sensors[sensor]?.bind (stateReading x) with | some v => .sensorState v | none => .invalid, x))

/-- SET_EVENT_RECEIVER names the receiver of platform events. -/
def execSetEventReceiver (i3c : Bool) (eid : Nat) (s : State) : Host.Outcome State Fault Refusal :=
  .next (pldmSensors s i3c fun x => (.done, setMgmt x fun m => { m with receiver := some eid }))

/-! ### PLDM type 4: FRU (R542) -/

/-- GET_FRU_RECORD_TABLE_METADATA: one record. -/
def execGetFruRecordTableMetadata (i3c : Bool) (s : State) : Host.Outcome State Fault Refusal :=
  .next (pldm s i3c fun x => (.fruMetadata 1, x))

/-- The serial number of the device certificate: the first 16 bytes of bound_key (R485). -/
def serialNumber (s : State) : Nat := ofLe ((toLe 32 (s.boot.identity.getD 0)).take 16)

/-- GET_FRU_RECORD_TABLE; maker and part number are the same on every part. -/
def execGetFruRecordTable (i3c : Bool) (s : State) : Host.Outcome State Fault Refusal :=
  .next (pldm s i3c fun x => (match x.boot.profile with
    | some p => .fru (serialNumber x) p.furrows p.ports p.hbmStacks
    | none => .fru (serialNumber x) 0 0 0, x))

/-! ### JTAG (R555) -/

/-- JTAG_INSTRUCTION: it reaches the boundary-scan register alone; EXTEST and its variants are refused while PERST# is high. What
the pins carry, which SAMPLE/PRELOAD and EXTEST capture, is a free value. DESIGN CHOICE, log entry 146. -/
def jtagInstruction (s : State) (op : JtagOp) (data : Nat) : State :=
  let scan : State :=
    let (k, s1) := takeFree s 1
    { s1 with pins := { s1.pins with jtag := op, boundary := data, shifted := (Config.freeWord k).toNat } }
  let extest : State := if s.boot.dev == .held then scan else s
  match op with
  | .bypass => { s with pins := { s.pins with jtag := .bypass } }
  | .idcode => { s with pins := { s.pins with jtag := .idcode, shifted := Config.idcode } }
  | .samplePreload => scan
  | .extest => extest
  | .extestPulse => extest
  | .extestTrain => extest

def execJtagInstruction (op : JtagOp) (data : Nat) (s : State) : Host.Outcome State Fault Refusal := .next (jtagInstruction s op data)

end Sys2Proof.Machine
end

