-- ==== Sys2Proof/Machine/Idle.lean ====
section
/-! DEFINITION. What passes with time while no command waits (log entry 11): device time (R412), the harrows' intake buffers, which
empty into their pipelines (R166, R168), and the descriptors of the drill channels (R362). -/

namespace Sys2Proof.Machine

/-- A harrow works `t` thousandths of an ACLK on its intake buffer: the first entry leaves when its time is over, and the rest of the
time goes to the next; gate tiles wait for each other (R168, R186). -/
def emptyIntake : Nat → List Drained → List Drained
  | _, [] => []
  | t, d :: rest => if d.gates < d.need then d :: rest else if t < d.left then { d with left := d.left - t } :: rest else emptyIntake (t - d.left) rest

/-- A nanosecond passes in a device that runs. DESIGN CHOICE, log entries 7, 11 and 56. -/
def idle (s : State) : State :=
  if s.boot.dev == .run then
    let s1 := tickDrill { s with now := s.now + 1 }
    if s.boot.clocks then
      { s1 with field := { s1.field with harrows := s1.field.harrows.map fun H => { H with intake := emptyIntake s.pwr.aclk H.intake } } }
    else s1
  else s

end Sys2Proof.Machine
end

