-- ==== Sys2Proof/Machine/Dispatch.lean ====
section
/-! DEFINITION. What each command does to everything but the queue of waiting commands: one arm per row of the table. -/

namespace Sys2Proof.Machine

open Sys2Proof

def exec (i : Instr) (s : State) : Host.Outcome State Fault Refusal :=
  match i with
  | .nop q => Sys2Proof.Machine.execNop q s
  | .fenceSignal q => Sys2Proof.Machine.execFenceSignal q s
  | .fenceReset q => Sys2Proof.Machine.execFenceReset q s
  | .timestamp q => Sys2Proof.Machine.execTimestamp q s
  | .mxGemm q => Sys2Proof.Machine.execMxGemm q s
  | .conv2d q => Sys2Proof.Machine.execConv2d q s
  | .pool q => Sys2Proof.Machine.execPool q s
  | .scanLinear q => Sys2Proof.Machine.execScanLinear q s
  | .recurCell q => Sys2Proof.Machine.execRecurCell q s
  | .attend q => Sys2Proof.Machine.execAttend q s
  | .eltwise q => Sys2Proof.Machine.execEltwise q s
  | .normRow q => Sys2Proof.Machine.execNormRow q s
  | .softmaxRow q => Sys2Proof.Machine.execSoftmaxRow q s
  | .sample q => Sys2Proof.Machine.execSample q s
  | .seedSet q => Sys2Proof.Machine.execSeedSet q s
  | .drillCopy q => Sys2Proof.Machine.execDrillCopy q s
  | .drillChain q => Sys2Proof.Machine.execDrillChain q s
  | .drillVisible q => Sys2Proof.Machine.execDrillVisible q s
  | .windowFill q => Sys2Proof.Machine.execWindowFill q s
  | .plotMove q => Sys2Proof.Machine.execPlotMove q s
  | .streamCreate q => Sys2Proof.Machine.execStreamCreate q s
  | .streamFork q => Sys2Proof.Machine.execStreamFork q s
  | .streamPark q => Sys2Proof.Machine.execStreamPark q s
  | .streamResume q => Sys2Proof.Machine.execStreamResume q s
  | .streamExport q => Sys2Proof.Machine.execStreamExport q s
  | .streamImport q => Sys2Proof.Machine.execStreamImport q s
  | .streamRetire q => Sys2Proof.Machine.execStreamRetire q s
  | .swathStep q => Sys2Proof.Machine.execSwathStep q s
  | .pagePin q => Sys2Proof.Machine.execPagePin q s
  | .netSend q => Sys2Proof.Machine.execNetSend q s
  | .netRecv q => Sys2Proof.Machine.execNetRecv q s
  | .netBarrier q => Sys2Proof.Machine.execNetBarrier q s
  | .netMigrate q => Sys2Proof.Machine.execNetMigrate q s
  | .queueFetch q => Sys2Proof.Machine.execQueueFetch q s
  | .commandCommit q => Sys2Proof.Machine.execCommandCommit q s
  | .workItemTake harrow j => Sys2Proof.Machine.execWorkItemTake harrow j s
  | .tileDrain e => Sys2Proof.Machine.execTileDrain e s
  | .splitkArrival e => Sys2Proof.Machine.execSplitkArrival e s
  | .splitkReduce q t => Sys2Proof.Machine.execSplitkReduce q t s
  | .scanPhase2 q pair => Sys2Proof.Machine.execScanPhase2 q pair s
  | .streamTransitDone id => Sys2Proof.Machine.execStreamTransitDone id s
  | .windowFenceRelease q => Sys2Proof.Machine.execWindowFenceRelease q s
  | .plotMoveCommit p k => Sys2Proof.Machine.execPlotMoveCommit p k s
  | .migrationEpoch => Sys2Proof.Machine.execMigrationEpoch s
  | .wcbIdleTimeout line => Sys2Proof.Machine.execWcbIdleTimeout line s
  | .patrolScrub addr found => Sys2Proof.Machine.execPatrolScrub addr found s
  | .farFieldTimeout q => Sys2Proof.Machine.execFarFieldTimeout q s
  | .drillBusError n d off => Sys2Proof.Machine.execDrillBusError n d off s
  | .drillChannelGrant n => Sys2Proof.Machine.execDrillChannelGrant n s
  | .doorbellWrite sender q size val => Sys2Proof.Machine.execDoorbellWrite sender q size val s
  | .fenceWrite fn off size val => Sys2Proof.Machine.execFenceWrite fn off size val s
  | .queAbort fn val => Sys2Proof.Machine.execQueAbort fn val s
  | .queDispatchClear fn => Sys2Proof.Machine.execQueDispatchClear fn s
  | .queErrorsClear fn => Sys2Proof.Machine.execQueErrorsClear fn s
  | .drillChannelDisable fn n => Sys2Proof.Machine.execDrillChannelDisable fn n s
  | .drillChannelEnable fn n => Sys2Proof.Machine.execDrillChannelEnable fn n s
  | .drillChannelResume fn n => Sys2Proof.Machine.execDrillChannelResume fn n s
  | .drillClrCounts fn n => Sys2Proof.Machine.execDrillClrCounts fn n s
  | .qpCreate fn => Sys2Proof.Machine.execQpCreate fn s
  | .qpDestroy fn qp => Sys2Proof.Machine.execQpDestroy fn qp s
  | .qpReset fn qp => Sys2Proof.Machine.execQpReset fn qp s
  | .netLinkAddrWrite fn n high => Sys2Proof.Machine.execNetLinkAddrWrite fn n high s
  | .netPortCfgWrite fn n val => Sys2Proof.Machine.execNetPortCfgWrite fn n val s
  | .bootGo fn => Sys2Proof.Machine.execBootGo fn s
  | .msixUnmask fn entry => Sys2Proof.Machine.execMsixUnmask fn entry s
  | .mbxPost fn m => Sys2Proof.Machine.execMbxPost fn m s
  | .mbxRelease fn m => Sys2Proof.Machine.execMbxRelease fn m s
  | .registerWrite fn off size val poisoned => Sys2Proof.Machine.execRegisterWrite fn off size val poisoned s
  | .shadowPageUpdate fn page => Sys2Proof.Machine.execShadowPageUpdate fn page s
  | .fwInfo fn m => Sys2Proof.Machine.execFwInfo fn m s
  | .fwUpdate fn m found => Sys2Proof.Machine.execFwUpdate fn m found s
  | .updateQuiesced => Sys2Proof.Machine.execUpdateQuiesced s
  | .updateSwitch => Sys2Proof.Machine.execUpdateSwitch s
  | .updateRestored => Sys2Proof.Machine.execUpdateRestored s
  | .partitionConfig fn m => Sys2Proof.Machine.execPartitionConfig fn m s
  | .partitionRemove fn m => Sys2Proof.Machine.execPartitionRemove fn m s
  | .queueEnable fn m => Sys2Proof.Machine.execQueueEnable fn m s
  | .queueDisable fn m => Sys2Proof.Machine.execQueueDisable fn m s
  | .queueResume fn m => Sys2Proof.Machine.execQueueResume fn m s
  | .queueAbort fn m => Sys2Proof.Machine.execQueueAbort fn m s
  | .layoutSet fn m => Sys2Proof.Machine.execLayoutSet fn m s
  | .streamQuery fn m => Sys2Proof.Machine.execStreamQuery fn m s
  | .kvPoolSet fn m => Sys2Proof.Machine.execKvPoolSet fn m s
  | .kvQuery fn m => Sys2Proof.Machine.execKvQuery fn m s
  | .plotMap fn m => Sys2Proof.Machine.execPlotMap fn m s
  | .plotUnmap fn m => Sys2Proof.Machine.execPlotUnmap fn m s
  | .plotQuery fn m => Sys2Proof.Machine.execPlotQuery fn m s
  | .windowSet fn m => Sys2Proof.Machine.execWindowSet fn m s
  | .hbmRepairMargin fn m found => Sys2Proof.Machine.execHbmRepairMargin fn m found s
  | .tickConfig fn m => Sys2Proof.Machine.execTickConfig fn m s
  | .blobKeySet fn m => Sys2Proof.Machine.execBlobKeySet fn m s
  | .pwrConfig fn m => Sys2Proof.Machine.execPwrConfig fn m s
  | .inject fn m => Sys2Proof.Machine.execInject fn m s
  | .bistRun fn m failing => Sys2Proof.Machine.execBistRun fn m failing s
  | .injectArm slot => Sys2Proof.Machine.execInjectArm slot s
  | .syncInEdge rising => Sys2Proof.Machine.execSyncInEdge rising s
  | .ptpBoundary port k => Sys2Proof.Machine.execPtpBoundary port k s
  | .localTick => Sys2Proof.Machine.execLocalTick s
  | .tickWindowClose => Sys2Proof.Machine.execTickWindowClose s
  | .estimationInterval est => Sys2Proof.Machine.execEstimationInterval est s
  | .slewWindow => Sys2Proof.Machine.execSlewWindow s
  | .droopTrip f => Sys2Proof.Machine.execDroopTrip f s
  | .droopRelease f => Sys2Proof.Machine.execDroopRelease f s
  | .vrAlertAssert ns => Sys2Proof.Machine.execVrAlertAssert ns s
  | .vrAlertDeassert => Sys2Proof.Machine.execVrAlertDeassert s
  | .vrAlertHoldEnd => Sys2Proof.Machine.execVrAlertHoldEnd s
  | .thermalSample furrow stack => Sys2Proof.Machine.execThermalSample furrow stack s
  | .faultLatch unit det => Sys2Proof.Machine.execFaultLatch unit det s
  | .faultSettleDone => Sys2Proof.Machine.execFaultSettleDone s
  | .faultRelease => Sys2Proof.Machine.execFaultRelease s
  | .bistSlice => Sys2Proof.Machine.execBistSlice s
  | .bistTargetTest col passed => Sys2Proof.Machine.execBistTargetTest col passed s
  | .watchdogExpiry reeve hashOk held => Sys2Proof.Machine.execWatchdogExpiry reeve hashOk held s
  | .watchdogRecoveryDone reeve finish => Sys2Proof.Machine.execWatchdogRecoveryDone reeve finish s
  | .perstAssert => Sys2Proof.Machine.execPerstAssert s
  | .perstRelease strap => Sys2Proof.Machine.execPerstRelease strap s
  | .clockLock => Sys2Proof.Machine.execClockLock s
  | .mgmtFrontEndReady => Sys2Proof.Machine.execMgmtFrontEndReady s
  | .loamZeroDone => Sys2Proof.Machine.execLoamZeroDone s
  | .pcieLinkUp speed width flit => Sys2Proof.Machine.execPcieLinkUp speed width flit s
  | .bootFetchDone profile image => Sys2Proof.Machine.execBootFetchDone profile image s
  | .startupTestDone failing => Sys2Proof.Machine.execStartupTestDone failing s
  | .fwAliveSet => Sys2Proof.Machine.execFwAliveSet s
  | .fwReadySet => Sys2Proof.Machine.execFwReadySet s
  | .railFault => Sys2Proof.Machine.execRailFault s
  | .configRequest fn reg write => Sys2Proof.Machine.execConfigRequest fn reg write s
  | .functionLevelReset fn => Sys2Proof.Machine.execFunctionLevelReset fn s
  | .hotReset => Sys2Proof.Machine.execHotReset s
  | .d3hotEntry fn => Sys2Proof.Machine.execD3hotEntry fn s
  | .hostCompletionError q => Sys2Proof.Machine.execHostCompletionError q s
  | .ideKm session stream op => Sys2Proof.Machine.execIdeKm session stream op s
  | .ethLinkUp n => Sys2Proof.Machine.execEthLinkUp n s
  | .ethLinkDown n => Sys2Proof.Machine.execEthLinkDown n s
  | .rdmaWriteInbound n key addr bytes => Sys2Proof.Machine.execRdmaWriteInbound n key addr bytes s
  | .rdmaReadInbound n key addr len => Sys2Proof.Machine.execRdmaReadInbound n key addr len s
  | .sendInbound n bytes => Sys2Proof.Machine.execSendInbound n bytes s
  | .writeImmInbound n key addr imm bytes => Sys2Proof.Machine.execWriteImmInbound n key addr imm bytes s
  | .barrierTokenInbound n imm epoch => Sys2Proof.Machine.execBarrierTokenInbound n imm epoch s
  | .ackReceived n => Sys2Proof.Machine.execAckReceived n s
  | .nakReceived n => Sys2Proof.Machine.execNakReceived n s
  | .ackTimeout n => Sys2Proof.Machine.execAckTimeout n s
  | .ptpSyncMessage port offset => Sys2Proof.Machine.execPtpSyncMessage port offset s
  | .announceTimeout port => Sys2Proof.Machine.execAnnounceTimeout port s
  | .mkaFrame n valid sak => Sys2Proof.Machine.execMkaFrame n valid sak s
  | .setEndpointId i3c eid => Sys2Proof.Machine.execSetEndpointId i3c eid s
  | .getEndpointId i3c => Sys2Proof.Machine.execGetEndpointId i3c s
  | .getEndpointUuid i3c => Sys2Proof.Machine.execGetEndpointUuid i3c s
  | .getMctpVersionSupport i3c => Sys2Proof.Machine.execGetMctpVersionSupport i3c s
  | .getMessageTypeSupport i3c => Sys2Proof.Machine.execGetMessageTypeSupport i3c s
  | .i3cDynamicAddress addr => Sys2Proof.Machine.execI3cDynamicAddress addr s
  | .getTid i3c => Sys2Proof.Machine.execGetTid i3c s
  | .setTid i3c tid => Sys2Proof.Machine.execSetTid i3c tid s
  | .getPldmVersion i3c kind => Sys2Proof.Machine.execGetPldmVersion i3c kind s
  | .getPldmTypes i3c => Sys2Proof.Machine.execGetPldmTypes i3c s
  | .getPldmCommands i3c kind => Sys2Proof.Machine.execGetPldmCommands i3c kind s
  | .getPdrRepositoryInfo i3c => Sys2Proof.Machine.execGetPdrRepositoryInfo i3c s
  | .getPdr i3c record => Sys2Proof.Machine.execGetPdr i3c record s
  | .getSensorReading i3c sensor => Sys2Proof.Machine.execGetSensorReading i3c sensor s
  | .getStateSensorReadings i3c sensor => Sys2Proof.Machine.execGetStateSensorReadings i3c sensor s
  | .setEventReceiver i3c eid => Sys2Proof.Machine.execSetEventReceiver i3c eid s
  | .getFruRecordTableMetadata i3c => Sys2Proof.Machine.execGetFruRecordTableMetadata i3c s
  | .getFruRecordTable i3c => Sys2Proof.Machine.execGetFruRecordTable i3c s
  | .getVersion doe => Sys2Proof.Machine.execGetVersion doe s
  | .getCapabilities doe xfer => Sys2Proof.Machine.execGetCapabilities doe xfer s
  | .negotiateAlgorithms doe mldsa => Sys2Proof.Machine.execNegotiateAlgorithms doe mldsa s
  | .getDigests doe => Sys2Proof.Machine.execGetDigests doe s
  | .getCertificate doe slot off len => Sys2Proof.Machine.execGetCertificate doe slot off len s
  | .challenge doe slot nonce => Sys2Proof.Machine.execChallenge doe slot nonce s
  | .getMeasurements doe session index nonce => Sys2Proof.Machine.execGetMeasurements doe session index nonce s
  | .keyExchange doe root => Sys2Proof.Machine.execKeyExchange doe root s
  | .finish doe session root valid => Sys2Proof.Machine.execFinish doe session root valid s
  | .endSession doe session => Sys2Proof.Machine.execEndSession doe session s
  | .heartbeat doe session => Sys2Proof.Machine.execHeartbeat doe session s
  | .keyUpdate doe session => Sys2Proof.Machine.execKeyUpdate doe session s
  | .chunkSend doe seq last bytes => Sys2Proof.Machine.execChunkSend doe seq last bytes s
  | .chunkGet doe seq => Sys2Proof.Machine.execChunkGet doe seq s
  | .ownerBind session => Sys2Proof.Machine.execOwnerBind session s
  | .wrapKeySet session p key => Sys2Proof.Machine.execWrapKeySet session p key s
  | .policySet session ide macsec svn => Sys2Proof.Machine.execPolicySet session ide macsec svn s
  | .cakSet session link ckn cak => Sys2Proof.Machine.execCakSet session link ckn cak s
  | .jtagInstruction op data => Sys2Proof.Machine.execJtagInstruction op data s
  | .returnToD0 fn => Sys2Proof.Machine.execReturnToD0 fn s
  | .functionReadinessStatus fn => Sys2Proof.Machine.execFunctionReadinessStatus fn s
  | .ideCheckFail stream => Sys2Proof.Machine.execIdeCheckFail stream s
  | .doeDiscovery index => Sys2Proof.Machine.execDoeDiscovery index s
  | .randomSourceHealthTestsDone ok => Sys2Proof.Machine.execRandomSourceHealthTestsDone ok s
  | .bootFetchTimeout => Sys2Proof.Machine.execBootFetchTimeout s
  | .unsupportedPacketDrop n => Sys2Proof.Machine.execUnsupportedPacketDrop n s
  | .macsecVerifyFail n => Sys2Proof.Machine.execMacsecVerifyFail n s
  | .congestionNotification n => Sys2Proof.Machine.execCongestionNotification n s
  | .priorityFlowControl port pause => Sys2Proof.Machine.execPriorityFlowControl port pause s

end Sys2Proof.Machine
end

