-- ==== Sys2Proof/Safety.lean ====
section
/-! DEFINITION. What a safe run is, in the terms that claims use: no command stops the machine, and the invariant that each step
keeps. -/

namespace Sys2Proof.Machine

/-- An outcome that is a next state. -/
def isNext (o : Host.Outcome State Fault Refusal) : Prop := ∃ t, o = .next t

/-- Device, host and remote memory are in canonical form, and there are 192 subsoil channels (R331). -/
def memoryOk (m : MemSys) : Prop :=
  Memory.wf m.phys = true ∧ Memory.wf m.host = true ∧ Memory.wf m.remote = true ∧ m.channels.length = 192

/-- The field has 192 engines and 96 harrows (R18); its memories are in canonical form. -/
def fieldOk (f : Field) : Prop :=
  f.engines.length = 192 ∧ f.harrows.length = 96 ∧ Memory.wf f.accum = true ∧ Memory.wf f.tilth = true ∧ Memory.wf f.sram = true

/-- How many units the device's tables have. -/
def sizes (s : State) : List Nat :=
  [s.queues.length, s.parts.length, s.drill.length, s.fns.length, s.pcie.fns.length, s.pcie.ide.length, s.net.links.length]

/-- The invariant: memories in canonical form, and as many units as the device has: queues (R64), partitions (R394), drill channels
(R354), functions (R430), IDE streams (R443) and links (R447). -/
def stateOk (s : State) : Prop := memoryOk s.mem ∧ fieldOk s.field ∧ sizes s = [256, 4, 16, 5, 5, 5, 8]

/-- The write-combining buffer holds one entry a line, its bytes by rising place (R337). -/
def combiningOk (s : State) : Prop :=
  (s.mem.wcb.map (·.line)).Nodup ∧ ∀ e ∈ s.mem.wcb, (e.bytes.map (·.1)).Pairwise (· < ·) ∧ ∀ b ∈ e.bytes, b.1 < 64

/-! ### A command of a queue -/

/-- The command at the head of queue `q`, of opcode `op`, passes stage B and is not held back for power (R82, R94). -/
def starts (s : State) (q op : Nat) (checks : State → Queue → Cmd → List (Bool × Fail)) (Q : Queue) (c : Cmd) : Prop :=
  inCheck s q op = some (Q, c) ∧ firstFail (checks (atChecks s q Q c) Q c) = none ∧ beHeld (atChecks s q Q c) Q = none

/-- The state in which that command executes: held slots that it does not consume have been released (R111), the loader has read its
structures (R82), and it runs. -/
def running (s : State) (q : Nat) (c : Cmd) : State := beginRun (atChecks s q (queueOf s q) c) q

/-! ### A request in a mailbox -/

/-- Firmware has taken the request in a mailbox (R390). -/
def takenBox (s : State) (fn m : Nat) : State := setMbx s fn m fun x => { x with state := .taken }

/-- That mailbox. -/
def takenMbx (s : State) (fn m : Nat) : Mailbox := mbxOf (takenBox s fn m) fn m

/-- And firmware has read the body of a new request, where that is indirect (R310). -/
def taken (s : State) (fn m : Nat) : State :=
  if (takenMbx s fn m).begun then takenBox s fn m else useBody (takenBox s fn m) fn (takenMbx s fn m)

/-- A posted request of a code that firmware takes and whose checks of R391 pass, with its body. -/
def asked (s : State) (fn m code : Nat) (bs : List Byte) : Prop :=
  fn < 5 ∧ m < 8 ∧ fwServes s = true ∧ (mbxOf s fn m).state = .posted ∧ reqCode (mbxOf s fn m) = code ∧ blocked s fn m = false
    ∧ reqBody (taken s fn m) fn (takenMbx s fn m) = .ok bs
    ∧ requestFail (taken s fn m) fn (takenMbx s fn m) bs = none ∧ (commandPath code && (taken s fn m).flt.halted) = false

/-- What that request asks. -/
def asking (s : State) (fn m : Nat) (bs : List Byte) : Asked :=
  ⟨fn, m, (fnPart (taken s fn m) fn).getD 0, bs, replyRoom (takenMbx s fn m), reqIndirect (takenMbx s fn m)⟩

/-! ### A write to a function's window -/

/-- A function's writes reach its BAR0 (R431, R496). -/
def canWrite (s : State) (fn : Nat) : Prop :=
  s.boot.dev = .run ∧ s.pcie.linkUp = true ∧ (pciFn s fn).enabled = true ∧ fn < 5 ∧ (ideDemanded s fn = false ∨ arrivesSecure s fn = true)

/-- And firmware applies a trapped one at once (R383). -/
def canTrap (s : State) (fn : Nat) : Prop := canWrite s fn ∧ fwServes s = true ∧ (fnOf s fn).traps = [] ∧ s.fns.length = 5

end Sys2Proof.Machine
end

