-- ==== Sys2Proof/Certificates/Slice0/Obligations.lean ====
section
/-! DEFINITION. The statements about the model, for the provers: one definition per statement, by the chapters of the spec. -/

open Sys2Proof Sys2Proof.Machine

/-! ### The step and the invariant -/

/-- A step runs the command at the front of the queue, on the state with the rest of the queue (log entry 1). -/
def Obligations.StepRunsFront : Prop :=
  ∀ (s : State) (c : Instr) (rest : List Instr),
    step { s with pending := c :: rest } = exec c { s with pending := rest }

/-- With no command waiting a step lets a nanosecond of device time pass in a device that runs (R412); while no channel of the drill works
at a command, it changes nothing but the time and the harrows' intake buffers. That time passes with an empty queue, and that a channel
then goes on by a descriptor, is the model's (DESIGN CHOICE, log entries 11 and 56). -/
def Obligations.StepIdles : Prop :=
  ∀ s : State, s.pending = [] →
    step s = .next (idle s)
      ∧ (s.boot.dev ≠ .run → idle s = s)
      ∧ ((∀ n, n < 16 → (channelNo s n).cur = none) →
        (idle s).now = (if s.boot.dev = .run then s.now + 1 else s.now)
        ∧ ∃ hs : List Harrow, idle s = { s with now := (idle s).now, field := { s.field with harrows := hs } })

/-- The state after reset meets the invariant, and holds what the spec gives for reset: every queue is DISABLED, no partition is configured,
no stream exists, every fence is 0, the tick unit is OFF, every mailbox is FREE and ACLK stands at 400 MHz. That subsoil lists nothing is
the model's (DESIGN CHOICE, log entry 5). -/
def Obligations.ResetMeetsInvariant : Prop :=
  let s := State.reset
  stateOk s ∧ s.pending = [] ∧ s.streams = []
    ∧ (∀ q, q < 256 → (queueOf s q).state = .disabled ∧ (queueOf s q).head = 0 ∧ (queueOf s q).tail = 0 ∧ (queueOf s q).seq = 0)
    ∧ (∀ p, p < 4 → (partOf s p).configured = false ∧ ∀ f, fenceOf (partOf s p) f = ⟨0, false⟩)
    ∧ s.tick.st = .off ∧ s.tick.latches = [] ∧ (∀ fn m, fn < 5 → m < 8 → (mbxOf s fn m).state = .free)
    ∧ s.pwr.aclk = 400 ∧ s.boot.fwReady = false ∧ s.boot.fwAlive = false ∧ s.pcie.linkUp = false ∧ s.mem.phys = []

/-- Every step keeps the invariant: the memories' canonical form and the numbers of units. -/
def Obligations.StepKeepsInvariant : Prop :=
  ∀ s t : State, stateOk s → step s = .next t → stateOk t

/-! ### Commands of engine kind 0x0, and SEED_SET (chapters 3 and 12) -/

/-- The four opcodes of engine kind 0x0 run on a queue of any kind (R86): NOP and FENCE_SIGNAL do nothing but complete. TIMESTAMP commits
at once, and its record has the device time of its commit as its start and its end. FENCE_RESET sets its fence to 0 without the error bit
and leaves every other fence, every other queue and memory alone, so that a waiter stays in WAIT; bits [511:12] of its body are reserved. -/
def Obligations.FenceCommandsRun : Prop :=
  (∀ (s : State) (Q : Queue) (h : Nat), hOpcode h < 4 → (true, failAt .loadWrongEngine 0 0) ∉ stageA s Q h)
  ∧ (∀ (s : State) (q : Nat) (Q : Queue) (c : Cmd),
      (starts s q 0x000 noChecks Q c → exec (.nop q) s = .next (setResult (running s q c) q ⟨.completed, 0, 0, 0⟩))
      ∧ (starts s q 0x001 noChecks Q c → exec (.fenceSignal q) s = .next (setResult (running s q c) q ⟨.completed, 0, 0, 0⟩))
      ∧ (starts s q 0x003 noChecks Q c →
        exec (.timestamp q) s = .next (commitQueue (setResult (running s q c) q ⟨.completed, 0, 0, 0⟩) q)
          ∧ (∀ (t : State) (r : Result), t.now < 2 ^ 64 →
            fld (recordBits t q Q c r) 256 64 = t.now ∧ fld (recordBits t q Q c r) 320 64 = t.now))
      ∧ (starts s q 0x002 checksFenceReset Q c →
        ∃ t, exec (.fenceReset q) s = .next t
          ∧ fenceOf (partOf t Q.cfg.part) (fld c.body 0 12) = ⟨0, false⟩
          ∧ (∀ p f, (p ≠ Q.cfg.part ∨ f ≠ fld c.body 0 12) → fenceOf (partOf t p) f = fenceOf (partOf s p) f)
          ∧ (∀ r, r ≠ q → queueOf t r = queueOf s r)
          ∧ (queueOf t q).state = .run ∧ (queueOf t q).result = some ⟨.completed, 0, 0, 0⟩
          ∧ t.mem = s.mem ∧ t.streams = s.streams ∧ t.now = s.now))
  ∧ (∀ (s : State) (Q : Queue) (c : Cmd), fld c.body 12 500 ≠ 0 →
      firstFail (checksFenceReset s Q c) = some (atBit .loadReservedNonzero 12))

/-- SEED_SET executes with nothing to do, and no slot changes before its commit; then its slot holds the seed, or is unloaded, and every
other slot is as it was. A command's seed is the one its slot has at its stage B (R282, R284). That the seed is kept with the command is the
model's (DESIGN CHOICE, log entry 42). -/
def Obligations.SeedSetTakesEffectAtCommit : Prop :=
  (∀ (s : State) (q : Nat) (Q : Queue) (c : Cmd), starts s q 0x141 checksSeedSet Q c →
      exec (.seedSet q) s = .next (setResult (running s q c) q ⟨.completed, 0, 0, 0⟩)
        ∧ (setResult (running s q c) q ⟨.completed, 0, 0, 0⟩).parts = s.parts)
  ∧ (∀ (s : State) (p : Nat) (c : Cmd) (r : Result), hOpcode c.hdr = 0x141 → isDone r.status = true → p < s.parts.length →
      let t := atCommit s p c r
      let slot := fld c.body 128 8
      (bitOf c.body 136 = false → lookupKey slot (partOf t p).seeds = some (BitVec.ofNat 128 (fld c.body 0 128)))
      ∧ (bitOf c.body 136 = true → lookupKey slot (partOf t p).seeds = none)
      ∧ (∀ k, k ≠ slot → lookupKey k (partOf t p).seeds = lookupKey k (partOf s p).seeds) ∧ t.queues = s.queues ∧ t.mem = s.mem)
  ∧ (∀ (s : State) (q op : Nat) (Q : Queue) (c : Cmd), inCheck s q op = some (Q, c) →
      ∃ d, (queueOf (running s q c) q).cmd = some d ∧ d.seed = seedOf (partOf s Q.cfg.part) c.hdr ∧ d.start = some s.now)

/-- The fields of a completion record (Table 3-3): status, opcode, queue, partition, valid bit, sequence number, tag, start and
end time, details and work. -/
def Obligations.RecordHasItsFields : Prop :=
  ∀ (s : State) (q : Nat) (Q : Queue) (c : Cmd) (r : Result),
    q < 256 → Q.cfg.part < 4 → Q.seq < 2 ^ 64 → s.now < 2 ^ 64 → startTime s c < 2 ^ 64 → r.a < 2 ^ 32 → r.b < 2 ^ 32 → r.work < 2 ^ 32 →
    let x := recordBits s q Q c r
    fld x 0 16 = statusCode r.status ∧ fld x 28 12 = hOpcode c.hdr ∧ fld x 40 8 = q ∧ fld x 48 2 = Q.cfg.part ∧ fld x 63 1 = 1
      ∧ fld x 128 64 = Q.seq ∧ fld x 192 64 = hUserTag c.hdr ∧ fld x 256 64 = startTime s c ∧ fld x 320 64 = s.now
      ∧ fld x 384 32 = r.a ∧ fld x 416 32 = r.b ∧ fld x 448 32 = r.work ∧ x < 2 ^ 512

/-- A command of a queue does nothing before it stands in CHECK with its opcode and without a result, in a function that is not in D3hot
(R68, R429). That such an event changes nothing is the model's (DESIGN CHOICE, log entry 12). -/
def Obligations.CommandsWaitForCheck : Prop :=
  ∀ (s : State) (q : Nat),
    (inCheck s q 0x000 = none → exec (.nop q) s = .next s) ∧ (inCheck s q 0x001 = none → exec (.fenceSignal q) s = .next s)
    ∧ (inCheck s q 0x002 = none → exec (.fenceReset q) s = .next s) ∧ (inCheck s q 0x003 = none → exec (.timestamp q) s = .next s)
    ∧ (inCheck s q 0x100 = none → exec (.mxGemm q) s = .next s) ∧ (inCheck s q 0x101 = none → exec (.conv2d q) s = .next s)
    ∧ (inCheck s q 0x102 = none → exec (.pool q) s = .next s) ∧ (inCheck s q 0x110 = none → exec (.scanLinear q) s = .next s)
    ∧ (inCheck s q 0x111 = none → exec (.recurCell q) s = .next s) ∧ (inCheck s q 0x120 = none → exec (.attend q) s = .next s)
    ∧ (inCheck s q 0x130 = none → exec (.eltwise q) s = .next s) ∧ (inCheck s q 0x131 = none → exec (.normRow q) s = .next s)
    ∧ (inCheck s q 0x132 = none → exec (.softmaxRow q) s = .next s) ∧ (inCheck s q 0x140 = none → exec (.sample q) s = .next s)
    ∧ (inCheck s q 0x141 = none → exec (.seedSet q) s = .next s) ∧ (inCheck s q 0x200 = none → exec (.drillCopy q) s = .next s)
    ∧ (inCheck s q 0x201 = none → exec (.drillChain q) s = .next s) ∧ (inCheck s q 0x210 = none → exec (.drillVisible q) s = .next s)
    ∧ (inCheck s q 0x230 = none → exec (.plotMove q) s = .next s) ∧ (inCheck s q 0x310 = none → exec (.swathStep q) s = .next s)
    ∧ (inCheck s q 0x400 = none → exec (.netSend q) s = .next s) ∧ (inCheck s q 0x401 = none → exec (.netRecv q) s = .next s)
    ∧ (inCheck s q 0x402 = none → exec (.netBarrier q) s = .next s)

/-- A command whose checks of stage B fail, or that is held back for power, gets the status of the first failure, and nothing else of it
takes effect (R82, R94). That held tiles are released before the checks is the model's reading (DEDUCED, log entry 14). -/
def Obligations.FailedCheckOnlySetsStatus : Prop :=
  ∀ (s : State) (q : Nat) (Q : Queue) (c : Cmd) (f : Fail),
    (inCheck s q 0x131 = some (Q, c) → firstFail (checksNormRow (atChecks s q Q c) Q c) = some f →
      exec (.normRow q) s = .next (setResult (atChecks s q Q c) q (failResult f 0)))
    ∧ (inCheck s q 0x200 = some (Q, c) → holdsChannel s q = true → firstFail (checksDrillCopy (atChecks s q Q c) Q c) = some f →
      exec (.drillCopy q) s = .next (setResult (atChecks s q Q c) q (failResult f 0)))
    ∧ (inCheck s q 0x401 = some (Q, c) → lcNetFirst s q = false → firstFail (checksNetRecv (atChecks s q Q c) Q c) = some f →
      exec (.netRecv q) s = .next (setResult (atChecks s q Q c) q (failResult f 0)))
    ∧ (inCheck s q 0x000 = some (Q, c) → firstFail (noChecks (atChecks s q Q c) Q c) = none → beHeld (atChecks s q Q c) Q = some f →
      exec (.nop q) s = .next (setResult (atChecks s q Q c) q (failResult f 0)))

/-! ### Commands of the COMPUTE engines (chapters 4 to 9, 11 and 12) -/

/-- A started command whose window positions are READY: its lines are read, and no read of host memory fails; `y` is the state in which it
computes, and `e` the command there (R321, R326). -/
def readsThrough (z : State) (q p : Nat) (reads : List (Nat × Nat)) (y : State) (e : Cmd) : Prop :=
  let needs := windowNeeds (partOf z p) reads
  let u := setReaders (setCmd z q fun c => { c with windows := (c.windows ++ needs.map fun n => (n / 4096, n % 4096)).eraseDups, reads := reads })
    p q needs true
  windowFailure (partOf z p) needs = none ∧ windowReady (partOf z p) needs = true ∧ (queueOf u q).cfg.kind ≠ 2
    ∧ hostFires (useExtents u q p reads) p reads = (none, y) ∧ (queueOf y q).cmd = some e ∧ (queueOf y q).cfg.part = p

/-- A harrow command opens a plain grid of its items with the counter at 0 (R130), and passes the window fence with its outputs named; its
computation follows, and writes its rows and completes (R188, R195, R199, R293). That the outputs are written in this step is the model's
reading (DEDUCED, log entry 13). -/
def Obligations.HarrowCommandsStart : Prop :=
  ∀ (s : State) (q : Nat) (Q : Queue) (c : Cmd),
    let b := c.body
    let p := Q.cfg.part
    let x := running s q c
    let opened (n : Nat) (outs : List (Nat × Nat)) : State :=
      setCmd (openWork (charge x p 0 0) q (newWork x p (harrowGrid n))) q fun y => { y with outs := outs, chargeLoam := 0 }
    let sampled := (fld b 0 48, extent (spRows b) (spXRow b) (rowBytes (fmtOf (spFmtX b)) (spCols b))) ::
      (spArrays b).map fun (lo, n) => (fld b lo 48, n)
    let done (t : State) (rs : List OutRow) (work : Nat) : State := setResult t q (completedResult (outEvent rs) none none work)
    (starts s q 0x130 checksEltwise Q c →
      exec (.eltwise q) s
        = .next (gated (opened (eTiles b (partOf x p).cfg.repeatable) (eOuts b)) q p (eReads b) fun st => computeEltwise st q)
      ∧ (∀ y e rs t, readsThrough (opened (eTiles b (partOf x p).cfg.repeatable) (eOuts b)) q p (eReads b) y e → e.body = b → eForm b ≠ 1 →
        eMapRows y p b e.seed = .ok rs → storeAll y p q (outWrites rs) = .ok t →
        exec (.eltwise q) s = .next (done t rs (eTiles b (partOf y p).cfg.repeatable))))
    ∧ (starts s q 0x131 checksNormRow Q c →
      exec (.normRow q) s = .next (gated (opened (ceilDiv (nRows b) 8) (nOuts b)) q p (nReads b) fun st => computeNormRow st q)
      ∧ (∀ y e rs n t, readsThrough (opened (ceilDiv (nRows b) 8) (nOuts b)) q p (nReads b) y e → e.body = b → nOutRows y p b e.seed = .ok (rs, n) →
        storeAll (setCounts y q fun k => { k with normClamp := satAdd 32 k.normClamp n }) p q (outWrites rs) = .ok t →
        exec (.normRow q) s = .next (done t rs (ceilDiv (nRows b) 8))))
    ∧ (starts s q 0x132 checksSoftmaxRow Q c →
      exec (.softmaxRow q) s = .next (gated (opened (ceilDiv (xRows b) 8) (xOuts b)) q p (xLenReads b) fun st => softmaxReads st q)
      ∧ (∀ y e z d rs t, readsThrough (opened (ceilDiv (xRows b) 8) (xOuts b)) q p (xLenReads b) y e → e.body = b → e.reads = xLenReads b →
        readsThrough y q p (xRowReads y p b) z d → d.body = b → xOutRows z p b d.seed = .ok rs → storeAll z p q (outWrites rs) = .ok t →
        exec (.softmaxRow q) s = .next (done t rs (ceilDiv (xRows b) 8))))
    ∧ (starts s q 0x140 checksSample Q c →
      exec (.sample q) s = .next (gated (opened (spItems b) (spOuts b)) q p sampled fun st => computeSample st q)
      ∧ (∀ y e t, readsThrough (opened (spItems b) (spOuts b)) q p sampled y e → e.body = b →
        (∀ rs, spMode b = 1 → spDropRows y p b e.seed = .ok rs → storeAll y p q (outWrites rs) = .ok t →
          exec (.sample q) s = .next (done t rs (spItems b)))
        ∧ (∀ ds, spMode b ≠ 1 → spDrawsOf y p b e.seed = .ok ds → storeAll y p q (outWrites (spTokenRows b ds)) = .ok t →
          exec (.sample q) s = .next (setDetails (done t (spTokenRows b ds) (spItems b)) q
            (ds.filter fun d => d.token == 0xFFFFFFFF).length (ds.filter (·.bad)).length))))

/-- A command of the matrix engines or a pooling opens the grid of its tile descriptor, with its W work items and T tiles (R127, R128,
R130); its spill and split scratch are charged (R134, R140); it passes the window fence, and then writes its rows and completes, or
with out_mode 1 its held words, and a split one leaves its partials to its reducers (R109, R135, R147, R163). A consumer of held tiles
of which one was lost ends with FAULT_UNRECOVERED and the lowest lost tile (R112). That the outputs are written in this step, and the
lowest lost tile, are the model's readings (DEDUCED, log entries 13 and 114). -/
def Obligations.TiledCommandsStart : Prop :=
  ∀ (s : State) (q : Nat) (Q : Queue) (c : Cmd) (d : Nat),
    let b := c.body
    let p := Q.cfg.part
    let x := running s q c
    let n := (grantEngines x p).length
    let opened (units : Nat) (g : Grid) (outs : List (Nat × Nat)) : State :=
      setCmd (openWork (charge x p units 0) q (newWork x p g)) q fun y => { y with outs := outs, chargeLoam := units, loaded := [d] }
    (starts s q 0x100 checksMxGemm Q c → readDesc x p b 256 = .ok (some d) →
      let consume := gInitSel b == 2
      let holds := gOutMode b == 1 || gOutMode b == 2
      (∀ t, consume = true → lostTile x q = some t → exec (.mxGemm q) s = .next (setResult (unrun x q) q ⟨.faultUnrecovered, t, 0, 0⟩))
      ∧ ((consume = true → lostTile x q = none) →
        let h := if holds && !consume then holdSlots x q (dT d) (slotSupply x (grantEngines x p)) (heldShape d) else x
        let w := newWork h p (descGrid d false (holds || consume) (gPasses x p b) (gBanks b d) 0 [])
        let tags := if holds || consume then (heldSlots h q).map fun (t, e, _) => (e, t) else []
        let z := setCmd (openWork (charge h p (tiledUnits d n) 0) q { w with bound := tags }) q fun y =>
          { y with outs := gOuts b d, chargeLoam := tiledUnits d n, loaded := [d] }
        exec (.mxGemm q) s = .next (gated z q p (gReads b d) fun st => computeMxGemm st q)
        ∧ (∀ y e, readsThrough z q p (gReads b d) y e → e.body = b → e.loaded = [d] →
          (dKc d ≠ 0 → exec (.mxGemm q) s = .next (keepPartials y q e (gPartials y p b d) (dT d)))
          ∧ (∀ ws, dKc d = 0 → gWords y p b d (if gInitSel b = 2 then heldSlots y q else []) = .ok ws →
            let v := if gOutMode b = 0 then y else setAccum y (gHeldWrites d (heldSlots y q) ws)
            (gOutMode b = 1 → exec (.mxGemm q) s = .next (setResult v q (completedResult .none none none (dT d))))
            ∧ (∀ rs t, gOutMode b ≠ 1 → gOutRows y p b d e.seed ws = .ok rs → storeAll v p q (outWrites rs) = .ok t →
              exec (.mxGemm q) s = .next (setResult t q (completedResult (outEvent rs) e.stall none (dT d))))))))
    ∧ (starts s q 0x101 checksConv2d Q c → readDesc x p b 256 = .ok (some d) →
      let z := opened (tiledUnits d n) (descGrid d false false (cPasses x p b) (cBanks b d) (geoTW (cGeo b)) (haloSides d)) (cOuts b d)
      exec (.conv2d q) s = .next (gated z q p (cReads b d (xformRuns b d n)) fun st => computeConv2d st q)
      ∧ (∀ y e, readsThrough z q p (cReads b d (xformRuns b d n)) y e → e.body = b → e.loaded = [d] →
        (dKc d ≠ 0 → exec (.conv2d q) s = .next (keepPartials y q e (cPartials y p b d) (dT d)))
        ∧ (∀ rs t, dKc d = 0 → cOutRows y p b d e.seed (xformRuns b d (match e.work with | some w => w.grantEngines.length | none => 0)) = .ok rs →
          storeAll y p q (outWrites rs) = .ok t →
          exec (.conv2d q) s = .next (setResult t q (completedResult (outEvent rs) e.stall none (dT d))))))
    ∧ (starts s q 0x102 checksPool Q c → readDesc x p b 128 = .ok (some d) →
      let g := plGeo b
      let outs := imageSpans d 2 (fld b 64 48) g.ho g.wo g.outRow g.outCol (rowBytes (fmtOf (plFmtOut b)) (dM d))
      let reads := imageReads d 1 (fld b 0 48) g.inRow g.inCol (rowBytes (fmtOf (plFmtIn b)) (dM d)) (usedRows g) (usedCols g)
      let z := opened 0 (descGrid d true false 1 (plBanks b d) (geoTW g) (haloSides d)) outs
      exec (.pool q) s = .next (gated z q p reads fun st => computePool st q)
      ∧ (∀ y e rs t, readsThrough z q p reads y e → e.body = b → e.loaded = [d] → plOutRows y p b d e.seed = .ok rs →
        storeAll y p q (outWrites rs) = .ok t →
        exec (.pool q) s = .next (setResult t q (completedResult (outEvent rs) none none (dT d)))))

/-- A recurrent command or an attention names its streams for as long as it executes (R207, R265), and starts its work once no other
command or transit holds them: its grid (R216, R224, R265), its scratch and its reservations (R271), and the window fence; then it
writes its rows and the states of its streams and completes. That the outputs are written in this step is the model's reading
(DEDUCED, log entry 13). -/
def Obligations.StreamComputeStarts : Prop :=
  ∀ (s : State) (q : Nat) (Q : Queue) (c : Cmd),
    let b := c.body
    let p := Q.cfg.part
    let x := running s q c
    (starts s q 0x110 checksScanLinear Q c → (lResident b && recurWaits s q 384 (lSeqs b)) = false →
      ∀ list, (lList b = 0 → list = []) → (lList b ≠ 0 → readList x p b 384 (lSeqs b) = .ok (some list)) →
      let ids := if lResident b then list else []
      let g := { harrowGrid (lItems b) with scan := if lSequential b then 0 else lChunks b }
      let z := setCmd (openWork (charge x p (lUnits b) 0) q (newWork x p g)) q fun y =>
        { y with outs := lOuts b, streams := ids, chargeLoam := lUnits b, loaded := list }
      exec (.scanLinear q) s = .next (gated z q p (lReads b) fun st => computeScanLinear st q)
      ∧ (∀ y e rs t, readsThrough z q p (lReads b) y e → e.body = b → e.loaded = list → e.streams = ids →
        let ident (i : Nat) : Nat := if lList b = 0 then i else list.getD i 0
        (lResident b = true → lostStream y p (lSlot b) ids = none) →
        ((List.range (lSeqs b)).mapM fun i => do
          let (rows, h) ← scanSequence y p b e.seed i (ident i)
          pure (i, rows, h)) = .ok rs →
        let rows := rs.flatMap (·.2.1) ++ (if lHTUsed b then rs.map fun (i, _, h) => scanFinalRow b e.seed i (ident i) h else [])
        storeAll y p q (outWrites rows) = .ok t →
        ∃ u r, exec (.scanLinear q) s = .next (setResult u q r) ∧ isDone r.status = true ∧ r.work = lItems b
          ∧ (lWriteBack b = false → u = recurStates t p (lSlot b) [])))
    ∧ (starts s q 0x111 checksRecurCell Q c → recurWaits s q 320 (rCount b) = false →
      ∀ ids rc, namedStreams x p c.hdr b 320 (rCount b) = .ok (some ids) → firstRecord x p (rSlot b) ids = some rc →
      let groups := recurGroups x (rSlot b) (cohortsOf x ids)
      let w := newWork x p (recurGrid (groups.map (·.2.2.length)) (rLive b rc) (rGates b) (rPasses (partOf x p).cfg.zg40 b))
      let z := setCmd (openWork x q { w with bound := (List.range groups.length).zip groups |>.map fun (i, g) => (g.2.1, i) }) q fun y =>
        { y with outs := rowSpans (fld b 128 48) (rOutRow b) (rCount b) (rowBytes (recFmt rc) rc.n), streams := ids }
      exec (.recurCell q) s = .next (gated z q p (rReads b rc.n) fun st => computeRecurCell st q)
      ∧ (∀ y e ws bias adv t, readsThrough z q p (rReads b rc.n) y e → e.body = b → e.streams = ids →
        lostStream y p (rSlot b) ids = none → firstRecord y p (rSlot b) ids = some rc →
        rWeights y p b rc.n = .ok ws → rBiases y p b rc.n = .ok bias →
        (((List.range ids.length).zip ids).mapM fun (r, id) => do
          let a ← recurEntry y p b e.seed ws bias r id
          pure (r, a)) = .ok (adv.map fun (r, a) => (r, some a)) →
        storeAll y p q (outWrites (recurRows b adv)) = .ok t →
        exec (.recurCell q) s = .next (setResult (recurStates t p (rSlot b) (adv.map (·.2))) q
          (completedResult (outEvent (recurRows b adv)) (weightStall y p e (fld b 192 48)) none
            ((recurGroups y (rSlot b) (cohortsOf y ids)).length * rLive b rc)))))
    ∧ (starts s q 0x120 checksAttend Q c → attendWaits s q = false →
      ∀ K ids, poolOf x p (aPool b) = some K → namedStreams x p c.hdr b 320 (aStreams b) = .ok (some ids) →
      let need := attendNeeds x K b ids
      let z := setCmd (openWork x q { newWork x p (attendGrid b K) with after := attendAfter b K }) q fun y =>
        { y with outs := aOuts b K, streams := ids, reserved := [(aPool b, need.1), (aPool b + 8, need.2.1), (aPool b + 16, need.2.2)] }
      exec (.attend q) s = .next (gated z q p (aReads b K) fun st => computeAttend st q)
      ∧ (∀ y e ws, readsThrough z q p (aReads b K) y e → e.body = b → e.streams = ids → poolOf y p (aPool b) = some K → aBias b = 0 →
        ((List.range (aCols K)).mapM fun i => loadRow y p (fmtOf (aFmtW b)) (fld b 192 48 + i * aWCol b) K.inDim) = .ok ws →
        let cx : AttendCtx := { p := p, q := q, b := b, k := aPool b, ws := ws, bias := List.replicate (aCols K) pzero,
                                us := (e.start.getD y.now) / 1000, seed := e.seed }
        let entries := (List.range ids.length).zip ids
        let a := entries.foldl (fun v (r, id) => attendStream cx v r id)
          (entries.foldl (fun v (r, id) => appendStream cx v r id)
            { s := y, fail := none, rebuilt := 0, ns := 0, appends := [], rows := [], slots := 0, ids := 0, ev := .none }, [])
        a.1.fail = none → ∀ t, storeAll (setCmd a.1.s q fun k => { k with
            appends := a.1.appends
            reserved := k.reserved.map fun r => (r.1, r.2 - (if r.1 = cx.k then a.1.slots else if r.1 = cx.k + 8 then a.1.ids else 0)) })
          p q (outWrites a.2) = .ok t →
        ∃ r, exec (.attend q) s = .next (setResult t q r) ∧ isDone r.status = true ∧ r.work = aItems b K))

/-- The window fence (R321): a command that reads no window goes on at once; one whose positions are READY enters their readers; one with a
position that is not waits, and is counted. It starts once every position is READY, with its wait counted, and ends as the fill did where
that failed. That a release before then changes nothing is the model's (DESIGN CHOICE, log entry 12). -/
def Obligations.WindowFenceHolds : Prop :=
  (∀ (s : State) (q p : Nat) (reads : List (Nat × Nat)) (compute : State → State),
      let needs := windowNeeds (partOf s p) reads
      let x := setCmd s q fun c => { c with windows := (c.windows ++ needs.map fun n => (n / 4096, n % 4096)).eraseDups, reads := reads }
      windowFailure (partOf s p) needs = none → q < s.queues.length →
      (windowReady (partOf s p) needs = true → gated s q p reads compute = afterReads (setReaders x p q needs true) q p reads compute)
      ∧ (windowReady (partOf s p) needs = false →
        let t := gated s q p reads compute
        (∀ c, (queueOf s q).cmd = some c → ∃ d, (queueOf t q).cmd = some d ∧ d.waiting = some s.now ∧ d.reads = reads)
          ∧ ((queueOf s q).cmd.bind (·.stall) = none → (queueOf t q).counts.windowStalls = satAdd 32 (queueOf s q).counts.windowStalls 1)
          ∧ t.mem = s.mem ∧ t.streams = s.streams))
  ∧ (∀ (s : State) (q : Nat) (c : Cmd) (since : Nat),
      let p := (queueOf s q).cfg.part
      let needs := c.windows.map fun (w, i) => w * 4096 + i
      let ns := s.now - since
      (queueOf s q).cmd = some c → (queueOf s q).result = none → c.waiting = some since → passedFence s p q c = false →
      (windowFailure (partOf s p) needs = none → windowReady (partOf s p) needs = true →
        exec (.windowFenceRelease q) s = .next (afterReads
          (setReaders (setCmd (stallTime s p ns) q fun x => { x with waiting := none, stall := some ns }) p q needs true) q p c.reads
          fun x => computeOf x q (hOpcode c.hdr)))
      ∧ (∀ f, windowFailure (partOf s p) needs = some f → exec (.windowFenceRelease q) s
        = .next (endEarly (setCmd (stallTime s p ns) q fun x => { x with waiting := none }) q p f [] 0))
      ∧ (windowFailure (partOf s p) needs = none → windowReady (partOf s p) needs = false → exec (.windowFenceRelease q) s = .next s))

/-! ### The drill and the plot mover (chapters 13 and 15) -/

/-- A channel command starts once it holds its channel: its descriptors enter the channel's store and it passes the window fence; then its
first descriptor reads, copies and brings the CRC forward (R355, R358 to R362). DRILL_VISIBLE drains the partition's write-combining entries
and completes, unless a function whose host writes it flushes may not issue requests (R364, R436). A window fill takes the next fill number
of its window and, once slot (number mod depth) has no readers and no other fill writes it, its bytes are placed there and it completes
(R320, R324). That a descriptor's bytes move in one step, and when a slot is READY, are the model's (log entries 13, 56, 139 and 161). -/
def Obligations.DrillCommandsStart : Prop :=
  (∀ (s : State) (q : Nat) (Q : Queue) (c : Cmd), holdsChannel s q = true →
      let p := Q.cfg.part
      let go (x : State) (ds : List (Nat × Nat)) : State :=
        gated (setChannel x Q.cfg.channel fun ch => { ch with store := ds, retry := [] }) q p (ds.flatMap fun e => ddSrcRows e.2)
          fun st => computeDrill st q
      (starts s q 0x200 checksDrillCopy Q c → exec (.drillCopy q) s = .next (go (running s q c) (descsOf (running s q c) p Q c)))
      ∧ (inCheck s q 0x201 = some (Q, c) → let y := useReads s p (chainSpans s p c)
        starts y q 0x201 checksDrillChain Q c → exec (.drillChain q) s = .next (go (running y q c) (descsOf (running y q c) p Q c)))
      ∧ (starts s q 0x210 checksDrillVisible Q c →
        let y := drainWhere (running s q c) fun e => e.part == p
        exec (.drillVisible q) s = .next (setResult y q
          ⟨if (flushFns y p).all (mayIssue y) then .completed else .memUnmapped, 0, 0, 0⟩)))
  ∧ (∀ (s : State) (q : Nat) (c : Cmd) (va d : Nat) (x y : State), (queueOf s q).cmd = some c →
      let p := (queueOf s q).cfg.part
      let n := (queueOf s q).cfg.channel
      (channelNo s n).store[c.done]? = some (va, d) →
      let u := chCounts (setCmd s q fun k => { k with outs := c.outs ++ ddDstRows d }) n fun k => { k with curDesc := va }
      let v := touchPlots (useReads u p (ddSrcRows d)) p (ddDstRows d ++ (if ddCrcAddr d = 0 then [] else [(ddCrcAddr d, 4)]))
      drillFires v p n c.done d = (none, x) → shutOffset x p d = none → runDesc x p q n d = .ok y → computeDrill s q = y)
  ∧ (∀ (s : State) (q : Nat) (Q : Queue) (c : Cmd) (w : Window),
      let x := running s q c
      let p := Q.cfg.part
      holdsChannel s q = true → starts s q 0x220 checksWindowFill Q c → winOf x p (wfWin c.body) = some w → c.waiting = none → c.reads = [] →
      exec (.windowFill q) s
        = .next (gated (numberFill x q p c w) q p [(wfSrc c.body, wfSrcLen c.body)] fun st => computeWindowFill st q))
  ∧ (∀ (s : State) (q k : Nat) (c : Cmd) (w : Window) (begun : Bool) (bs : List Byte) (z t : State),
      let p := (queueOf s q).cfg.part
      let i := fillSlot w k
      let sl := w.slots.getD i { frames := [], st := .empty, readers := [] }
      let u := setCmd (setWin s p (wfWin c.body) fun x => setSlotState x i (.filling (wfPos c.body) (wfOutLen c.body))) q
        fun y => { y with fill := some (k, true) }
      holdsChannel s q = true → (queueOf s q).state = .run → (queueOf s q).cmd = some c → (queueOf s q).result = none → hOpcode c.hdr = 0x220 →
      c.waiting = none → c.reads ≠ [] → c.fill = some (k, begun) → winOf s p (wfWin c.body) = some w →
      (slotOpen sl = false → exec (.windowFill q) s = .next s)
      ∧ (slotOpen sl = true → hostFires (useReads u p c.reads) p c.reads = (none, z) → fillData z p c.body = .ok bs →
        fillFrames z p q sl.frames bs = .ok t → exec (.windowFill q) s = .next (setResult t q ⟨.completed, 0, 0, 0⟩)))

/-- PLOT_MOVE (R315): plots at the target take the policy; the others get destinations, in order, and the mover runs. An active move ends
(R311): its plot, SETTLED, is at the destination and the slot is free; or, where the bytes cannot be read or placed, it stays at its source
and the failure is counted. Which plots are at the target, and what a failed move leaves, are the model's readings (DEDUCED, log entries 57
and 148). -/
def Obligations.PlotsMove : Prop :=
  (∀ (s : State) (q : Nat) (Q : Queue) (c : Cmd) (t : State), starts s q 0x230 (checksPlotMove q) Q c →
      let x := running s q c
      let todo := pmToMove x Q.cfg.part c.body
      let y := (pmPlots c.body).foldl
        (fun z k => if todo.any (·.2 == k) then z else setPlot z Q.cfg.part k (applyPolicy (pmPolicy c.body))) x
      reserveMoves y Q.cfg.part q c.body todo = some t → exec (.plotMove q) s = .next (runMover t))
  ∧ (∀ (s : State) (p k : Nat) (m : Move) (pl : Plot),
      s.mem.moves.find? (movesPlot · p k) = some m →
      (plotOf s p k = none → exec (.plotMoveCommit p k) s = .next (runMover (releaseMove (settleMove s m) m)))
      ∧ (plotOf s p k = some pl → m.cause = .rehome → exec (.plotMoveCommit p k) s = .next (runMover (settleMove (rehomePlot s p k pl m.dest) m)))
      ∧ (∀ bad x, plotOf s p k = some pl → m.cause ≠ .rehome → moveReads s p k = (bad, x) →
        let failed (f : Fail) : State := runMover (moveFail (countMoveFailed (settleMove x m) p) m f)
        (∀ f, bad = some f → exec (.plotMoveCommit p k) s = .next (failed f))
        ∧ (∀ t, bad = none → copyPlot x p ((moveQueue m).getD 0) k pl m.dest = .ok t →
          exec (.plotMoveCommit p k) s = .next (runMover (moveDone (settleMove t m) m)))
        ∧ (∀ f, bad = none → copyPlot x p ((moveQueue m).getD 0) k pl m.dest = .error f → exec (.plotMoveCommit p k) s = .next (failed f))))

/-- Events of the memory tiers: an epoch of 1 ms ends with every partition's migration (R317); an entry that no store has merged into for
256 HCLK drains (R338); a far-field access past its timeout ends its command with MEM_FAR_TIMEOUT and the descriptors completed, and one to
host memory is counted (R326, R327, R440); patrol scrub counts a corrected bit at its channel, and one that cannot be corrected poisons its
line; a stack's own correction is counted at its channel (R342 to R344). That an epoch's moves start in one step is the model's (DESIGN
CHOICE, log entry 58), and so is the count of host accesses (DEDUCED, log entry 90). -/
def Obligations.MemoryEventsHappen : Prop :=
  (∀ s : State,
      ((s.mem.epoch + 1) * 1000000 ≤ s.now →
        ∃ t, exec .migrationEpoch s = .next { t with mem := { t.mem with epoch := t.mem.epoch + 1 } }
          ∧ t = runMover ((List.range 4).foldl migratePart s))
      ∧ (s.now < (s.mem.epoch + 1) * 1000000 → exec .migrationEpoch s = .next s)
      ∧ (∀ line, exec (.wcbIdleTimeout line) s
          = .next ((s.mem.wcb.filter fun e => e.line == line && decide (e.lastMerge + 233 ≤ s.now)).foldl drainEntry s))
      ∧ (∀ q c, let p := (queueOf s q).cfg.part
          let e := endRead s q p c (failAt .memFarTimeout 0 0)
          let atHost := (partOf e p).plots.any fun x => x.2.home == .host && touches (c.reads ++ c.outs) x.1
          farMove s q = none → (queueOf s q).state = .run → (queueOf s q).cmd = some c → (queueOf s q).result = none → hOpcode c.hdr ≠ 0x210 →
          farExpired s p (c.start.getD s.now) (touches (c.reads ++ c.outs)) = true →
          (queueOf e q).result = some ⟨.memFarTimeout, 0, 0, c.done⟩
          ∧ (atHost = false → exec (.farFieldTimeout q) s = .next e)
          ∧ (atHost = true → e.pcie.cplTimeout < 2 ^ 32 - 1 → exec (.farFieldTimeout q) s = .next (noteInjected
            { e with pcie := { e.pcie with cplTimeout := e.pcie.cplTimeout + 1 } } 0x1A (queueOf s q).cfg.owner))))
  ∧ (∀ (s : State) (addr found : Nat),
      let a := addr / 64 * 64
      let h := channelOf a
      isSub a = true → unitEnabled s (.channel h) = true → unitFailed s (.channel h) = false → s.flt.inj = [] → linePoisoned s (a / 64) = false →
      a ≠ lastScrubLine h →
      (found = 0 → exec (.patrolScrub addr found) s = .next s)
      ∧ (found = 1 → exec (.patrolScrub addr found) s = .next (countSubCorrected s h))
      ∧ (found = 2 → exec (.patrolScrub addr found) s = .next (countSubLine (poisonLine s (a / 64)) h false))
      ∧ (found = 3 → exec (.patrolScrub addr found) s = .next (setSub s h fun c => { c with onDie := satAdd 32 c.onDie 1 })))

/-- A free channel takes the first command in the order of R355; an error on a line is retried up to three times and then halts the
channel, ends the command with MEM_BUS_ERROR and raises the event (R365). -/
def Obligations.DrillChannelEvents : Prop :=
  ∀ (s : State) (n : Nat),
    (∀ q qs, (channelNo s n).st = .idle → (channelNo s n).cur = none → grantOrder s n = q :: qs →
      exec (.drillChannelGrant n) s = .next (setChannel s n fun c => { c with cur := some q, last := q, st := .run }))
    ∧ (∀ q c off, channelCmd s n = some (q, c) → s.flt.inj = [] → hOpcode c.hdr ≠ 0x210 → awaitsLine s n c.done off c = true →
      let ch := channelNo s n
      (ch.retry.find? (fun e => e.1 == c.done && e.2.1 == off) = none → exec (.drillBusError n c.done off) s
        = .next (setChannel s n fun ch => { ch with
            retry := (ch.retry.filter fun e => !(e.1 == c.done && e.2.1 == off)) ++ [(c.done, off, 1)]
            counts := { ch.counts with retries := satAdd 32 ch.counts.retries 1 } }))
      ∧ (∀ d o k, ch.retry.find? (fun e => e.1 == c.done && e.2.1 == off) = some (d, o, k) →
        (k < 3 → exec (.drillBusError n c.done off) s
          = .next (setChannel s n fun ch => { ch with
              retry := (ch.retry.filter fun e => !(e.1 == c.done && e.2.1 == off)) ++ [(c.done, off, k + 1)]
              counts := { ch.counts with retries := satAdd 32 ch.counts.retries 1 } }))
        ∧ (3 ≤ k → exec (.drillBusError n c.done off) s = .next (haltChannel s n q c.done off)
          ∧ (n < s.drill.length → (channelNo (haltChannel s n q c.done off) n).st = .halted
            ∧ (channelNo (haltChannel s n q c.done off) n).haltStatus = statusCode .memBusError))))

/-! ### Streams and swaths (chapters 10 and 11) -/

/-- The event of a STREAM command lets it take effect in state `x` (R234, R235): the command stands in CHECK, no stream that it names is in
transit, its partition's execution slot is free and no LC queue's command comes first (Table 17-5), and it starts with `start`; or it stands
in RUN; and no executing command holds it back. -/
def streamActs (s : State) (q op : Nat) (checks : State → Queue → Cmd → List (Bool × Fail)) (start : State → Nat → Cmd → State)
    (x : State) : Prop :=
  ((∃ Q c, starts s q op checks Q c ∧ anyTransit s (streamNames op c) = false
      ∧ (opKind op == 3 && (streamSlotBusy s q || lcFirst s q)) = false
      ∧ x = setCmd (start (running s q c) q c) q fun y => { y with streams := streamNames op c })
    ∨ (∃ c, (queueOf s q).state = .run ∧ (queueOf s q).cmd = some c ∧ (queueOf s q).result = none ∧ hOpcode c.hdr = op
      ∧ c.ending = none ∧ c.waiting = none ∧ x = s))
  ∧ streamBlocked x q = false

/-- STREAM_CREATE gives the lowest FREE or RETIRED identifier of the partition an IDLE descriptor of the named layout (R238), writes
it where it is asked to, reports it and commits; STREAM_RETIRE retires its stream, gives its state, image and KV back (Table 10-2),
and commits. When a command that waits takes effect is the model's reading (DEDUCED, log entries 65 and 75), and so is its last_status
(log entry 43). -/
def Obligations.StreamsComeAndGo : Prop :=
  ∀ (s x : State) (q : Nat) (d : Cmd), (queueOf x q).cmd = some d →
    let p := (queueOf x q).cfg.part
    let slot := fld d.body 0 6
    (streamActs s q 0x300 checksStreamCreate noStart x →
      (∀ id ids, allocIds x (partOf x p) 1 = some (id :: ids) →
        let y := putStream x id (newStream p slot (layoutOf x p slot).model id (fld d.body 64 32))
        (fld d.body 128 48 = 0 → exec (.streamCreate q) s = .next (commitQueue (setResult y q ⟨.completed, id, 0, 1⟩) q))
        ∧ (∀ t, fld d.body 128 48 ≠ 0 → storeOnce y p q (fld d.body 128 48) (toLe 4 id) = .ok t →
          exec (.streamCreate q) s = .next (commitQueue (setResult t q ⟨.completed, id, 0, 1⟩) q)))
      ∧ (allocIds x (partOf x p) 1 = none →
        exec (.streamCreate q) s = .next (commitQueue (setResult x q (failResult (failAt .streamTableFull 0 0) 0)) q)))
    ∧ (∀ st, streamActs s q 0x306 checksStreamRetire noStart x → streamOf x (hStreamId d.hdr) = some st → retirable st = true →
      exec (.streamRetire q) s = .next (commitQueue (setResult (setStream (retireStream x (hStreamId d.hdr)) (hStreamId d.hdr)
        fun y => { y with lastStatus := 0 }) q ⟨.completed, 0, 0, 1⟩) q))

/-- STREAM_PARK, STREAM_RESUME and STREAM_FORK (R239 to R242). A RESIDENT stream whose state is defined is written to its reserved image and
PARKED; a PARKED or IDLE one joins a cohort, one that was lost with restart only; each child of a fork takes its parent's contents, and the
identifiers are written. Each leaves its result for the commit, which waits for the data to have moved, and what stood before with the
command, should it be aborted (R252); when the data has moved, only the stream's transit bit changes (R234). When a command that waits takes
effect is the model's reading (DEDUCED, log entries 64, 65 and 75), and so are when rows and images go back (log entry 44) and what
last_status shows (log entry 43). -/
def Obligations.StreamsMove : Prop :=
  (∀ (s x : State) (q : Nat) (d : Cmd) (st : Stream), (queueOf x q).cmd = some d → streamOf x (hStreamId d.hdr) = some st →
      let id := hStreamId d.hdr
      let p := (queueOf x q).cfg.part
      let ok (t : State) : State := setStream t id fun y => { y with lastStatus := 0 }
      let keep (t : State) (ids : List Nat) : State := setCmd t q fun y => { y with undo := snapshot x ids }
      (∀ fs t, streamActs s q 0x302 (checksStreamPark q) (fun y r c => startImages y r [headerRecords y c]) x → parkable st = true →
        claimImage x p q d.chargeLoam d.resFrames (recordsOf x st) = (some fs, t) →
        exec (.streamPark q) s = .next (setResult (keep (ok (storeParked t q id fs (stateImage x st))) [id]) q ⟨.completed, 0, 0, 1⟩))
      ∧ (∀ t, streamActs s q 0x303 checksStreamResume noStart x → resumable st (bitOf d.body 0) = true →
        toResident (if st.st = .parked then keepImage x q st else x) id = (none, t) →
        exec (.streamResume q) s = .next (setResult (keep (ok t) [id]) q ⟨.completed, 0, 0, 1⟩))
      ∧ (streamActs s q 0x301 (checksStreamFork q) (fun y r c => startImages y r (fkImages y c)) x → fkCount d.body ≤ 256 →
        (st.st = .parked ∨ parkable st = true) →
        ∀ ids bytes, allocIds x (partOf x p) (fkCount d.body) = some ids →
        let y := useImage x st
        let run (bs : List Byte) : Except Fail State := forkChildren p q d id st bs
          (if fkParked d.body then imageUnits (recordsOf y st) else 0) (imageFrames (recordsOf y st)) d.resFrames ids 0 y
        (∀ f, run [] = .error f → f.status ≠ .streamNoRoom) → recordBytes y st = .ok bytes → ∀ t u, run bytes = .ok t →
        storeOnce t p q (fld d.body 0 48) (ids.flatMap (toLe 4)) = .ok u →
        exec (.streamFork q) s = .next (setResult (setCmd (ok u) q fun k =>
          { k with streams := id :: ids, undo := snapshot y ids, outs := [(fld d.body 0 48, 4 * ids.length)] }) q
          ⟨.completed, ids.headD 0, 0, ids.length⟩)))
  ∧ (∀ (s : State) (id : Nat) (st : Stream), streamOf s id = some st →
      ∃ t, exec (.streamTransitDone id) s = .next t ∧ streamOf t id = some { st with transit := false }
        ∧ (∀ j, j ≠ id → streamOf t j = streamOf s j) ∧ t = { s with streams := t.streams })

/-- What the effects of a park and a resume do (Table 10-2): a RESIDENT stream whose state is defined becomes PARKED in its claimed frames,
in transit; a PARKED or IDLE one becomes RESIDENT, one that has been lost with restart only (R236); any other gets STREAM_BAD_STATE. A
boundary move (R249) that its stream's state does not allow changes nothing but its reservation; an accepted retire completes, and one of a
stream that is RETIRED already fails. What last_status shows is the model's reading (DEDUCED, log entry 43). -/
def Obligations.StreamStatesChange : Prop :=
  (∀ (s : State) (q : Nat) (c : Cmd) (st : Stream),
      let id := hStreamId c.hdr
      let p := (queueOf s q).cfg.part
      streamOf s id = some st → q < s.queues.length →
      (parkable st = true → ∀ fs y, claimImage s p q c.chargeLoam c.resFrames (recordsOf s st) = (some fs, y) →
        streamOf y id = some st →
        (∃ u, streamOf (effectStreamPark s q c) id = some u ∧ u.st = .parked ∧ u.image = fs ∧ u.transit = true ∧ u.lastStatus = 0)
        ∧ (queueOf (effectStreamPark s q c) q).result = some ⟨.completed, 0, 0, 1⟩)
      ∧ (parkable st = false → effectStreamPark s q c = setResult s q (failResult (failAt .streamBadState 0 0) 0))
      ∧ (∀ y, resumable st (bitOf c.body 0) = true → toResident (if st.st = .parked then keepImage s q st else s) id = (none, y) →
        (∃ u, streamOf (effectStreamResume s q c) id = some u ∧ u.st = .resident ∧ u.lastStatus = 0)
        ∧ (queueOf (effectStreamResume s q c) q).result = some ⟨.completed, 0, 0, 1⟩)
      ∧ (resumable st (bitOf c.body 0) = false → effectStreamResume s q c = setResult s q (failResult (failAt .streamBadState 0 0) 0)))
  ∧ (∀ (s : State) (p q : Nat) (m : BMove),
      let refused := (Status.streamBadState, dropReservation s p q m.units m.frames)
      (streamOf s m.id = none → boundaryMove s p q m = refused)
      ∧ (∀ st, streamOf s m.id = some st →
        (m.op = 1 → parkable st = false → boundaryMove s p q m = refused)
        ∧ (m.op = 2 → st.st ≠ .parked → boundaryMove s p q m = refused)
        ∧ (m.op = 3 → retirable st = false → boundaryMove s p q m = refused)
        ∧ (m.op = 3 → retirable st = true → (boundaryMove s p q m).1 = .completed)
        ∧ (m.op = 1 → parkable st = true → ∀ fs y, claimImage s p q m.units m.frames (recordsOf s st) = (some fs, y) →
          (boundaryMove s p q m).1 = .completed)))

/-- STREAM_EXPORT seals its stream's blob and STREAM_IMPORT, past the window fence, opens one (R244, R245, R321), and both commit with what
came of it, a failure leaving its status; PAGE_PIN pins, unpins, or has its pages fetched by the plot mover (R275); NET_MIGRATE seals a blob
and sends it (R457). When a command that waits takes effect is the model's reading (DEDUCED, log entries 65 and 75); the cipher is opaque
(DESIGN CHOICE, log entry 9). -/
def Obligations.StreamsLeaveAndEnter : Prop :=
  ∀ (s x : State) (q : Nat) (d : Cmd), (queueOf x q).cmd = some d →
    let p := (queueOf x q).cfg.part
    let id := hStreamId d.hdr
    (∀ st r w, streamActs s q 0x304 checksStreamExport startExport x → streamOf x id = some st →
      writeBlob x p q id st d.key (blobAddr d.body) (bitOf d.body 137) = (r, w) →
      exec (.streamExport q) s = .next (commitQueue (match r with
        | .error f => setResult w q (failResult f 0)
        | .ok (len, u) => setResult (exported u id (blobAddr d.body) len (bitOf d.body 136)) q ⟨.completed, 0, 0, 1⟩) q))
    ∧ (streamActs s q 0x305 (checksStreamImport q) (fun y r c => startImages (takeKey y r (blobSlot c.body)) r
          [(layoutOf y (queueOf y r).cfg.part (impLayout c.body)).records]) x →
      ∀ y e bs, readsThrough x q p [(blobAddr d.body, blobLen d.body)] y e → e.body = d.body → e.key = d.key → (queueOf y q).state = .run →
      loadBytes y p (blobAddr d.body) (blobLen d.body) = .ok bs →
      (∀ f, openBlob d.key bs = .error f → exec (.streamImport q) s = .next (commitQueue (setResult y q (failResult f 0)) q))
      ∧ (∀ o, openBlob d.key bs = .ok o →
        (∀ f, importOpened y p q e o = .error (.fails f) → exec (.streamImport q) s = .next (commitQueue (setResult y q (failResult f 0)) q))
        ∧ (∀ i t, importOpened y p q e o = .ok (i, t) → (queueOf t q).state = .run →
          exec (.streamImport q) s = .next (commitQueue (setResult t q ⟨.completed, i, 0, 1⟩) q))))
    ∧ (streamActs s q 0x320 checksPagePin noStart x → d.paging = false →
      exec (.pagePin q) s = .next (runMover (effectPagePin x q (queueOf x q) d))
      ∧ (∀ st, streamOf x id = some st → st.st ≠ .retired → ppOp d.body ≠ 2 →
        let es := ppEntries st d.body
        let pin := ppOp d.body != 0
        exec (.pagePin q) s = .next (runMover (setResult (es.foldl (fun y e => pinEntry y id pin e.1 e.2) x) q
          ⟨.completed, 0, 0, (es.filter fun e => e.2.pin != pin).length⟩))))
    ∧ (∀ st k bs t, streamActs s q 0x403 checksNetMigrate (fun y r c => takeKey y r (nmSlot c.body)) x →
      ((queueOf s q).state = .check → lcNetFirst s q = false) → sendStarted x q = false →
      streamOf x id = some st → exportRefused st d.key = none → d.key = some k →
      sealStream (useImage x st) id st k (nmWithKv d.body) = .ok (bs, t) →
      exec (.netMigrate q) s = .next (sendOn t q (nsQp d.body) (some (fld d.body 0 64)) (.write (nsQp d.body) (fld d.body 0 64) (some id) bs) bs))

/-- SWATH_STEP opens its step (R247): dirty is cleared on its streams, the step stands among the partition's open ones, and open_fence is
signalled; one whose tick has passed is abandoned at once where its partition says so, with the error bit (R250). That it waits for the slot
in CHECK is the model's reading (DEDUCED, log entry 75). -/
def Obligations.SwathStepOpens : Prop :=
  ∀ (s : State) (q : Nat) (Q : Queue) (c : Cmd) (ids ms : List Nat) (imgs : List (Nat × List Nat)) (y : State),
    let x := running s q c
    let p := Q.cfg.part
    let b := c.body
    starts s q 0x310 (checksSwathStep q) Q c → anyTransit s (swathNames s q) = false → streamSlotBusy s q = false → lcFirst s q = false →
    (partOf s p).swaths.length < 16 → readList x p b 0 (swStreams b) = .ok (some ids) → readMoves x p b = .ok (some ms) →
    reserveImages x p q (parkImages x ms) = some (imgs, y) →
    let z := ids.foldl (fun u id => setStream u id fun st => { st with dirty := false }) y
    let abandon := (passedEdge x (swTick b)).isSome && (partOf x p).cfg.abandon
    let w : Swath := { q := q, seq := (queueOf x q).seq, streams := ids, moves := dealMoves ms imgs, doneFence := swDoneFence b,
                       doneValue := swDoneValue b, tick := swTick b, pub := swPub b, abandon := abandonEntries b, doneAt := none,
                       overrunAt := passedEdge x (swTick b) }
    let u := signalCore (setPart z p fun P => { P with swaths := P.swaths ++ [w] }) p (swOpenFence b) (swOpenValue b) abandon
    exec (.swathStep q) s = .next (if abandon then settled (abandonSwath u p w) else settled u)

/-! ### The steps by which commands are fetched, worked on and committed (chapters 3, 5 and 17) -/

/-- A queue in FETCH whose tail covers the command at its head reads it (R67): a failed check of stage A leaves its status; a command that
passes them goes to CHECK, or to WAIT until its fence has reached its value (R74); a fence with its error bit set ends it, unless it ignores
errors (R76). That the fetch counts as a use of the ring's plots is the
model's reading (DEDUCED, log entry 20). -/
def Obligations.QueueFetchReads : Prop :=
  ∀ (s : State) (q h n body : Nat) (x : State),
    let Q := queueOf s q
    Q.state = .fetch → Q.cmd = none → ringDiff Q.tail Q.head ≠ 0 → (pciFn s Q.cfg.owner).d3hot = false →
    loadNat s Q.cfg.part (ringAddr Q Q.head) 64 = .ok h → 1 + hUnits h ≤ ringUnits Q → 1 + hUnits h ≤ ringDiff Q.tail Q.head →
    n = 1 + hUnits h → useRing s Q n = (none, x) → loadNat x Q.cfg.part (ringAddr Q Q.head) 64 = .ok h →
    loadBody x Q (n - 1) = .ok body → lookupKey (queueOf x q).seq (queueOf x q).doomed = none → q < x.queues.length →
    ∃ t, exec (.queueFetch q) s = .next t ∧ (queueOf t q).cmd = some (newCmd h body)
      ∧ (∀ f, firstFail (stageA x (queueOf x q) h) = some f → (queueOf t q).result = some (failResult f 0))
      ∧ (firstFail (stageA x (queueOf x q) h) = none →
        (hWait h = false → (queueOf t q).state = .check)
        ∧ (hWait h = true → waitMet (partOf x (queueOf x q).cfg.part) h = false → (queueOf t q).state = .wait)
        ∧ (hWait h = true → waitMet (partOf x (queueOf x q).cfg.part) h = true → (queueOf t q).state = .check
          ∧ ((fenceOf (partOf x (queueOf x q).cfg.part) (hWaitFence h)).err = true → hIgnoreErr h = false →
            (queueOf t q).result = some ⟨.abortUpstream, 0, 0, 0⟩)))
      ∧ (∀ r, r ≠ q → queueOf t r = queueOf x r) ∧ t.mem = x.mem

/-- A status that may commit commits (R78), and then the swaths settle that its signal concerns (R247); the moves of pages, descriptors and
acknowledgements that a command still awaits come first, and of any other command nothing does. What a commit makes of its queue (Table
3-1, R67, R78, R81): the head passes the command, the sequence number rises by one, no command is left, the first failure is captured, and
HALT_ON_ERROR halts the queue on an error. That items gate the commit and no more is the model's reading (DEDUCED, log entry 13), and so is
what comes before (log entries 56, 184 and 185). -/
def Obligations.CommandsCommit : Prop :=
  (∀ (s : State) (q : Nat), let x := beforeCommit s q
      (committable x q = true → exec (.commandCommit q) s = .next (settled (commitBase x q)))
      ∧ (committable x q = false → exec (.commandCommit q) s = .next x)
      ∧ (∀ c, (queueOf s q).cmd = some c → hOpcode c.hdr ≠ 0x200 → hOpcode c.hdr ≠ 0x201 → hOpcode c.hdr ≠ 0x210 →
        movesLeft s q = false → x = s))
  ∧ (∀ (now : Nat) (Q : Queue) (c : Cmd) (r : Result), Q.head < 2 ^ 32 → 1 + hUnits c.hdr ≤ ringUnits Q →
      let R := afterCommit now Q c r
      R.head = (Q.head + 1 + hUnits c.hdr) % 2 ^ 32 ∧ R.seq = (Q.seq + 1) % 2 ^ 64 ∧ R.cmd = none ∧ R.result = none ∧ R.counter = 0
        ∧ R.since = now
        ∧ (Q.cfg.halt = true → isError r.status = true → R.state = .halted)
        ∧ ((Q.cfg.halt = false ∨ isError r.status = false) → ringDiff Q.tail R.head = 0 → R.state = .empty)
        ∧ ((Q.cfg.halt = false ∨ isError r.status = false) → ringDiff Q.tail R.head ≠ 0 → R.state = .fetch)
        ∧ (isError r.status = true → Q.err.count = 0 → R.err = ⟨1, statusCode r.status, Q.seq, hOpcode c.hdr⟩)
        ∧ (isError r.status = false → R.err = Q.err) ∧ R.cfg = Q.cfg ∧ R.tail = Q.tail)

/-- A free taker takes the next item of the command that R405 gives it, once the slew limiter grants the start (R468); one without work goes
idle. An item of the counter is handed out once (R130), and one of the redispatch list is removed from it (R133); the taker then holds the
item, a harrow that one alone, an engine behind those that it holds (R132). That an item moves counters and slots and no data is the model's
reading (DEDUCED, log entry 13). -/
def Obligations.TakersTake : Prop :=
  (∀ (s : State) (harrow : Bool) (i : Nat), takerUp s harrow i = true →
      let x := if harrow then completeHarrow s i else s
      claimedTaker s harrow i = false → mayRequest x harrow i = true →
      (∀ q fb y, chooseWork x harrow i = some (q, fb) → askStart x (unitNo harrow i) (startCurrent x harrow q) = (true, y) →
        exec (.workItemTake harrow i) s = .next (takeItem y harrow i q fb))
      ∧ (∀ q fb y, chooseWork x harrow i = some (q, fb) → askStart x (unitNo harrow i) (startCurrent x harrow q) = (false, y) →
        exec (.workItemTake harrow i) s = .next y)
      ∧ (chooseWork x harrow i = none → takerItems x harrow i = [] → exec (.workItemTake harrow i) s = .next (idleTaker x harrow i)))
  ∧ (∀ (s : State) (i q : Nat), q < s.queues.length →
      (let t := takeSource s i q (.fresh (queueOf s q).counter)
       (queueOf t q).counter = (queueOf s q).counter + 1 ∧ (queueOf t q).redispatch = (queueOf s q).redispatch
        ∧ (queueOf t q).counts.itemsTaken = satAdd 48 (queueOf s q).counts.itemsTaken 1
        ∧ (∀ r, r ≠ q → queueOf t r = queueOf s r) ∧ t.mem = s.mem ∧ t.field = s.field)
      ∧ (∀ x, let t := takeSource s i q (.again x)
        (queueOf t q).redispatch = (queueOf s q).redispatch.erase x ∧ (queueOf t q).counter = (queueOf s q).counter
        ∧ (queueOf t q).counts.redispatched = satAdd 32 (queueOf s q).counts.redispatched 1
        ∧ (∀ r, r ≠ q → queueOf t r = queueOf s r) ∧ t.mem = s.mem ∧ t.field = s.field))
  ∧ (∀ (s : State) (i q : Nat) (fb : Bool) (src : Source) (w : Work),
      let x := sourceItem src
      let it : Item := { q := q, index := x, tiles := tilesOf w.grid x, out := false }
      (itemSource s true i q = some (src, w) → i < s.field.harrows.length → (harrowOf (takeItem s true i q fb) i).items = [it])
      ∧ (itemSource s false i q = some (src, w) → i < s.field.engines.length →
        (engineOf (takeItem s false i q fb) i).items = (engineOf s i).items ++ [it]))

/-- Finished tiles (R135, R136, R168): a tile drains into the intake buffer of its harrow once that has room for all of it, and stays
where it is until then; an engine below the last arrival leaves its partial in scratch and frees the slot; the last becomes the
reducer, which combines the partials once all are ready and writes the tile. Phase 2 of a scan runs for a pair once all its phase-1
items have finished, in its furrow, and its phase-3 items go onto the redispatch list in ascending order (R224). That a tile of a
command that is not split moves counters and slots and no data is the model's reading (DEDUCED, log entry 13). -/
def Obligations.TilesFinish : Prop :=
  (∀ s : State,
      (∀ e it t c w, nextTile s e = some (it, t) → (queueOf s it.q).cmd = some c → c.work = some w → w.grid.split = false →
        let leave (x : State) : State := countWritten (leaveSlots (dropTile
          (setCmd x it.q fun k => { k with work := k.work.map fun v => noteFinished v it t }) e it.q t) e it.q t w.grid.holds) it.q 1
        let room := intakeTile s.now e it.q (tileWords w.grid it.index t) w.grid (harrowOf s (e / 2)).intake
        (drainsTiles c = false → exec (.tileDrain e) s = .next (leave s))
        ∧ (drainsTiles c = true → (∀ xs, room = some xs → exec (.tileDrain e) s = .next (leave (setHarrow s (e / 2) fun H => { H with intake := xs })))
          ∧ (room = none → exec (.tileDrain e) s = .next s)))
      ∧ (∀ e it rest w t a v, (engineOf s e).items = it :: rest → (queueOf s it.q).cmd.bind (·.work) = some w → w.grid.split = true →
        it.tiles.find? (fun t => lookupKey t w.reducers != some e) = some t → drawArrival w it.index t = (a, v) →
        (a + 1 < w.grid.chunks → exec (.splitkArrival e) s = .next (leaveSlots
          (dropTile (setCmd s it.q fun c => { c with work := some (writePartial v it.index t a) }) e it.q t) e it.q t false))
        ∧ (w.grid.chunks ≤ a + 1 → exec (.splitkArrival e) s
          = .next (setCmd s it.q fun c => { c with work := some { v with reducers := insertKey t e v.reducers } })))
      ∧ (∀ q t c w e it rs z, openWorkOf (queueOf s q) = some (c, w) → lookupKey t w.reducers = some e → holdingItem s e q t = some it →
        allReady w t = true →
        let p := (queueOf s q).cfg.part
        let x := setCounts (setCmd s q fun c => { c with work := some { w with reducers := eraseKey t w.reducers } }) q
          fun c => { c with splitReduce := satAdd 48 c.splitReduce 1 }
        let y := countWritten (leaveSlots (dropTile x e q t) e q t false) q 1
        reducedRows s p t c (gatherPartials w t (itemChunk w.grid it.index)) = .ok rs → storeAll y p q (outWrites rs) = .ok z →
        exec (.splitkReduce q t) s = .next (setQueue z q fun Q => { Q with result := Q.result.map (withEvent (outEvent rs)) })))
  ∧ (∀ (now e q words : Nat) (g : Grid) (xs ys : List Drained), (xs.all fun d => decide (d.need ≤ d.gates)) = true →
      intakeTile now e q words g xs = some ys → intakeUsed ys ≤ 16384)
  ∧ (∀ (s : State) (q pair : Nat) (c : Cmd) (w : Work), openWorkOf (queueOf s q) = some (c, w) → w.grid.scan ≠ 0 →
      pair * w.grid.scan < w.grid.items → w.phase2.contains pair = false → pairFinished w pair = true →
      ∃ t, exec (.scanPhase2 q pair) s = .next t
        ∧ (queueOf t q).redispatch = sortBy ((queueOf s q).redispatch ++ rangeFrom (w.grid.items + pair * w.grid.scan) w.grid.scan)
            (fun a b => decide (a ≤ b))
        ∧ (∃ d, (queueOf t q).cmd = some d ∧ d.work = some { w with
          phase2 := w.phase2 ++ [pair]
          scanner := match phase2Furrow s (queueOf s q).cfg.part pair c w with | some f => insertKey pair f w.scanner | none => w.scanner })
        ∧ (∀ r, r ≠ q → queueOf t r = queueOf s r) ∧ t.mem = s.mem)

/-! ### Writes to the device's window (chapters 3, 15, 16, 19, 20, 23) -/

/-- Writes of a function whose window they do not reach change nothing: the device does not run, the link is down, the function is not
enabled (R430, R431). One that arrives outside a Secure stream although the owner's policy demands one is dropped and counted (R496). That a
window is reached by function and offset is the model's (PRESUMED, log entry 89). -/
def Obligations.ShutWindowTakesNoWrite : Prop :=
  (∀ (s : State) (fn : Nat), (s.boot.dev ≠ .run ∨ s.pcie.linkUp = false ∨ (pciFn s fn).enabled = false ∨ 5 ≤ fn) →
      (∀ q size val, exec (.doorbellWrite (.function fn) q size val) s = .next s) ∧ (∀ off size val, exec (.fenceWrite fn off size val) s = .next s)
      ∧ (∀ val, exec (.queAbort fn val) s = .next s) ∧ exec (.queDispatchClear fn) s = .next s ∧ exec (.queErrorsClear fn) s = .next s
      ∧ (∀ n, exec (.drillChannelDisable fn n) s = .next s) ∧ (∀ n, exec (.drillChannelEnable fn n) s = .next s)
      ∧ (∀ n, exec (.drillChannelResume fn n) s = .next s) ∧ (∀ n, exec (.drillClrCounts fn n) s = .next s)
      ∧ exec (.qpCreate fn) s = .next s ∧ (∀ n, exec (.qpDestroy fn n) s = .next s) ∧ (∀ n, exec (.qpReset fn n) s = .next s)
      ∧ (∀ n high, exec (.netLinkAddrWrite fn n high) s = .next s) ∧ (∀ n val, exec (.netPortCfgWrite fn n val) s = .next s)
      ∧ exec (.bootGo fn) s = .next s ∧ (∀ e, exec (.msixUnmask fn e) s = .next s) ∧ (∀ m, exec (.mbxPost fn m) s = .next s)
      ∧ (∀ m, exec (.mbxRelease fn m) s = .next s) ∧ (∀ off size val poisoned, exec (.registerWrite fn off size val poisoned) s = .next s))
  ∧ (∀ (s : State) (fn off size val : Nat) (poisoned : Bool),
      s.boot.dev = .run → s.pcie.linkUp = true → (pciFn s fn).enabled = true → fn < 5 → ideDemanded s fn = true → arrivesSecure s fn = false →
      let t : State := { s with sec := { s.sec with ideDrop := satAdd 32 s.sec.ideDrop 1 } }
      exec (.registerWrite fn off size val poisoned) s = .next t ∧ exec (.fenceWrite fn off size val) s = .next t)

/-- A doorbell write (R66): with S the ring size in 64-byte units and differences of counts modulo 2^32, a new tail that lies more
than S beyond the head, or behind the current tail, is refused and counted in QUE_DB_REJECT, and the tail is left unchanged; any other
becomes the tail, and an EMPTY queue that then has work goes to FETCH. A write of the current tail changes nothing. A write to a queue
that is disabled or another partition's, in a fault halt, or of a wrong size is refused in the same way. -/
def Obligations.DoorbellSetsTail : Prop :=
  ∀ (s : State) (sender : Sender) (q size val p : Nat), (∀ fn, sender = .function fn → canWrite s fn) → senderPart s sender = some p →
    let Q := queueOf s q
    let new := val % 2 ^ 32
    let S := 2 ^ (Q.cfg.ringLog2 - 6)
    let reached := Q.state ≠ .disabled ∧ s.flt.halted = false ∧ Q.cfg.part = p ∧ (size = 4 ∨ (size = 8 ∧ val % 2 ^ 64 < 2 ^ 32))
    let ahead := (new + 2 ^ 32 - Q.head) % 2 ^ 32
    let refused : State := setPart s p fun P => { P with counts := { P.counts with dbReject := satAdd 32 P.counts.dbReject 1 } }
    Q.head < 2 ^ 32 → Q.tail < 2 ^ 32 →
    (reached → ahead ≤ S → (Q.tail + 2 ^ 32 - Q.head) % 2 ^ 32 ≤ ahead → exec (.doorbellWrite sender q size val) s = .next (setQueue s q fun X =>
      { X with tail := new, state := if X.state = .empty ∧ ahead ≠ 0 then .fetch else X.state,
               since := if X.state = .empty ∧ ahead ≠ 0 then s.now else X.since }))
    ∧ (reached → S < ahead → exec (.doorbellWrite sender q size val) s = .next refused)
    ∧ (reached → ahead < (Q.tail + 2 ^ 32 - Q.head) % 2 ^ 32 → exec (.doorbellWrite sender q size val) s = .next refused)
    ∧ (reached → new = Q.tail → ahead ≤ S → (Q.state = .empty → ahead = 0) → exec (.doorbellWrite sender q size val) s = .next s)
    ∧ (¬ reached → exec (.doorbellWrite sender q size val) s = .next refused)

/-- A naturally aligned 8-byte write to a fence word signals the fence with its value (R77, R433); one of another size or alignment, or
with bit [63] set, is ignored. -/
def Obligations.FenceWriteSignals : Prop :=
  ∀ (s : State) (fn off size val p : Nat), canWrite s fn → fnPart s fn = some p →
    (size = 8 → off % 8 = 0 → off < 0x8000 → val < 2 ^ 63 →
      exec (.fenceWrite fn off size val) s = .next (settled (signalCore s p (off / 8) val false)))
    ∧ ((size ≠ 8 ∨ off % 8 ≠ 0 ∨ 0x8000 ≤ off ∨ 2 ^ 63 ≤ val % 2 ^ 64) → exec (.fenceWrite fn off size val) s = .next s)

/-- A signal raises its fence to the larger of its value and the new one (R75), never lowers it, sets the error bit for an error
status, and changes no other fence; every waiter whose value has been reached leaves WAIT, with ABORT_UPSTREAM where its fence has the
error bit and it does not ignore errors (R76); no other queue changes. -/
def Obligations.SignalRaisesFence : Prop :=
  ∀ (s : State) (p f v : Nat) (err : Bool), p < s.parts.length →
    let t := signalCore s p f v err
    (fenceOf (partOf t p) f).value = max (fenceOf (partOf s p) f).value v
      ∧ (fenceOf (partOf t p) f).err = ((fenceOf (partOf s p) f).err || err)
      ∧ (∀ r g, (r ≠ p ∨ g ≠ f) → fenceOf (partOf t r) g = fenceOf (partOf s r) g)
      ∧ (∀ q c, (queueOf s q).cmd = some c → (queueOf s q).state = .wait → (queueOf s q).result = none → (queueOf s q).cfg.part = p →
        (waitMet (partOf t p) c.hdr = true → (queueOf t q).state = .check ∧ (queueOf t q).since = s.now
          ∧ (queueOf t q).result = (if (fenceOf (partOf t p) (hWaitFence c.hdr)).err = true ∧ hIgnoreErr c.hdr = false
            then some ⟨.abortUpstream, 0, 0, 0⟩ else none))
        ∧ (waitMet (partOf t p) c.hdr = false → queueOf t q = queueOf s q))
      ∧ (∀ q, (queueOf s q).state ≠ .wait ∨ (queueOf s q).result ≠ none ∨ (queueOf s q).cfg.part ≠ p → queueOf t q = queueOf s q)
      ∧ t.mem = s.mem ∧ t.streams = s.streams

/-- What firmware makes of the trapped writes of the queue registers (R146, R386, R563): an abort of the range, its status and count in
QUE_ABORT_RESULT; the counters, or the error capture, of the queue that QUE_SEL names are cleared. And of DRL_CH_CTRLn, for a function of
the channel's partition (R365, R367, R369, R370): disable drops what is on the channel, enable returns it to IDLE, resume moves a HALTED
channel to IDLE, clr_counts clears its counters. That firmware applies a write in this step is the model's (DESIGN CHOICE, log entry 68). -/
def Obligations.QueueAndChannelWrites : Prop :=
  (∀ (s : State) (fn : Nat), canTrap s fn →
      (∀ q last p, last < 2 ^ 55 → q < 256 → queuePart s q = some p → fnPart s fn = some p → (fnOf s fn).abortFirst ≤ last →
        ∃ t, exec (.queAbort fn (q * 2 ^ 55 + last)) s = .next t
          ∧ (let x := setFn s fn fun F => { F with traps := [], trapAccepted := (F.trapAccepted + 1) % 2 ^ 64 }
            let y := abortRange x q (fnOf s fn).abortFirst last
            t.queues = y.2.2.queues ∧ (fnOf t fn).abortResult = putFld (statusCode y.1) 0 16 + putFld y.2.1 16 32))
      ∧ (seesQueue s fn (fnOf s fn).queSel = true → (fnOf s fn).queSel < s.queues.length →
        (∃ t, exec (.queDispatchClear fn) s = .next t
          ∧ (queueOf t (fnOf s fn).queSel) = { queueOf s (fnOf s fn).queSel with counts := zeroQueueCounts }
          ∧ (∀ r, r ≠ (fnOf s fn).queSel → queueOf t r = queueOf s r) ∧ t.mem = s.mem
          ∧ (fnOf t fn).trapApplied = ((fnOf s fn).trapApplied + 1) % 2 ^ 64)
        ∧ (∃ t, exec (.queErrorsClear fn) s = .next t
          ∧ (queueOf t (fnOf s fn).queSel) = { queueOf s (fnOf s fn).queSel with err := ⟨0, 0, 0, 0⟩ }
          ∧ (∀ r, r ≠ (fnOf s fn).queSel → queueOf t r = queueOf s r) ∧ t.mem = s.mem)))
  ∧ (∀ (s : State) (fn n p : Nat), canTrap s fn → n < 16 → (channelNo s n).part = some p → fnPart s fn = some p → s.drill.length = 16 →
      (∃ t, exec (.drillChannelDisable fn n) s = .next t ∧ (channelNo t n).disable = true
        ∧ ((channelNo s n).disable = false → (channelNo t n).st = .disabled ∧ (channelNo t n).store = [] ∧ (channelNo t n).crc = 0))
      ∧ (∃ t, exec (.drillChannelEnable fn n) s = .next t ∧ (channelNo t n).disable = false
        ∧ (channelNo t n).st = (if (channelNo s n).st = .disabled then .idle else (channelNo s n).st)
        ∧ (∀ k, k ≠ n → channelNo t k = channelNo s k) ∧ t.queues = s.queues ∧ t.mem = s.mem)
      ∧ ((channelNo s n).disable = false → (channelNo s n).st = .halted → ∃ t, exec (.drillChannelResume fn n) s = .next t
        ∧ (channelNo t n).st = .idle ∧ (∀ k, k ≠ n → channelNo t k = channelNo s k) ∧ t.queues = s.queues ∧ t.mem = s.mem)
      ∧ (∃ t, exec (.drillClrCounts fn n) s = .next t ∧ (channelNo t n).counts = noChCounts ∧ (channelNo t n).disable = (channelNo s n).disable
        ∧ (∀ k, k ≠ n → channelNo t k = channelNo s k) ∧ t.queues = s.queues ∧ t.mem = s.mem))

/-- Queue-pair commands (R450): a pair with the staged context under the lowest free number, its result in NET_QP_RESULT; a pair of the
partition that no command names is destroyed; one in ERROR returns to READY with new sequence numbers. The physical function's writes (R447,
R564): the high word applies an address to a link without queue pairs; a legal configuration applies to a port whose links have none, and a
change of mode takes its links down. That firmware applies a write in this step is the model's (DESIGN CHOICE, log entry 68). -/
def Obligations.NetworkWrites : Prop :=
  (∀ (s : State) (fn p n : Nat), canTrap s fn → fnPart s fn = some p → n < 4096 →
      (ctxRefused s p (stagedCtx (fnOf s fn)) = none → lowestFree (s.net.qps.map (·.1)) 4096 = some n →
        ∃ t key, exec (.qpCreate fn) s = .next t ∧ qpOf t n = some (newQp p (stagedCtx (fnOf s fn)) key)
          ∧ (fnOf t fn).qpResult = putFld n 16 12 + putFld key 32 32 ∧ (∀ k, k ≠ n → qpOf t k = qpOf s k) ∧ t.queues = s.queues ∧ t.mem = s.mem)
      ∧ (∀ x, qpOf s n = some x → x.part = p → qpNamed s n = false →
        (∃ t, exec (.qpDestroy fn n) s = .next t ∧ t.net.qps = eraseKey n s.net.qps ∧ (fnOf t fn).qpResult = putFld n 16 12
          ∧ t.queues = s.queues ∧ t.mem = s.mem)
        ∧ (x.st = .error → ∃ t, exec (.qpReset fn n) s = .next t
          ∧ qpOf t n = some { x with st := .ready, tries := 0, sqPsn := fld (stagedCtx (fnOf s fn)) 344 24, rqPsn := fld (stagedCtx (fnOf s fn)) 368 24 }
          ∧ t.queues = s.queues ∧ t.mem = s.mem)))
  ∧ (∀ (s : State), canTrap s 0 → s.net.links.length = 8 → s.net.ports.length = 4 →
      (∀ n high, n < 8 → high < 2 ^ 64 → portEnabled s (n / 2) = true → qpsOn s n = [] →
        ∃ t, exec (.netLinkAddrWrite 0 n high) s = .next t ∧ (linkOf t n).ip = high * 2 ^ 64 + (fnOf s 0).linkAddrLow.getD n 0
          ∧ (fnOf t 0).linkAddrLow.getD n 0 = 0 ∧ (∀ k, k ≠ n → linkOf t k = linkOf s k) ∧ t.queues = s.queues ∧ t.mem = s.mem)
      ∧ (∀ n val, n < 4 → val < 2 ^ 64 → anySet val [(24, 40), (18, 2), (14, 2), (2, 10)] = false → fld val 0 2 ≠ 3 → fld val 12 2 ≠ 3 →
        portEnabled s n = true → qpsOn s (2 * n) = [] → qpsOn s (2 * n + 1) = [] → unlocksMacsec s n val = false →
        ∃ t, exec (.netPortCfgWrite 0 n val) s = .next t ∧ (portOf t n).cfg = val
          ∧ (fld val 0 2 ≠ fld (portOf s n).cfg 0 2 → (linkOf t (2 * n)).up = false ∧ (linkOf t (2 * n + 1)).up = false)
          ∧ t.queues = s.queues ∧ t.mem = s.mem))

/-- The words that hardware serves: go starts a load in IDLE or FAILED (R503), or fails it with boot_fail 7; unmasking a pending entry sends
its message (R441); a post makes a FREE mailbox POSTED while fw_ready is set, and a release a REPLIED one FREE (R388). Firmware brings a
page of the shadow up to date (R377): its words are the registers' values now, its stamp is now, and seq rises by two exactly when a word
changes. That an unmasked message needs Bus Master Enable is the model's (PRESUMED, log entry 73). -/
def Obligations.HardwareRegistersServe : Prop :=
  (∀ (s : State) (fn : Nat), canWrite s fn → s.fns.length = 5 →
      (fn = 0 → (s.boot.st = .idle ∨ s.boot.st = .failed) →
        exec (.bootGo fn) s = .next { s with boot := { s.boot with
          attempts := satAdd 16 s.boot.attempts 1
          st := if fetchRefused s then .failed else .fetch
          fail := if fetchRefused s then 7 else 0 } })
      ∧ (∀ e, e < 64 → bitOf (fnOf s fn).pba e = true → (fnOf s fn).msix.length = 64 → (pciFn s fn).d3hot = false → mayIssue s fn = true →
        ∃ t, exec (.msixUnmask fn e) s = .next t ∧ bitOf (fnOf t fn).pba e = false
          ∧ (pciFn t fn).sent.getD e 0 = (if e < (pciFn s fn).sent.length then (pciFn s fn).sent.getD e 0 + 1 else 0)
          ∧ t.queues = s.queues ∧ t.mem = s.mem)
      ∧ (∀ m, m < 8 → (fnOf s fn).mailboxes.length = 8 → (mbxOf s fn m).state = .free → s.boot.fwReady = true →
        ∃ t, exec (.mbxPost fn m) s = .next t ∧ mbxOf t fn m = { mbxOf s fn m with state := .posted, order := nextPost s }
          ∧ (∀ k, k ≠ m → mbxOf t fn k = mbxOf s fn k) ∧ t.queues = s.queues ∧ t.mem = s.mem)
      ∧ (∀ m, m < 8 → (fnOf s fn).mailboxes.length = 8 → (mbxOf s fn m).state = .replied →
        ∃ t, exec (.mbxRelease fn m) s = .next t ∧ mbxOf t fn m = { mbxOf s fn m with state := .free }
          ∧ (∀ k, k ≠ m → mbxOf t fn k = mbxOf s fn k) ∧ t.queues = s.queues ∧ t.mem = s.mem)
      ∧ (∀ off size val, exec (.registerWrite fn off size val true) s
          = .next { s with pcie := { s.pcie with poisonRx := satAdd 32 s.pcie.poisonRx 1 } })
      ∧ (∀ val, exec (.registerWrite fn 0x098 8 val false) s
          = .next (setFn s fn fun F => { F with event := clearBits F.event (val % 2 ^ 64) })))
  ∧ (∀ (s : State) (fn page key : Nat), fn < 5 → fwServes s = true → shadowKey s fn page = some key →
      ∃ t pg, exec (.shadowPageUpdate fn page) s = .next t ∧ lookupKey key t.shadow = some pg
        ∧ pg.words = pageWords (shadowRegs s key) ∧ pg.stamp = s.now
        ∧ (∀ old, lookupKey key s.shadow = some old → pg.seq = if old.words = pg.words then old.seq else (old.seq + 2) % 2 ^ 64)
        ∧ (∀ k, k ≠ key → lookupKey k t.shadow = lookupKey k s.shadow) ∧ t = { s with shadow := t.shadow })

/-! ### Mailbox requests (chapters 14 to 18, 21, 23 and 24) -/

/-- The reply (R389): the mailbox becomes REPLIED with the status of its request, and its interrupt follows when it asks for it; a request
is answered in its own mailbox only. A request whose checks of R391 fail is replied with the first failure, and nothing else of it takes
effect. While firmware does not serve, a posted request waits (R378, R390). That an event for firmware that does not serve changes nothing
is the model's (DESIGN CHOICE, log entry 12). -/
def Obligations.RequestsAreReplied : Prop :=
  (∀ (s : State) (fn m : Nat) (r : Reply), fn < 5 → s.fns.length = 5 → m < (fnOf s fn).mailboxes.length →
      let t := answer s fn m r
      (mbxOf t fn m).state = .replied ∧ (mbxOf t fn m).lastStatus = statusCode r.status ∧ (mbxOf t fn m).request = (mbxOf s fn m).request
        ∧ (∀ f k, (f ≠ fn ∨ k ≠ m) → mbxOf t f k = mbxOf s f k) ∧ t.queues = s.queues ∧ t.streams = s.streams ∧ t.net = s.net ∧ t.tick = s.tick)
  ∧ (∀ (s : State) (fn m code : Nat) (bs : List Byte) (st : Status) (run : State → Asked → Option Reply × State),
      fn < 5 → m < 8 → fwServes s = true → (mbxOf s fn m).state = .posted → reqCode (mbxOf s fn m) = code → blocked s fn m = false →
      let read := reqBody (taken s fn m) fn (takenMbx s fn m)
      ((read = .ok bs ∨ ((∃ f, read = .error f) ∧ bs = [])) → requestFail (taken s fn m) fn (takenMbx s fn m) bs = some st →
        serve s fn m code run = answer (taken s fn m) fn m (plain st))
      ∧ (∀ f, read = .error f → requestFail (taken s fn m) fn (takenMbx s fn m) [] = none →
        serve s fn m code run = answer (taken s fn m) fn m ⟨f.status, f.a, f.b, []⟩)
      ∧ (read = .ok bs → requestFail (taken s fn m) fn (takenMbx s fn m) bs = none → commandPath code = true → (taken s fn m).flt.halted = true →
        serve s fn m code run = answer (taken s fn m) fn m (plain .faultUnrecovered)))
  ∧ (∀ (s : State) (fn m : Nat), fwServes s = false → (mbxOf s fn m).state ≠ .taken →
      exec (.fwInfo fn m) s = .next s ∧ (∀ x, exec (.fwUpdate fn m x) s = .next s) ∧ exec (.partitionConfig fn m) s = .next s
      ∧ exec (.partitionRemove fn m) s = .next s ∧ exec (.queueEnable fn m) s = .next s ∧ exec (.queueDisable fn m) s = .next s
      ∧ exec (.queueResume fn m) s = .next s ∧ exec (.queueAbort fn m) s = .next s ∧ exec (.layoutSet fn m) s = .next s
      ∧ exec (.streamQuery fn m) s = .next s ∧ exec (.kvPoolSet fn m) s = .next s ∧ exec (.kvQuery fn m) s = .next s
      ∧ exec (.plotMap fn m) s = .next s ∧ exec (.plotUnmap fn m) s = .next s ∧ exec (.plotQuery fn m) s = .next s
      ∧ exec (.windowSet fn m) s = .next s ∧ (∀ x, exec (.hbmRepairMargin fn m x) s = .next s) ∧ exec (.tickConfig fn m) s = .next s
      ∧ exec (.blobKeySet fn m) s = .next s ∧ exec (.pwrConfig fn m) s = .next s ∧ exec (.inject fn m) s = .next s
      ∧ (∀ x, exec (.bistRun fn m x) s = .next s))

/-- QUEUE_ENABLE gives a queue its properties and starts it EMPTY with its counts at 0 (R401); QUEUE_DISABLE ends its commands and leaves
nothing of it (R402); QUEUE_RESUME takes a HALTED queue to FETCH, or to EMPTY when head equals tail; QUEUE_ABORT ends the commands of a
range and reports how many (R392). That a disable's boundary is reached in this step, and LOAD_BAD_SHAPE for an index above 255, are the
model's (log entries 92 and 97). -/
def Obligations.QueueRequests : Prop :=
  (∀ (s : State) (fn m : Nat) (bs : List Byte),
      let a := asking s fn m bs
      let x := taken s fn m
      let q := payFld bs 0 2
      (asked s fn m 0x0020 bs → enableShape x q (queueCfgOf a) = false → (queueCfgOf a).base % 4096 = 0 →
        mappedRead x (queueCfgOf a).part (queueCfgOf a).base (2 ^ (queueCfgOf a).ringLog2) = true →
        exec (.queueEnable fn m) s = .next (answer (setQueue x q fun _ => { noQueue with cfg := queueCfgOf a, state := .empty }) fn m ⟨.completed, 0, 0, []⟩))
      ∧ (asked s fn m 0x0021 bs → q ≤ 255 → exec (.queueDisable fn m) s = .next (answer (disableQueue x q) fn m ⟨.completed, 0, 0, []⟩))
      ∧ (asked s fn m 0x0022 bs → q ≤ 255 → (queueOf x q).state = .halted →
        exec (.queueResume fn m) s = .next (answer (setQueue x q fun Q => { Q with
          state := if ringDiff Q.tail Q.head = 0 then .empty else .fetch, since := s.now }) fn m ⟨.completed, 0, 0, []⟩))
      ∧ (∀ st n t, asked s fn m 0x0023 bs → payFld bs 0 8 ≤ payFld bs 8 8 →
        abortRange x (payFld bs 16 1) (payFld bs 0 8) (payFld bs 8 8) = (st, n, t) →
        exec (.queueAbort fn m) s = .next (answer t fn m ⟨st, 0, 0, toLe 4 n⟩)))
  ∧ (∀ (s : State) (q : Nat), q < s.queues.length → (queueOf s q).state ≠ .disabled → queueOf (disableQueue s q) q = noQueue)

/-- PARTITION_CONFIG puts a configuration that R397 accepts into effect (R398) and ends bring-up test mode (R577); PARTITION_REMOVE leaves
an unconfigured partition (R400). A configuration that claims a resource of a configured partition is refused (R397.3). What else a
configuration clears, and the bounds of quotas, are the model's readings (DEDUCED, log entries 100 to 102). -/
def Obligations.PartitionRequests : Prop :=
  (∀ (s : State) (fn m : Nat) (bs : List Byte),
      let x := taken s fn m
      let p := payFld bs 0 1
      (asked s fn m 0x0010 bs → cfgRefusal x p (cfgOf bs) bs = none →
        exec (.partitionConfig fn m) s = .next (answer (partitionConfigured x p (cfgOf bs) bs) fn m ⟨.completed, 0, 0, []⟩)
          ∧ (partitionConfigured x p (cfgOf bs) bs).boot.testMode = false
          ∧ (p < x.parts.length → (partOf (partitionConfigured x p (cfgOf bs) bs) p).configured = true
            ∧ (partOf (partitionConfigured x p (cfgOf bs) bs) p).cfg = cfgOf bs))
      ∧ (asked s fn m 0x0011 bs → p ≤ 3 → (partOf x p).configured = true →
        exec (.partitionRemove fn m) s = .next (answer (partitionRemoved x p) fn m ⟨.completed, 0, 0, []⟩)
          ∧ partOf (partitionRemoved x p) p = noPartition))
  ∧ (∀ (s : State) (p r : Nat) (bs : List Byte), cfgRefusal s p (cfgOf bs) bs = none → r < s.parts.length → (partOf s r).configured = true →
      cfgMeets (cfgOf bs) (partOf s r).cfg = false)

/-- PLOT_MAP maps and charges its whole run, its frames written to zero (R309); PLOT_UNMAP takes its place behind the moves that have
reached its plots, and unmaps the run when they have ended, at once where there are none (R313, R569); PLOT_QUERY replies the entries
(R570); WINDOW_SET sets or removes a window (R571). Which frames and anchors are taken, and that the request stays TAKEN until its
last plot is unmapped, are the model's (log entries 16, 36 and 107). -/
def Obligations.PlotRequests : Prop :=
  ∀ (s : State) (fn m : Nat) (bs : List Byte),
    let a := asking s fn m bs
    let x := taken s fn m
    let va := payFld bs 0 8
    let n := payFld bs 8 4
    let lo := va / plotBytes
    (asked s fn m 0x0050 bs → mapRefusal x a.part fn bs = none →
      exec (.plotMap fn m) s = .next (answer (plotsMapped x a.part fn bs) fn m ⟨.completed, 0, 0, []⟩))
    ∧ (asked s fn m 0x0051 bs → runRefusal va n = none → (mbxOf x fn m).begun = false →
      plotsOk (partOf x a.part) lo (lo + n - 1) (fun pl => match pl.home with | .window _ => false | _ => true) = true →
      plotsOk (partOf x a.part) lo (lo + n - 1) (fun _ => true) = true →
      let run := ((partOf x a.part).plots.filter fun e => decide (lo ≤ e.1) && decide (e.1 < lo + n)).map (·.1)
      let y := runMover (run.foldl (queueUnmap a.part fn m) x)
      (unmapsLeft y fn m = false → exec (.plotUnmap fn m) s = .next (answer y fn m ⟨.completed, 0, 0, []⟩))
      ∧ (unmapsLeft y fn m = true → exec (.plotUnmap fn m) s = .next (setMbx y fn m fun z => { z with begun := true }))
      ∧ (x.mem.moves = [] → a.part < x.parts.length → unmapsLeft y fn m = false ∧ ∀ k ∈ run, plotOf y a.part k = none))
    ∧ (asked s fn m 0x0052 bs → runRefusal va n = none → n ≤ a.room / 16 →
      exec (.plotQuery fn m) s = .next (answer x fn m
        ⟨.completed, 0, 0, (rangeFrom lo n).flatMap fun k => toLe 16 (plotBits (plotOf x a.part k))⟩))
    ∧ (asked s fn m 0x0053 bs → payFld bs 0 1 ≤ 7 → windowBusy x a.part (payFld bs 0 1) = false →
      (wsPositions bs = 0 →
        exec (.windowSet fn m) s = .next (answer (windowRemoved x a.part (payFld bs 0 1)) fn m ⟨.completed, 0, 0, []⟩))
      ∧ (wsPositions bs ≠ 0 → rangeRefusal (wsBase bs) (wsPositions bs * wsPlots bs) = none →
        windowRefusal (windowRemoved x a.part (payFld bs 0 1)) a.part bs = none →
        exec (.windowSet fn m) s = .next (answer (windowMade (windowRemoved x a.part (payFld bs 0 1)) a.part (payFld bs 0 1) bs) fn m
          ⟨.completed, 0, 0, []⟩)))

/-- LAYOUT_SET sets or clears a layout that no stream uses (R231, R572); STREAM_QUERY replies descriptors (R573); KV_POOL_SET creates a pool
in its frames (R256, R574); KV_QUERY replies page records, a root or directory entries (R575). Which frames a pool takes, kv_root, the roots
of a pool that goes and a free page's record are the model's (log entries 16, 59, 105, 106). -/
def Obligations.StreamRequests : Prop :=
  ∀ (s : State) (fn m : Nat) (bs : List Byte),
    let a := asking s fn m bs
    let x := taken s fn m
    let p := a.part
    let rs := (List.range (payFld bs 1 1)).map fun i => recordOfEntry (layoutEntry bs i)
    (asked s fn m 0x0030 bs → payFld bs 0 1 ≤ 63 → payFld bs 1 1 ≤ 64 → rs.all recordOk = true → layoutUsed x p (payFld bs 0 1) = false →
      exec (.layoutSet fn m) s = .next (answer (setPart x p fun P => { P with
        layouts := if payFld bs 1 1 = 0 then eraseKey (payFld bs 0 1) P.layouts
          else insertKey (payFld bs 0 1) { model := payFld bs 4 4, records := rs } P.layouts }) fn m ⟨.completed, 0, 0, []⟩))
    ∧ (asked s fn m 0x0031 bs → payFld bs 4 4 ≠ 0 → payFld bs 4 4 ≤ min 1024 (a.room / 64) →
      exec (.streamQuery fn m) s = .next (answer x fn m
        ⟨.completed, 0, 0, (rangeFrom (payFld bs 0 4) (payFld bs 4 4)).flatMap fun id => toLe 64 (streamBits x (streamOf x id))⟩))
    ∧ (asked s fn m 0x0040 bs → payFld bs 0 1 ≤ 7 → poolInRange (poolShape bs) = true →
      (∀ old, poolOf x p (payFld bs 0 1) = some old → old.recs = []) →
      let y := poolReleased x p (payFld bs 0 1)
      let u := poolUnits (poolShape bs)
      let fl := freeLoam y (ceilDiv u.1 16) (partSlices y (partOf y p))
      let fs := freeSub y p (ceilDiv u.2 16)
      u.1 ≤ loamLeft (partOf y p) → fl.length = ceilDiv u.1 16 → u.2 ≤ subLeft (partOf y p) → fs.length = ceilDiv u.2 16 →
      exec (.kvPoolSet fn m) s = .next (answer (setPart (charge y p u.1 u.2) p fun P => { P with
        pools := insertKey (payFld bs 0 1) { poolShape bs with loamFrames := fl, subFrames := fs, counts := poolCounts x p (payFld bs 0 1) } P.pools })
        fn m ⟨.completed, 0, 0, []⟩))
    ∧ (asked s fn m 0x0041 bs → payFld bs 12 2 ≠ 0 →
      (∀ K, payFld bs 0 1 = 0 → payFld bs 1 1 ≤ 7 → payFld bs 12 2 ≤ a.room / 32 → poolOf x p (payFld bs 1 1) = some K →
        payFld bs 4 4 + payFld bs 12 2 ≤ K.pages →
        exec (.kvQuery fn m) s = .next (answer (pageRecords K (rangeFrom (payFld bs 4 4) (payFld bs 12 2)) x).2 fn m
          ⟨.completed, 0, 0, (pageRecords K (rangeFrom (payFld bs 4 4) (payFld bs 12 2)) x).1⟩))
      ∧ (payFld bs 0 1 = 1 → payFld bs 12 2 = 1 → 1088 ≤ a.room →
        exec (.kvQuery fn m) s = .next (answer x fn m ⟨.completed, 0, 0, rootBytes (streamOf x (payFld bs 8 4))⟩))
      ∧ (payFld bs 0 1 = 2 → payFld bs 2 2 ≤ 63 → payFld bs 12 2 ≤ a.room / 4 → payFld bs 4 4 + payFld bs 12 2 ≤ 4096 →
        exec (.kvQuery fn m) s = .next (answer x fn m ⟨.completed, 0, 0, (rangeFrom (payFld bs 4 4) (payFld bs 12 2)).flatMap
          fun i => toLe 4 (dirBits (streamOf x (payFld bs 8 4)) (payFld bs 2 2) i)⟩)))

/-- TICK_CONFIG starts the tick unit in ACQUIRE, or turns it OFF (R415); BLOB_KEY_SET clears, unwraps or generates a key (R495); PWR_CONFIG
takes effect with the next interval (R462); HBM_REPAIR_MARGIN replies what it finds and records its repairs (R350, R351). The order of
margining's verdicts is the model's reading (DEDUCED, log entry 121); key wrap is opaque (DESIGN CHOICE, log entry 9). -/
def Obligations.DeviceRequests : Prop :=
  ∀ (s : State) (fn m : Nat) (bs : List Byte),
    let a := asking s fn m bs
    let x := taken s fn m
    (asked s fn m 0x0070 bs → tickBadShape x bs = false → (payFld bs 0 1 = 2 → portEnabled x (payFld bs 2 1) = true) →
      exec (.tickConfig fn m) s = .next (answer (tickConfigured x bs) fn m ⟨.completed, 0, 0, []⟩)
        ∧ (tickConfigured x bs).tick.st = (if payFld bs 0 1 = 0 then .off else .acquire)
        ∧ (tickConfigured x bs).tick.source = payFld bs 0 1 ∧ (tickConfigured x bs).tick.pnom = payFld bs 4 4)
    ∧ (asked s fn m 0x0080 bs → payFld bs 0 1 ≤ 15 →
      (payFld bs 1 1 = 0 → exec (.blobKeySet fn m) s = .next (answer (setPart x a.part fun P => { P with
        blobKeys := eraseKey (payFld bs 0 1) P.blobKeys }) fn m ⟨.completed, 0, 0, []⟩))
      ∧ (∀ w, payFld bs 1 1 = 1 → (partOf x a.part).wrapKey = some w →
        exec (.blobKeySet fn m) s = .next (match Config.keyUnwrap w ((bs.drop 8).take 40) with
          | some key => answer (setBlobKey x a.part (payFld bs 0 1) ⟨key, 1⟩) fn m ⟨.completed, 0, 0, []⟩
          | none => answer x fn m (plain .secBlobAuth)))
      ∧ (payFld bs 1 1 = 2 → exec (.blobKeySet fn m) s = .next (answer
        (setBlobKey (takeFree x 1).2 a.part (payFld bs 0 1) ⟨Config.freeKey (takeFree x 1).1, 2⟩) fn m ⟨.completed, 0, 0, []⟩)))
    ∧ (asked s fn m 0x0090 bs →
      let c := pwrCfgOf bs
      280 ≤ c.pl1 → c.pl1 ≤ 520 → 280 ≤ c.pl100 → c.pl100 ≤ 450 → 60 ≤ c.target → c.target ≤ 95 → c.pl100 ≤ c.pl1 →
      exec (.pwrConfig fn m) s = .next (answer (setPwr x fun P => { P with next := some c }) fn m ⟨.completed, 0, 0, []⟩))
    ∧ (∀ f, asked s fn m 0x0060 bs → marginRefusal x bs = none → f.lost = false →
      let h := payFld bs 0 2
      let n := ((roundsRun (payFld bs 2 1) f.rounds).map (·.2)).foldl (· + ·) 0
      let hard := payFld bs 3 1 == 1
      exec (.hbmRepairMargin fn m f) s = .next (answer
        { zeroChannel x h with repairs := addRepairs x.repairs h (if hard then n else 0) (if hard then 0 else n) } fn m
        ⟨.completed, 0, 0, marginReply bs f⟩))

/-- FW_INFO replies the running image (R513); FW_UPDATE of an image that passes its checks begins an update and stays TAKEN, and the update
goes through its stages (R510, R511): the other requests finish, the banks switch and measurement 5 shows the new image, the shadow is
rebuilt and the request replied. When handoff is set is the model's reading (DEDUCED, log entry 130); hashes are opaque (DESIGN CHOICE, log
entry 9). -/
def Obligations.FirmwareRequests : Prop :=
  ∀ (s : State) (fn m : Nat) (bs : List Byte),
    let x := taken s fn m
    (asked s fn m 0x0001 bs → exec (.fwInfo fn m) s = .next (answer x fn m ⟨.completed, 0, 0, fwInfoBody x⟩))
    ∧ (∀ i, asked s fn m 0x0002 bs → updatingBox x fn m = false → updateBadShape x bs = false → mayIssue x fn = true →
      updateSigned x (payFld bs 8 4) i = true → handoffFits x i = true →
      ∃ t, exec (.fwUpdate fn m (.image i)) s = .next t ∧ t.boot.handoff = true ∧ (mbxOf t fn m).state = .taken
        ∧ t.boot.update = some { fn := fn, box := m, image := i, old := x.boot.image.getD i, stage := .quiescing })
    ∧ (∀ u, s.boot.update = some u → s.boot.fwAlive = true →
      (u.stage = .quiescing → othersTaken s = false →
        exec .updateQuiesced s = .next { s with boot := { s.boot with update := some { u with stage := .saved } } })
      ∧ (u.stage = .saved → ∃ t, exec .updateSwitch s = .next t ∧ t.boot.bank = 1 - s.boot.bank ∧ t.boot.image = some u.image
        ∧ t.boot.update = some { u with stage := .switched } ∧ t.boot.chain = Config.sha384 (s.boot.chain ++ u.image.head.digest ++ toLe 4 u.image.head.svn))
      ∧ (u.stage = .switched → ∃ t, exec .updateRestored s = .next t ∧ t.boot.handoff = false ∧ t.boot.update = none
        ∧ t.boot.updates = s.boot.updates + 1))

/-- INJECT arms a point in a slot, at once where no delay is asked, or disarms it (R529); after its delay a point arms; BIST_RUN reports or
pauses the periodic slices and begins a full test, for which its request stays TAKEN (R527). The order of the counters in a report, when a
full test ends, and what fires at once are the model's (log entries 83, 84, 112 and 120). -/
def Obligations.TestRequests : Prop :=
  ∀ (s : State) (fn m : Nat) (bs : List Byte),
    let x := taken s fn m
    let p := payFld bs 0 2
    let mode := payFld bs 2 1
    let t := payFld bs 4 2
    let cleared := setFlt x fun F => { F with inj := F.inj.filter fun e => !sameTarget p t e }
    (asked s fn m 0x00A0 bs → 0 < p → p ≤ 0x1F → targetInRange p t = true → targetEnabled x p t = true →
      (testModePoint p = true → x.boot.testMode = true) →
      (mode = 0 → exec (.inject fn m) s = .next (answer cleared fn m ⟨.completed, 0, 0, []⟩))
      ∧ (∀ slot, 1 ≤ mode → mode ≤ 3 → (mode = 2 → payFld bs 6 2 ≠ 0) → lowestFree (cleared.flt.inj.map (·.1)) 16 = some slot →
        let i : Inj := { point := p, mode := mode, target := t, count := payFld bs 6 2, due := x.now + payFld bs 8 8, armed := false }
        let y := setFlt cleared fun F => { F with inj := insertKey slot i F.inj }
        exec (.inject fn m) s = .next (answer (if payFld bs 8 8 = 0 then armSlot y slot i else y) fn m ⟨.completed, 0, 0, []⟩)))
    ∧ (∀ slot i, lookupKey slot s.flt.inj = some i → powered s = true → i.armed = false → i.due ≤ s.now →
      exec (.injectArm slot) s = .next (fireAtOnce (setFlt s fun F => { F with inj := insertKey slot { i with armed := true } F.inj }) i))
    ∧ (∀ failing, asked s fn m 0x00A1 bs →
      (payFld bs 0 1 = 0 → exec (.bistRun fn m failing) s = .next (answer x fn m ⟨.completed, 0, 0, bistReport x⟩))
      ∧ (payFld bs 0 1 = 1 → fullField x = true → exec (.bistRun fn m failing) s
        = .next (answer (setBist x fun b => { b with paused := true }) fn m ⟨.completed, 0, 0, []⟩))
      ∧ (payFld bs 0 1 = 2 → fullField x = true → exec (.bistRun fn m failing) s
        = .next (answer (setBist x fun b => { b with paused := false }) fn m ⟨.completed, 0, 0, []⟩))
      ∧ ((payFld bs 0 1 = 3 ∨ payFld bs 0 1 = 4) → (mbxOf x fn m).begun = false → anyConfigured x = false → x.flt.bist.full = false →
        exec (.bistRun fn m failing) s = .next (setMbx (setBist x fun b => { b with full := true }) fn m fun y => { y with begun := true }))
      ∧ (payFld bs 0 1 = 5 → anyConfigured x = false → mayIssue x fn = true →
        let report := memRead x.mem.host (payFld bs 8 8) 5139
        exec (.bistRun fn m failing) s = .next (if reportValid x report = true then answer (applyReport x report) fn m ⟨.completed, 0, 0, []⟩
          else answer x fn m (plain .secSignature))))

/-! ### Ticks (chapter 18) -/

/-- A candidate in ACQUIRE is a tick whenever it arrives (R419); in TRACK or HOLDOVER one within a quarter of the period of the next
tick is that tick, for PTP under its own number (R416). The change of the tracked period is at most slew parts per million, and it stays
within an eighth of P_nom (R416). That an acceptance in ACQUIRE leaves no deviation, and that the first candidate of PTP after TICK_CONFIG
needs a number above the last tick's too, are the model's (DEDUCED, log entries 51 and 53). -/
def Obligations.CandidatesTick : Prop :=
  (∀ (s : State),
    let u := s.tick
    let last := lastTick u
    let waits := u.st = .track ∨ u.st = .holdover
    (u.source = 1 → s.flt.inj = [] →
      (u.st = .acquire → exec (.syncInEdge (!u.falling)) s = .next (anchorEdge s (if u.fresh then u.first else last + 1) s.now))
      ∧ (waits → inWindow u s.now = true → exec (.syncInEdge (!u.falling)) s = .next (acceptEdge s (last + 1) s.now))
      ∧ exec (.syncInEdge u.falling) s = .next s)
    ∧ (∀ k, u.source = 2 → (portOf s u.port).sync = true → atBoundary s u.port k = true →
      (u.st = .acquire → last < k → exec (.ptpBoundary u.port k) s = .next (anchorEdge s k s.now))
      ∧ (waits → inWindow u s.now = true → k = last + 1 → exec (.ptpBoundary u.port k) s = .next (acceptEdge s k s.now)))
    ∧ (u.source = 3 → u.localNext ≤ s.now →
      let x : State := { s with tick := { u with localNext := u.localNext + max 1 u.pnom } }
      (u.st = .acquire → exec .localTick s = .next (anchorEdge x (if u.fresh then u.first else last + 1) u.localNext))
      ∧ (waits → inWindow u u.localNext = true → exec .localTick s = .next (acceptEdge x (last + 1) u.localNext)))
    ∧ (inWindow u s.now = true ↔ u.next ≤ s.now + u.pnom / 4 ∧ s.now ≤ u.next + u.pnom / 4))
  ∧ (∀ (u : Tick) (d : Int), u.pnom - u.pnom / 8 ≤ u.pn → u.pn ≤ u.pnom + u.pnom / 8 →
    let n := nextPeriod u d
    u.pnom - u.pnom / 8 ≤ n ∧ n ≤ u.pnom + u.pnom / 8 ∧ n ≤ u.pn + u.slew * u.pnom / 1000000 ∧ u.pn ≤ n + u.slew * u.pnom / 1000000)

/-- Any other candidate is refused and counted, and moves nothing (R417): one outside the window of the next tick, of PTP one with
another number, and a second one in a window in which an edge was accepted, which lies before the next window. In OFF, where no source is
configured, nothing is counted, and transitions of SYNC_IN are ignored. -/
def Obligations.OtherCandidatesAreRefused : Prop :=
  ∀ (s : State),
    let u := s.tick
    let last := lastTick u
    let refused (x : State) : State := { x with tick := { x.tick with refused := satAdd 32 x.tick.refused 1 } }
    let waits := u.st = .track ∨ u.st = .holdover
    (u.source = 1 → s.flt.inj = [] → waits → inWindow u s.now = false → exec (.syncInEdge (!u.falling)) s = .next (refused s))
    ∧ (∀ k, u.source = 2 → (portOf s u.port).sync = true →
      (atBoundary s u.port k = false → exec (.ptpBoundary u.port k) s = .next s)
      ∧ (atBoundary s u.port k = true →
        (u.st = .acquire → k ≤ last → exec (.ptpBoundary u.port k) s = .next (refused s))
        ∧ (waits → (inWindow u s.now = false ∨ k ≠ last + 1) → exec (.ptpBoundary u.port k) s = .next (refused s))))
    ∧ (u.source = 3 → u.localNext ≤ s.now → waits → inWindow u u.localNext = false →
      exec .localTick s = .next (refused { s with tick := { u with localNext := u.localNext + max 1 u.pnom } }))
    ∧ (∀ n t later, 0 < u.pnom → u.pnom - u.pnom / 8 ≤ u.pn → u.pn ≤ u.pnom + u.pnom / 8 → inWindow u t = true → t ≤ later →
      later ≤ u.next + u.pnom / 4 → inWindow (acceptEdge s n t).tick later = false)
    ∧ (∀ rising port k, u.st = .off → u.source = 0 → exec (.syncInEdge rising) s = .next s ∧ exec (.ptpBoundary port k) s = .next s
      ∧ exec .localTick s = .next s)

/-- A window that closes empty, at a quarter of the period past the next tick, gives a synthesised tick at that time while fewer than
holdover have been synthesised in a row, which latches as an edge's does and leaves the period unchanged; else the source is lost: no tick
is made, the unit enters ACQUIRE, and the loss is shown and counted. An edge accepted in HOLDOVER returns the unit to TRACK (R418). -/
def Obligations.WindowsClose : Prop :=
  ∀ s : State, (s.tick.st = .track ∨ s.tick.st = .holdover) →
    let u := s.tick
    let close := u.next + u.pnom / 4
    let n := lastTick u + 1
    (close ≤ s.now → u.misses < u.holdover → ∃ t, exec .tickWindowClose s = .next t
      ∧ t = latchTick { s with tick := { u with st := .holdover, next := u.next + u.pn, misses := u.misses + 1, synth := satAdd 32 u.synth 1 } } n close
      ∧ t.tick = { u with st := .holdover, next := u.next + u.pn, misses := u.misses + 1, synth := satAdd 32 u.synth 1
                          latches := (n, close) :: u.latches })
    ∧ (close ≤ s.now → u.holdover ≤ u.misses → ∃ t, exec .tickWindowClose s = .next t ∧ t.tick.st = .acquire ∧ t.tick.wasLost = true
      ∧ t.tick.losses = satAdd 16 u.losses 1 ∧ t.tick.latches = u.latches ∧ t = { s with tick := t.tick })
    ∧ (∀ k t, (acceptEdge s k t).tick.st = .track ∧ (acceptEdge s k t).tick.misses = 0 ∧ (acceptEdge s k t).tick.latches = (k, t) :: u.latches
      ∧ ∃ v : Tick, acceptEdge s k t = latchTick { s with tick := v } k t)

/-! ### The network (chapter 20) -/

/-- NET_SEND passes the window fence, and its message leaves with the bytes that it reads (R455); NET_RECV posts its buffer; NET_BARRIER
sends its tokens, takes those that are held for it, and stands until all have come (R456); an LC
queue's NET command in CHECK comes before a BE queue's (Table 17-5). What the peer answers (R451, R455): an
acknowledgement completes the oldest message of its queue pair; a NAK, and a timeout after the last retry, put the pair into ERROR; a
timeout before it counts a retransmission. When a message's bytes are counted is the model's reading (DEDUCED, log entry 63). -/
def Obligations.NetCommandsRun : Prop :=
  (∀ (s : State) (q : Nat) (Q : Queue) (c : Cmd),
      let x := running s q c
      let p := Q.cfg.part
      let b := c.body
      (lcNetFirst s q = false → starts s q 0x400 checksNetSend Q c →
        exec (.netSend q) s = .next (gated x q p [(fld b 0 48, nsLen b)] fun st => computeNetSend st q))
      ∧ (∀ d bs, Q = queueOf s q → Q.cmd = some d → loadBytes s p (fld d.body 0 48) (nsLen d.body) = .ok bs →
        computeNetSend s q
          = sendOn s q (nsQp d.body) (if nsOp d.body = 0 then none else some (nsRemote d.body)) (sendMessage d.body bs) bs)
      ∧ (lcNetFirst s q = false → starts s q 0x401 checksNetRecv Q c → exec (.netRecv q) s
        = .next (setQp (setCmd x q fun y => { y with outs := [(fld b 0 48, nrLen b)] })
          (nsQp b) fun y => { y with recvs := y.recvs ++ [q] }))
      ∧ (∀ qps, lcNetFirst s q = false → starts s q 0x402 checksNetBarrier Q c → readQps x p b = .ok (some qps) →
        let new : Barrier := { q := q, ident := nbIdent b, epoch := nbEpoch b, qps := qps, sent := s.now, arrived := [], last := s.now, paced := false }
        let mine := (((partOf x p).barrierTokens.filter (tokenFits new)).map (·.qp)).eraseDups
        let got : Barrier := { new with arrived := mine.map fun n => qps.idxOf n, paced := mine.length == qps.length }
        exec (.netBarrier q) s = .next (finishBarrier (setPart (sendTokens x (nbIdent b) (nbEpoch b) qps) p fun P => { P with
          barriers := P.barriers ++ [got], barrierTokens := P.barrierTokens.filter fun t => !tokenFits new t }) p got)))
  ∧ (∀ (s : State) (n : Nat) (x : Qp), qpOf s n = some x → x.st = .ready →
      (∀ q rest c, x.sends = q :: rest → (queueOf s q).cmd = some c → c.ending = none → hOpcode c.hdr ≠ 0x403 →
        q < s.queues.length →
        ∃ t, exec (.ackReceived n) s = .next t ∧ qpOf t n = some { x with sends := rest, tries := 0 }
          ∧ (queueOf t q).result = some ⟨.completed, 0, 0, 1⟩ ∧ (∀ r, r ≠ q → queueOf t r = queueOf s r)
          ∧ (∀ k, k ≠ n → qpOf t k = qpOf s k) ∧ t.mem = s.mem ∧ t.streams = s.streams)
      ∧ exec (.nakReceived n) s = .next (qpError s n .memRemoteRefused)
      ∧ (∀ st, ∃ y, qpOf (qpError s n st) n = some y ∧ y.st = .error ∧ y.cause = st ∧ y.sends = [] ∧ y.recvs = [] ∧ y.ctx = x.ctx)
      ∧ (x.sends ≠ [] → x.tries < ctxRetry x.ctx → exec (.ackTimeout n) s = .next
          (setLink (setQp s n fun y => { y with tries := y.tries + 1 }) (qpLink x) fun l => { l with retransmits := satAdd 32 l.retransmits 1 }))
      ∧ (x.sends ≠ [] → ctxRetry x.ctx ≤ x.tries → exec (.ackTimeout n) s = .next (qpError s n .memFarTimeout)))

/-- Requests from the peer (R452, R455, R456): within the window and under the key a write is placed and acknowledged and a read
answered, and outside it the pair enters ERROR after a NAK; a message consumes a posted receive, and without one gets RNR NAK; a
token that no barrier waits for is held; a SEND with an immediate that is no token is dropped (R449). -/
def Obligations.InboundArrives : Prop :=
  ∀ (s : State) (n : Nat) (x : Qp), qpOf s n = some x → x.st = .ready → (linkOf s (qpLink x)).up = true →
    (linkMacsec s (qpLink x) = false ∨ (linkOf s (qpLink x)).sa.isSome = true) →
    let refused := qpError (sendWire s (.nak n)) n .memRemoteRefused
    (∀ key addr bs,
      (∀ t, windowGrants x key addr bs.length true = true → inboundStore (received s n x bs.length) x.part addr bs = .ok t →
        exec (.rdmaWriteInbound n key addr bs) s = .next (sendWire t (.ack n)))
      ∧ (windowGrants x key addr bs.length true = false → exec (.rdmaWriteInbound n key addr bs) s = .next refused)
      ∧ (windowGrants x key addr bs.length true = true → mappedWrite (received s n x bs.length) x.part addr bs.length = false →
        exec (.rdmaWriteInbound n key addr bs) s
          = .next (qpError (sendWire (received s n x bs.length) (.nak n)) n .memRemoteRefused)))
    ∧ (∀ key addr len,
      (∀ bs, windowGrants x key addr len false = true → inboundLoad s x.part addr len = .ok bs → exec (.rdmaReadInbound n key addr len) s
        = .next (setLink (sendWire (useReads s x.part [(addr, len)]) (.readReply n bs)) (qpLink x) fun l => { l with txBytes := satAdd 48 l.txBytes len }))
      ∧ (windowGrants x key addr len false = false → exec (.rdmaReadInbound n key addr len) s = .next refused))
    ∧ (∀ bs, postedRecvs s x = [] → exec (.sendInbound n bs) s = .next (sendWire s (.rnrNak n)))
    ∧ (∀ bs q rest c t, postedRecvs s x = q :: rest → (queueOf s q).cmd = some c → bs.length ≤ nrLen c.body →
      inboundStore (received s n x bs.length) x.part (fld c.body 0 48) bs = .ok t →
      exec (.sendInbound n bs) s = .next (consumeRecv (sendWire t (.ack n)) n bs.length 0))
    ∧ (∀ bs q rest c, postedRecvs s x = q :: rest → (queueOf s q).cmd = some c → nrLen c.body < bs.length →
      exec (.sendInbound n bs) s = .next refused)
    ∧ (∀ key addr imm bs t, windowGrants x key addr bs.length true = true → postedRecvs s x ≠ [] →
      inboundStore (received s n x bs.length) x.part addr bs = .ok t →
      exec (.writeImmInbound n key addr imm bs) s = .next (consumeRecv (sendWire t (.ack n)) n bs.length imm))
    ∧ (∀ imm epoch, imm / 2 ^ 16 ≠ 0xB000 → exec (.barrierTokenInbound n imm epoch) s = .next (dropPacket s (qpLink x)))
    ∧ (∀ imm epoch, imm / 2 ^ 16 = 0xB000 →
      let ident := imm - 0xB0000000
      let P := partOf s x.part
      let y := sendWire (received s n x 8) (.ack n)
      (∀ b, P.barriers.find? (fun b => (queueOf s b.q).result.isNone && tokenFits b ⟨n, ident, epoch⟩ && !b.arrived.contains (b.qps.idxOf n)) = some b →
        exec (.barrierTokenInbound n imm epoch) s = .next (finishBarrier (setPart y x.part fun X => { X with
          barriers := X.barriers.map fun z => if z.q == b.q then tokenTo s.now n b else z }) x.part (tokenTo s.now n b)))
      ∧ (P.barriers = [] → (∀ e, lookupKey ident P.barrierEpochs = some e → e ≤ epoch) → P.barrierTokens.length < 4096 →
        exec (.barrierTokenInbound n imm epoch) s = .next (setPart y x.part fun X => { X with
          barrierTokens := X.barrierTokens ++ [⟨n, ident, epoch⟩] })))

/-- Links and ports (R447, R449, R451, R453, R454): a link of its port's mode comes up without a secure association; one that goes down puts
its READY queue pairs into ERROR with FAULT_LINK; drops, congestion notifications and failed frames are counted; PFC pauses a port that has
it set; MKA installs an association; sixteen Sync messages within 250 ns synchronise a port. How far PFC reaches is the model's reading
(DEDUCED, log entry 151). -/
def Obligations.LinksChange : Prop :=
  ∀ (s : State) (n : Nat),
    (linkInMode s n = true → (linkOf s n).up = false → s.net.links.length = 8 →
      ∃ t, exec (.ethLinkUp n) s = .next t ∧ (linkOf t n).up = true ∧ (linkOf t n).sa = none ∧ (∀ k, k ≠ n → linkOf t k = linkOf s k)
        ∧ t.net.qps = s.net.qps ∧ t.queues = s.queues ∧ t.mem = s.mem)
    ∧ ((linkOf s n).up = true →
      ((s.net.qps.map (·.1)).Nodup → ∃ t, exec (.ethLinkDown n) s = .next t ∧ (n < s.net.links.length → (linkOf t n).up = false)
        ∧ (∀ k, k ≠ n → linkOf t k = linkOf s k)
        ∧ (∀ i x, qpOf s i = some x → qpLink x = n → x.st = .ready → ∃ y, qpOf t i = some y ∧ y.st = .error ∧ y.cause = .faultLink)
        ∧ (∀ i x, qpOf s i = some x → qpLink x ≠ n → qpOf t i = some x))
      ∧ exec (.unsupportedPacketDrop n) s = .next (setLink s n fun l => { l with rxDrop := satAdd 32 l.rxDrop 1 })
      ∧ exec (.congestionNotification n) s = .next (setLink s n fun l => { l with cnpRx := satAdd 32 l.cnpRx 1 })
      ∧ (linkMacsec s n = true → s.flt.inj = [] →
        exec (.macsecVerifyFail n) s = .next (setLink s n fun l => { l with macsecDrop := satAdd 32 l.macsecDrop 1 }))
      ∧ (∀ sak, linkMacsec s n = true → (linkOf s n).cak.isSome = true →
        exec (.mkaFrame n true sak) s = .next (setLink s n fun l => { l with sa := some sak })))
    ∧ (∀ pause, (bitOf (portOf s n).cfg 20 = true → exec (.priorityFlowControl n pause) s = .next (setPort s n fun P => { P with paused := pause }))
      ∧ (bitOf (portOf s n).cfg 20 = false → exec (.priorityFlowControl n pause) s = .next s))
    ∧ (∀ offset, (linkOf s (2 * n)).up = true → n < s.net.ports.length →
      ∃ t, exec (.ptpSyncMessage n offset) s = .next t ∧ (portOf t n).offset = offset
        ∧ (offset.natAbs ≤ 250 → (portOf t n).good = (portOf s n).good + 1)
        ∧ (250 < offset.natAbs → (portOf t n).good = 0)
        ∧ (1000 < offset.natAbs → (portOf t n).sync = false)
        ∧ (offset.natAbs ≤ 250 → 15 ≤ (portOf s n).good → (portOf t n).sync = true)
        ∧ (250 < offset.natAbs → offset.natAbs ≤ 1000 → (portOf t n).sync = (portOf s n).sync)
        ∧ (∀ k, k ≠ n → portOf t k = portOf s k) ∧ t.net.links = s.net.links ∧ t.net.qps = s.net.qps ∧ t.queues = s.queues ∧ t.mem = s.mem)
    ∧ exec (.announceTimeout n) s = .next (setPort s n fun P => { P with sync := false, good := 0 })

/-! ### Power and temperature (chapter 21) -/

/-- An estimation interval averages its estimate and counts its energy, moves ACLK by no more than one step of 25 MHz, and puts an accepted
PWR_CONFIG into effect (R460, R462 to R464); a window of the slew limiter admits and releases at most 30 A (R467, R468). The mean of a
window that is not full is the model's reading (DEDUCED, log entry 87). -/
def Obligations.PowerIntervals : Prop :=
  ∀ s : State, powered s = true →
    (∀ est, ∃ t, exec (.estimationInterval est) s = .next t ∧ t.pwr.est = est ∧ t.pwr.history = (est :: s.pwr.history).take 50000
      ∧ t.pwr.mean1 = meanOf t.pwr.history 500 ∧ t.pwr.mean100 = meanOf t.pwr.history 50000
      ∧ t.pwr.counts.energy = s.pwr.counts.energy + est ∧ t.pwr.next = none ∧ t.pwr.cfg = s.pwr.next.getD s.pwr.cfg
      ∧ (s.pwr.next = none → t.pwr.aclk = s.pwr.aclk ∨ t.pwr.aclk = s.pwr.aclk + 25 ∨ t.pwr.aclk = s.pwr.aclk - 25)
      ∧ t.queues = s.queues ∧ t.mem = s.mem ∧ t.streams = s.streams ∧ t.net = s.net)
    ∧ (∃ t, exec .slewWindow s = .next t ∧ t.pwr.admitted ≤ 30000 ∧ t.pwr.released ≤ 30000 ∧ t.pwr.cfg = s.pwr.cfg ∧ t.streams = s.streams
      ∧ t.mem = s.mem ∧ t.net = s.net)

/-- The protections (R470, R471, R473 to R475): a droop doubles the period of its furrow and is counted, and its release counts the
stretched cycles; VR_ALERT_N low for 50 ns takes ACLK to the floor until 100 us after its rise; 100 °C holds the device at the floor, and
110 °C trips it. An alert of 20 to 49 ns is left open (DEDUCED, log entry 111). -/
def Obligations.ProtectionsAct : Prop :=
  ∀ s : State, powered s = true →
    (∀ f, f < 96 → lookupKey f s.pwr.droop = none → exec (.droopTrip f) s = .next { s with pwr := { s.pwr with
        droop := insertKey f s.now s.pwr.droop, acted := true
        counts := { s.pwr.counts with droopEvents := satAdd 32 s.pwr.counts.droopEvents 1 } } })
    ∧ (∀ f b, lookupKey f s.pwr.droop = some b → exec (.droopRelease f) s = .next { s with pwr := { s.pwr with
        droop := eraseKey f s.pwr.droop, acted := true
        counts := { s.pwr.counts with droopCycles := satAdd 48 s.pwr.counts.droopCycles ((s.now - b) * s.pwr.aclk / 2000) } } })
    ∧ (∀ ns, s.pwr.vrLow = false → (50 ≤ ns → ∃ t, exec (.vrAlertAssert ns) s = .next t ∧ t.pwr.aclk = 400 ∧ t.pwr.vrLow = true
          ∧ t.pwr.counts.vrAlerts = satAdd 32 s.pwr.counts.vrAlerts 1 ∧ t = { s with pwr := t.pwr })
        ∧ (ns < 20 → exec (.vrAlertAssert ns) s = .next s))
    ∧ (s.pwr.vrLow = true → exec .vrAlertDeassert s = .next { s with pwr := { s.pwr with vrLow := false, vrRise := some s.now } })
    ∧ (∀ b, s.pwr.vrRise = some b →
      (b + 100000 ≤ s.now → exec .vrAlertHoldEnd s = .next (leaveFloor { s with pwr := { s.pwr with vrRise := none, acted := true } }))
      ∧ (s.now < b + 100000 → exec .vrAlertHoldEnd s = .next s))
    ∧ (∀ f k, s.flt.inj = [] →
      (110 ≤ f → ∃ t, exec (.thermalSample f k) s = .next t ∧ t.boot.dev = .tripped ∧ t.pins.thermtrip = true ∧ t.streams = [] ∧ t.mem.phys = []
        ∧ t.pending = s.pending)
      ∧ (f < 110 → (100 ≤ f ∨ 100 ≤ k) → s.pwr.hold = false →
        ∃ t, exec (.thermalSample f k) s = .next t ∧ t.pwr.hold = true ∧ t.pwr.aclk = 400 ∧ t.pwr.tjMax = f ∧ t.pwr.hbmMax = k
          ∧ t.pwr.counts.holds = satAdd 32 s.pwr.counts.holds 1 ∧ t.queues = s.queues ∧ t.mem = s.mem)
      ∧ (f < 100 → k < 100 → s.pwr.hold = false → ∃ t, exec (.thermalSample f k) s = .next t ∧ t.pwr.hold = false ∧ t.pwr.aclk = s.pwr.aclk
          ∧ t.pwr.tjMax = f ∧ t.pwr.hbmMax = k ∧ t.queues = s.queues ∧ t.mem = s.mem)
      ∧ (f ≤ 97 → k ≤ 97 → s.pwr.hold = true → ∃ t, exec (.thermalSample f k) s = .next t ∧ t.pwr.hold = false
          ∧ t.pwr.tjMax = f ∧ t.pwr.hbmMax = k ∧ t.queues = s.queues ∧ t.mem = s.mem))

/-! ### Faults, tests and firmware (chapters 23 and 24) -/

/-- A failure is counted and fenced at once unless another is in handling (R519, R520); its work is recovered when that has settled; its
release logs it and fences the next. A periodic slice claims a target for each column, and a failed test fails its unit (R523 to R525). That
a failure arrives as one event, and when slices fall due, are the model's (log entries 85 and 112). -/
def Obligations.FaultsProceed : Prop :=
  ∀ s : State, powered s = true →
    (∀ u det, (detectorsOf u).contains det = true → unitEnabled s u = true → unitFailed s u = false → s.flt.inj = [] →
      exec (.faultLatch u det) s = .next (detect (countEvent s det) u det false)
      ∧ ((∀ h, u = .channel h → h < s.mem.channels.length) → (∀ n, u ≠ .buffer n) → s.flt.handling = [] →
          unitFailed (latchFailure s u det false) u = true
        ∧ (latchFailure s u det false).flt.newFence = true))
    ∧ (∀ h rest, s.flt.handling = h :: rest →
      (h.settled = false → exec .faultSettleDone s
        = .next (setFlt (recover s h.unit) fun F => { F with handling := { h with settled := true } :: rest }))
      ∧ (h.settled = true → exec .faultRelease s
        = .next (fenceFirst (rehomeUnit (logFault (setFlt s fun F => { F with handling := rest }) h) h.unit))))
    ∧ (s.flt.bist.startupDone = true → s.flt.bist.periodic = true → s.flt.bist.due ≤ s.now →
      let x := setBist s fun b => { b with due := nextSlice s.now }
      (s.flt.bist.paused = true → exec .bistSlice s = .next x)
      ∧ (s.flt.bist.paused = false → s.pwr.aclk < 1400 → exec .bistSlice s
        = .next (setBist x fun b => { b with skipped := satAdd 32 b.skipped 12 }))
      ∧ (s.flt.bist.paused = false → 1400 ≤ s.pwr.aclk → exec .bistSlice s = .next ((List.range 12).foldl claimTarget
          (setBist x fun b => { b with
            skipped := satAdd 32 b.skipped s.flt.bist.claims.length, slices := satAdd 48 b.slices 1, claims := [] }))))
    ∧ (∀ col c, s.flt.bist.claims.find? (·.col == col) = some c → targetIdle s (targetOf col c.target) = true →
      isStorage (targetOf col c.target) = false →
      let x := setBist s fun b => { b with claims := b.claims.filter (·.col != col) }
      exec (.bistTargetTest col true) s = .next x
      ∧ exec (.bistTargetTest col false) s = .next (testFails x (targetUnit (targetOf col c.target))))

/-- A watchdog's expiry clears fw_alive and is counted; the third of a reeve within a second, or a bank whose hash does not hold, fails
firmware (R506 to R509); the reeve's requests are replied FAULT_WATCHDOG; firmware sets fw_alive again once none restarts, and fw_ready with
every shadow page built (R505, R508). When fw_alive is set again is the model's reading (DEDUCED, log entry 129). -/
def Obligations.WatchdogsAct : Prop :=
  ∀ s : State, s.boot.dev = .run → s.boot.st = .running →
    (∀ r ok held, r < 4 → s.flt.inj = [] → s.boot.expired.length = 4 →
      ∃ t, exec (.watchdogExpiry r ok held) s = .next t ∧ t.boot.fwAlive = false
        ∧ t.boot.expired.getD r 0 = satAdd 16 (s.boot.expired.getD r 0) 1
        ∧ (ok = false ∨ 2 ≤ (s.boot.expiries.filter fun e => e.1 == r && decide (s.now < e.2 + 1000000000)).length → t.boot.st = .fwFailed)
        ∧ (ok = true → (s.boot.expiries.filter fun e => e.1 == r && decide (s.now < e.2 + 1000000000)).length < 2 →
          t.boot.st = .running ∧ t.boot.recovering.contains r = true)
        ∧ t.queues = s.queues ∧ t.mem = s.mem ∧ t.streams = s.streams ∧ t.net = s.net)
    ∧ (∀ r finish, s.boot.recovering.contains r = true →
      let done (x : State) : State := setBoot x fun b => { b with
        recovering := b.recovering.filter (· != r), handoff := if (b.recovering.filter (· != r)).isEmpty then false else b.handoff }
      (heldBy s r = [] → exec (.watchdogRecoveryDone r finish) s = .next (done s))
      ∧ (∀ fn m, heldBy s r = [(fn, m)] → ((mbxOf s fn m).begun = false ∨ reqCode (mbxOf s fn m) ≠ 0x0051) →
        exec (.watchdogRecoveryDone r false) s = .next (done (answer (endFull s fn m) fn m ⟨.faultWatchdog, 0, 0, []⟩))))
    ∧ (s.boot.fwAlive = false → s.boot.recovering = [] → exec .fwAliveSet s = .next (drainAll { s with boot := { s.boot with fwAlive := true } }))
    ∧ (s.boot.fwAlive = true → s.boot.fwReady = false → ∃ t, exec .fwReadySet s = .next t ∧ t.boot.fwReady = true ∧ t.queues = s.queues
        ∧ t.mem = s.mem ∧ t.fns = s.fns)

/-! ### Start-up and pins (chapters 25 and 26) -/

/-- PERST# loses everything at any time (R532), and with its release device time starts at 0; a rail fault stops the device (R547); then
come the milestones of Table 25-1: clocks at the floor, random source, management front end, zeroed loam, the link. JTAG (R555): BYPASS and
IDCODE touch the test registers alone; EXTEST and its variants are refused while PERST# is high. Device time before the release, the
identification code and what the boundary captures are the model's (DESIGN CHOICE, log entries 10, 123, 146). -/
def Obligations.StartUpProceeds : Prop :=
  (∀ s : State,
      (s.boot.dev ≠ .held → ∃ t, exec .perstAssert s = .next t ∧ t.boot = { noBoot with dev := .held } ∧ t.mem.phys = [] ∧ t.streams = []
        ∧ t.queues = List.replicate 256 noQueue ∧ t.mem.host = s.mem.host ∧ t.pending = s.pending)
      ∧ (∀ strap, s.boot.dev = .held → exec (.perstRelease strap) s
        = .next { s with boot := { s.boot with dev := .run }, now := 0, mgmt := { s.mgmt with strap := strap % 4 } })
      ∧ (s.boot.dev = .run → ∃ t, exec .railFault s = .next t ∧ t.boot = { noBoot with dev := .railStop } ∧ t.mem.phys = [] ∧ t.streams = [])
      ∧ (s.boot.dev = .run → s.boot.clocks = false → ∃ t, exec .clockLock s = .next t ∧ t.boot = { s.boot with clocks := true } ∧ t.pwr.aclk = 400
        ∧ t = { s with boot := t.boot, pwr := t.pwr })
      ∧ (powered s = true →
        (∀ ok, s.boot.rngDone = false → exec (.randomSourceHealthTestsDone ok) s
          = .next { s with free := (takeFree s 1).2.free, boot := { s.boot with rngDone := true, rngOk := ok }
                           mem := { s.mem with devKey := Config.freeKey (takeFree s 1).1 } })
        ∧ exec .mgmtFrontEndReady s = .next { s with mgmt := { s.mgmt with ready := true } }
        ∧ (s.boot.loamZeroed = false → ∃ t, exec .loamZeroDone s = .next t ∧ t.boot = { s.boot with loamZeroed := true }
          ∧ (∀ a, isSub a = false → memGet t.mem.phys a = 0) ∧ (∀ a, isSub a = true → memGet t.mem.phys a = memGet s.mem.phys a)
          ∧ t.mem.host = s.mem.host ∧ t.streams = s.streams)
        ∧ (∀ speed width flit, s.boot.rngDone = true → s.pcie.linkUp = false → linkShape speed width flit = true →
          ∃ t, exec (.pcieLinkUp speed width flit) s = .next t ∧ t.pcie.linkUp = true ∧ t.pcie.speed = speed ∧ t.pcie.width = width
            ∧ t.pcie.flit = flit ∧ t.pcie.fns = s.pcie.fns ∧ (s.pcie.trained = false → t.pcie.readiness = s.pcie.readiness ++ [0])
            ∧ (s.pcie.trained = true → t.pcie.retrains = satAdd 32 s.pcie.retrains 1) ∧ t = { s with pcie := t.pcie })))
  ∧ (∀ (s : State) (op : JtagOp) (data : Nat),
      exec (.jtagInstruction .bypass data) s = .next { s with pins := { s.pins with jtag := .bypass } }
      ∧ exec (.jtagInstruction .idcode data) s = .next { s with pins := { s.pins with jtag := .idcode, shifted := Config.idcode } }
      ∧ ((op = .extest ∨ op = .extestPulse ∨ op = .extestTrain) → s.boot.dev ≠ .held → exec (.jtagInstruction op data) s = .next s)
      ∧ ((op = .samplePreload ∨ (op ≠ .bypass ∧ op ≠ .idcode ∧ s.boot.dev = .held)) →
        ∃ v, exec (.jtagInstruction op data) s
          = .next { s with free := s.free + 1, pins := { s.pins with jtag := op, boundary := data, shifted := v } }))

/-- A load (R503, Table 22-3): the image enters bank 0, and the first check that fails gives boot_fail; when all pass, identity and
profile stand and the start-up test begins; its end starts the image, releases the reeves in bring-up test mode (R577) and leaves
accumulators and tilth zero. That the test begins with the checks' end is the model's reading (DEDUCED, log entry 131). -/
def Obligations.LoadsRun : Prop :=
  ∀ s : State,
    (s.boot.st = .fetch →
      (∀ p i, ∃ t, exec (.bootFetchDone p i) s = .next t ∧ (match bootFail s p i with
        | some code => t = { s with boot := { s.boot with st := .failed, fail := code, banks := modifyAt 0 (fun _ => some i) s.boot.banks } }
        | none => t.boot.st = .check ∧ t.boot.profile = some p ∧ t.boot.image = some i ∧ t.boot.identity = some p.head.boundKey
          ∧ t.boot.banks = modifyAt 0 (fun _ => some i) s.boot.banks ∧ t.queues = s.queues ∧ t.mem = s.mem))
      ∧ (s.flt.inj = [] → exec .bootFetchTimeout s = .next { s with boot := { s.boot with st := .failed, fail := 7 } }))
    ∧ (powered s = true → s.boot.st = .check → ∀ failing, (fullField s = true → failing = []) →
      ∃ t, exec (.startupTestDone failing) s = .next t ∧ t.boot.st = .running ∧ t.boot.testMode = true ∧ t.field.accum = [] ∧ t.field.tilth = []
        ∧ t.flt.bist.startupDone = true ∧ t.flt.bist.periodic = fullField s
        ∧ (∀ i, s.boot.image = some i → t.boot.chain = Config.sha384 (s.boot.chain ++ i.head.digest ++ toLe 4 i.head.svn)
          ∧ t.boot.reeves = List.replicate 4 (runningReeve s.boot.bank i))
        ∧ (∀ p, s.boot.profile = some p → t.boot.loaded = (loadMicros p.micros).1 ∧ t.boot.refused = (loadMicros p.micros).2)
        ∧ t.mem = s.mem ∧ t.queues = s.queues)

/-! ### PCI Express and management (chapters 19, 22 and 25) -/

/-- Configuration requests are answered by hardware (R428); a function-level reset leaves the function's registers at their reset values and
its queues disabled until it reports readiness (R444); a hot reset clears VF Enable (R445); D3hot and D0 (R429). That Bus Master Enable is
clear after a function-level reset is the model's (PRESUMED, log entry 132), and so is that a hot reset takes the link down and ends the IDE
streams with their keys (PRESUMED, log entry 135). A write is answered with 0 (DESIGN CHOICE, log entry 137). -/
def Obligations.FunctionsReset : Prop :=
  ∀ (s : State) (fn : Nat), pciReaches s fn = true →
    (∀ reg, exec (.configRequest fn reg none) s = .next { s with out := s.out ++ [.config fn (configRead s fn reg)] })
    ∧ (∀ reg v, exec (.configRequest fn reg (some v)) s
      = .next { configWrite s fn reg v with out := (configWrite s fn reg v).out ++ [.config fn 0] })
    ∧ (0 < fn → s.fns.length = 5 → s.pcie.fns.length = 5 → (∀ m, (mbxOf s fn m).state ≠ .taken) →
      ∃ t, exec (.functionLevelReset fn) s = .next t ∧ fnOf t fn = noFunction ∧ (pciFn t fn).resetting = true ∧ (pciFn t fn).bme = false
        ∧ (∀ q, (queueOf s q).cfg.owner = fn → (queueOf t q).state = .disabled) ∧ t.pcie.linkUp = true ∧ t.boot.st = s.boot.st)
    ∧ ((pciFn s fn).resetting = true → ∃ t, exec (.functionReadinessStatus fn) s = .next t ∧ t.pcie.readiness = s.pcie.readiness ++ [fn + 1]
      ∧ (fn < s.pcie.fns.length → (pciFn t fn).resetting = false) ∧ t = { s with pcie := t.pcie })
    ∧ (∃ t, exec .hotReset s = .next t ∧ t.pcie.linkUp = false ∧ t.pcie.numVfs = 0 ∧ t.pcie.vfEnable = false
      ∧ (∀ x ∈ t.pcie.ide, x.secure = false ∧ x.key = none))
    ∧ exec (.d3hotEntry fn) s = .next (setPci s fn fun f => { f with d3hot := true })
    ∧ ((pciFn s fn).d3hot = true → exec (.returnToD0 fn) s
      = .next ((List.range 64).foldl (fun x e => sendPending x fn e) (setPci s fn fun f => { f with d3hot := false })))

/-- A completion error ends a load in FAILED with boot_fail 7 (R503), and else what its read was for (R437, R438); IDE keys are programmed,
started and stopped over a session of the physical function's DOE, and a failed check makes the stream Insecure (R443); DOE Discovery lists
three types (R442). What a completion error ends is the model's reading (DEDUCED, log entry 138). -/
def Obligations.LinksAreProtected : Prop :=
  ∀ s : State,
    (∀ q, s.flt.inj = [] →
      (s.boot.st = .fetch → exec (.hostCompletionError q) s = .next { s with boot := { s.boot with st := .failed, fail := 7 } })
      ∧ (∀ t, s.boot.st ≠ .fetch → hostErrorEnd s q = some t → exec (.hostCompletionError q) s = .next (noteInjected t 0x19 (queueOf s q).cfg.owner))
      ∧ (s.boot.st ≠ .fetch → hostErrorEnd s q = none → exec (.hostCompletionError q) s = .next s))
    ∧ (∀ n i, pciReaches s 0 = true → doeSession s n = true → i < 5 →
      let go (f : IdeStream → IdeStream) : State := { s with pcie := { s.pcie with ide := modifyAt i f s.pcie.ide }, out := s.out ++ [.spdm true (.ideKm i true)] }
      (∀ k, exec (.ideKm n i (.program k)) s = .next (go fun x => { x with key := some k }))
      ∧ ((s.pcie.ide.getD i noIde).key.isSome = true → exec (.ideKm n i .go) s = .next (go fun x => { x with secure := true }))
      ∧ ((s.pcie.ide.getD i noIde).key = none → exec (.ideKm n i .go) s = .next { s with out := s.out ++ [.spdm true (.ideKm i false)] })
      ∧ exec (.ideKm n i .stop) s = .next (go fun x => { x with secure := false, key := none }))
    ∧ (∀ i, s.pcie.linkUp = true → (s.pcie.ide.getD i noIde).secure = true → exec (.ideCheckFail i) s = .next { s with pcie := { s.pcie with
        aer := s.pcie.aer + 1, ide := modifyAt i (fun x => { x with secure := false }) s.pcie.ide } })
    ∧ (∀ i, pciReaches s 0 = true → exec (.doeDiscovery i) s = .next { s with out := s.out ++ [.discovery i (doeKinds[i]?).toList] }
      ∧ (3 ≤ i → exec (.doeDiscovery i) s = .next { s with out := s.out ++ [.discovery i []] }))

/-- The SPDM responder (R490, R491): versions and capabilities are answered before the identity is derived, everything else BUSY until then;
what needs a signature is refused where ML-DSA-87 has not been agreed; slot 0 alone has a certificate; chunks come in order. Which error
answers what is the model's reading (DEDUCED, log entry 79). -/
def Obligations.SpdmAnswers : Prop :=
  ∀ (s : State) (doe : Bool), pathUp s doe = true → (doe = false → relayUp s = true) →
    let say (t : State) (r : SpdmRsp) : Host.Outcome State Fault Refusal := .next { t with out := t.out ++ [.spdm doe r] }
    let err (t : State) (e : SpdmErr) : Host.Outcome State Fault Refusal := .next (sayError t doe e)
    exec (.getVersion doe) s = say (setPath s doe fun _ => noPath) (.version [0x12, 0x13])
    ∧ (∀ n, exec (.getCapabilities doe n) s = say (setPath s doe fun p => { p with xfer := n }) .capabilities)
    ∧ (∀ b, exec (.negotiateAlgorithms doe b) s = say (setPath s doe fun p => { p with agreed := b }) (.algorithms b))
    ∧ (s.boot.identity = none → exec (.getDigests doe) s = err s .busy ∧ (∀ n, exec (.challenge doe 0 n) s = err s .busy)
      ∧ (∀ r, exec (.keyExchange doe r) s = err s .busy))
    ∧ (s.boot.identity.isSome = true →
      ((pathOf s doe).agreed = false → exec (.getDigests doe) s = err s .unsupported ∧ (∀ n, exec (.challenge doe 0 n) s = err s .unsupported)
        ∧ (∀ r, exec (.keyExchange doe r) s = err s .unsupported))
      ∧ ((pathOf s doe).agreed = true → (pathOf s doe).xfer = 0 →
        exec (.getDigests doe) s = say s (.digests (Config.sha384 (chainBytes s)))
        ∧ (∀ off len, off < (chainBytes s).length → exec (.getCertificate doe 0 off len) s
          = say s (.certificate (((chainBytes s).drop off).take len) ((chainBytes s).length - off - min len ((chainBytes s).length - off))))
        ∧ (∀ slot off len, slot ≠ 0 → exec (.getCertificate doe slot off len) s = err s .invalid)
        ∧ (∀ n, exec (.challenge doe 0 n) s = say (signMsg s n).2 (.challengeAuth (signMsg s n).1))
        ∧ (∀ i bs, measured s i = some bs → exec (.getMeasurements doe none i none) s = say s (.measurements bs none)))
      ∧ (∀ seq last bs, (pathOf s doe).xfer = 0 → seq = (pathOf s doe).chunkNext → ∃ t, exec (.chunkSend doe seq last bs) s = say t (.chunkAck seq)
        ∧ (last = false → (pathOf t doe).chunkIn = (pathOf s doe).chunkIn ++ bs ∧ (pathOf t doe).chunkNext = seq + 1)
        ∧ (last = true → (pathOf t doe).request = (pathOf s doe).chunkIn ++ bs ∧ (pathOf t doe).chunkNext = 0))
      ∧ (∀ seq last bs, seq ≠ (pathOf s doe).chunkNext → exec (.chunkSend doe seq last bs) s = err s .invalid)
      ∧ (∀ seq, let n := max 1 (pathOf s doe).xfer
        seq * n < (pathOf s doe).large.length → (pathOf s doe).large.length ≤ (seq + 1) * n →
        exec (.chunkGet doe seq) s = say (setPath s doe fun x => { x with large := [] })
          (.chunk seq true (((pathOf s doe).large.drop (seq * n)).take n))))

/-- Sessions and the owner (R490, R492 to R494, R497): at most four sessions; FINISH establishes one whose requester shows the chain that
KEY_EXCHANGE named, and drops it otherwise; the first bind with mutual authentication owns the device; then only that root is heard, a wrap
key is set once, and the policy only tightens. Which error answers what, and who may ask before a bind, are the model's readings (DEDUCED,
log entries 79 and 140). -/
def Obligations.SessionsAndOwner : Prop :=
  ∀ (s : State) (doe : Bool), pathUp s doe = true → (doe = false → relayUp s = true) → s.boot.identity.isSome = true → (pathOf s doe).xfer = 0 →
    let say (t : State) (r : SpdmRsp) : Host.Outcome State Fault Refusal := .next { t with out := t.out ++ [.spdm doe r] }
    (∀ root, (pathOf s doe).agreed = true →
      (4 ≤ s.sec.sessions.length → exec (.keyExchange doe root) s = .next (sayError s doe .busy))
      ∧ (s.sec.sessions.length < 4 → ∃ sig t, exec (.keyExchange doe root) s = say t (.keyExchange s.sec.nextNum sig)
        ∧ t.sec.sessions = s.sec.sessions ++ [{ num := s.sec.nextNum, doe := doe, root := root, finished := false, keys := 0 }]
        ∧ t.sec.nextNum = s.sec.nextNum + 1))
    ∧ (∀ n y, sessionOn s doe n = some y →
      (y.finished = false → exec (.finish doe n y.root true) s = say (setSession s n fun z => { z with finished := true }) (.finish n))
      ∧ (∀ r v, y.finished = false → (v = false ∨ r ≠ y.root) → exec (.finish doe n r v) s = .next (sayError (dropSession s n) doe .invalid))
      ∧ (y.finished = true →
        exec (.endSession doe n) s = say (dropSession s n) (.ended n) ∧ exec (.heartbeat doe n) s = say s (.heartbeat n)
        ∧ exec (.keyUpdate doe n) s = say (setSession s n fun z => { z with keys := z.keys + 1 }) (.keyUpdate n)))
    ∧ (∀ n y root, s.sec.sessions.find? (·.num == n) = some y → y.doe = doe → y.finished = true → y.root = some root →
      (s.sec.owner = none → exec (.ownerBind n) s = say { s with sec := { s.sec with owner := some root } } (.vendor n 0))
      ∧ (∀ d, s.sec.owner = some d → exec (.ownerBind n) s = say s (.vendor n (statusCode .secPartition)))
      ∧ (∀ p key, p ≤ 3 → (partOf s p).configured = true → (s.sec.owner = none ∨ s.sec.owner = some root) →
        ((partOf s p).wrapKey = none → exec (.wrapKeySet n p key) s
          = say (setPart s p fun P => { P with wrapKey := some (key % 2 ^ 256) }) (.vendor n 0))
        ∧ ((partOf s p).wrapKey ≠ none → exec (.wrapKeySet n p key) s = say s (.vendor n (statusCode .loadBadShape))))
      ∧ (∀ ide mac svn d, s.sec.owner = some d → d ≠ root → exec (.policySet n ide mac svn) s = say s (.vendor n (statusCode .secPartition)))
      ∧ (∀ ide mac svn, (s.sec.owner = none ∨ s.sec.owner = some root) → s.sec.minSvn ≤ svn → svn < 2 ^ 32 →
        ∃ t, exec (.policySet n ide mac svn) s = say t (.vendor n 0) ∧ t.sec.minSvn = svn ∧ t.sec.policySet = true
          ∧ (∀ i, i < 4 → bitOf t.sec.ideRequired i = (bitOf s.sec.ideRequired i || bitOf ide i))
          ∧ (∀ i, i < 8 → bitOf t.sec.macsecLocked i = (bitOf s.sec.macsecLocked i || bitOf mac i)))
      ∧ (∀ link ckn cak, (s.sec.owner = none ∨ s.sec.owner = some root) → portEnabled s (link / 2) = true → exec (.cakSet n link ckn cak) s
        = say (setLink s link fun l => { l with cak := some (ckn % 2 ^ 128 * 2 ^ 256 + cak % 2 ^ 256) }) (.vendor n 0)))

/-- Management (R538 to R543): hardware answers MCTP control; PLDM is answered by firmware while it serves, and is counted and answered
ERROR_NOT_READY until then. Sensor numbers, the UUID, endpoint IDs 0 and 255 and the states' numbers are the model's (log entries 86, 143,
144 and 145). -/
def Obligations.ManagementAnswers : Prop :=
  ∀ (s : State) (i3c : Bool), bindingUp s i3c = true →
    let say (t : State) (r : MgmtRsp) : State := { t with out := t.out ++ [.mgmt i3c (s.mgmt.eid.getD 0) r] }
    (∀ a, s.boot.dev = .run → s.mgmt.ready = true → 0 < a → a < 128 →
      exec (.i3cDynamicAddress a) s = .next { s with mgmt := { s.mgmt with i3c := some a } })
    ∧ (∀ e, 0 < e → e < 255 → exec (.setEndpointId i3c e) s = .next (say { s with mgmt := { s.mgmt with eid := some e } } (.setEid e)))
    ∧ exec (.getEndpointId i3c) s = .next (say s (.eid (s.mgmt.eid.getD 0)))
    ∧ (∀ k, s.boot.identity = some k → exec (.getEndpointUuid i3c) s = .next (say s (.uuid (endpointUuid k))))
    ∧ exec (.getMctpVersionSupport i3c) s = .next (say s (.version (Config.versionBytes 0)))
    ∧ exec (.getMessageTypeSupport i3c) s = .next (say s (.messageTypes [0x00, 0x01, 0x05, 0x06]))
    ∧ (relayUp s = false → exec (.getTid i3c) s
      = .next (say { s with mgmt := { s.mgmt with notReady := satAdd 16 s.mgmt.notReady 1 } } .notReady))
    ∧ (relayUp s = true →
      exec (.getTid i3c) s = .next (say s (.tid s.mgmt.tid))
      ∧ (∀ v, exec (.setTid i3c v) s = .next (say { s with mgmt := { s.mgmt with tid := v % 256 } } .done))
      ∧ (∀ k, (k = 0 ∨ k = 2 ∨ k = 4) → exec (.getPldmVersion i3c k) s = .next (say s (.version (Config.versionBytes (256 + k)))))
      ∧ exec (.getPldmTypes i3c) s = .next (say s (.types [0, 2, 4]))
      ∧ (∀ k cs, lookupKey k pldmCommands = some cs → exec (.getPldmCommands i3c k) s = .next (say s (.commands cs)))
      ∧ exec (.getPdrRepositoryInfo i3c) s = .next (say s (.pdrInfo 9))
      ∧ (∀ r y, sensors[r]? = some y → exec (.getPdr i3c r) s = .next (platformEvents (say s (.pdr y (thresholds s y)))))
      ∧ (∀ r v, sensors[r]?.bind (numericReading s) = some v → exec (.getSensorReading i3c r) s = .next (platformEvents (say s (.reading v))))
      ∧ (∀ r v, sensors[r]?.bind (stateReading s) = some v → exec (.getStateSensorReadings i3c r) s = .next (platformEvents (say s (.sensorState v))))
      ∧ (∀ e, exec (.setEventReceiver i3c e) s = .next (platformEvents (say { s with mgmt := { s.mgmt with receiver := some e } } .done)))
      ∧ exec (.getFruRecordTableMetadata i3c) s = .next (say s (.fruMetadata 1))
      ∧ (∀ p, s.boot.profile = some p → exec (.getFruRecordTable i3c) s = .next (say s (.fru (serialNumber s) p.furrows p.ports p.hbmStacks))))

/-! ### Numbers and memory (chapters 2 and 13) -/

/-- A finite value that a format of elements can hold comes back bit for bit when it is narrowed to that format, in every rounding mode, and
with no event (R30 to R35, R49): the formats' codes and the rounding agree. -/
def Obligations.ElementsRoundTrip : Prop :=
  ∀ (f : Fmt) (m : RMode) (sat : Bool) (bits : Nat),
    (f = .bf16 ∨ f = .fp16 ∨ f = .fp32 ∨ f = .e4m3 ∨ f = .e5m2 ∨ f = .int8) → bits < 2 ^ elemBits f →
    isNan (elemFV f bits) = false → isInf (elemFV f bits) = false → narrow f m sat (elemFV f bits) = (bits, .none)

/-- A store leaves every byte alone that it does not name: what a reader sees of device memory, and host and remote memory (R25, R337 to
R340). A byte is named when a byte of the span lies there. -/
def Obligations.StoresTouchTheirSpan : Prop :=
  ∀ (s t : State) (p q va : Nat) (bs : List Byte), combiningOk s → storeBytes s p q va bs = .ok t →
    (∀ i w pl, i < bs.length → lookupKey ((va + i) / plotBytes) (partOf s p).plots = some pl → pl.home ≠ .window w) →
    combiningOk t
    ∧ (∀ a b, (∀ i, i < bs.length → locate s p (va + i) ≠ .ok (.phys a)) → physByte s a = .ok b → physByte t a = .ok b)
    ∧ (∀ a, bitOf s.sec.ideRequired p = false → (∀ i fn, i < bs.length → locate s p (va + i) ≠ .ok (.host a fn)) →
      memGet t.mem.host a = memGet s.mem.host a)
    ∧ (∀ a, (∀ i k, i < bs.length → locate s p (va + i) = .ok (.remote k) → k % 64 = (va + i) % 64) →
      (∀ i, i < bs.length → locate s p (va + i) ≠ .ok (.remote a)) → memGet t.mem.remote a = memGet s.mem.remote a)
    ∧ t.streams = s.streams ∧ t.field = s.field ∧ t.fns = s.fns ∧ t.tick = s.tick ∧ t.net.ports = s.net.ports ∧ t.net.links = s.net.links
    ∧ ((∀ i k, i < bs.length → locate s p (va + i) ≠ .ok (.remote k)) → t.net = s.net)
end

