-- ==== Sys2Proof/Laws/Memory.lean ====
section
/-! SUPPORT. Sparse memory: every operation keeps the canonical form, a read after a write, and what a write leaves alone. -/

namespace Sys2Proof.Machine

/-- Every listed address lies above a bound. -/
def above (k : Nat) (m : Memory) : Prop := ∀ c ∈ m, k < c.1

/-- The canonical form as a list property: addresses pairwise rising, no zero byte. -/
theorem wf_iff (m : Memory) : Memory.wf m = true ↔ (m.Pairwise fun c d => c.1 < d.1) ∧ ∀ c ∈ m, c.2 ≠ 0 := by
  induction m with
  | nil => simp [Memory.wf]
  | cons c rest ih =>
    cases rest with
    | nil => simp [Memory.wf]
    | cons d tail =>
      have step : Memory.wf (c :: d :: tail) = true ↔ c.2 ≠ 0 ∧ c.1 < d.1 ∧ Memory.wf (d :: tail) = true := by
        simp [Memory.wf, and_assoc]
      rw [step, ih, List.pairwise_cons (a := c)]
      constructor
      · rintro ⟨hc, hcd, hp, hz⟩
        refine ⟨⟨fun x hx => ?_, hp⟩, fun x hx => ?_⟩
        · rcases List.mem_cons.1 hx with rfl | hx
          · exact hcd
          · exact lt_trans hcd ((List.pairwise_cons.1 hp).1 x hx)
        · rcases List.mem_cons.1 hx with rfl | hx
          · exact hc
          · exact hz x hx
      · rintro ⟨⟨hc, hp⟩, hz⟩
        exact ⟨hz c (by simp), hc d (by simp), hp, fun x hx => hz x (List.mem_cons_of_mem _ hx)⟩

theorem memSet_above {k a : Nat} {b : Byte} {m : Memory} (hm : above k m) (ha : k < a) : above k (memSet m a b) := by
  induction m with
  | nil => simp only [memSet]; split <;> simp_all [above]
  | cons c rest ih =>
    have hr : above k rest := fun x hx => hm x (List.mem_cons_of_mem _ hx)
    have hc : k < c.1 := hm c (by simp)
    simp only [memSet]
    split
    · split
      · exact hm
      · intro x hx
        rcases List.mem_cons.1 hx with rfl | hx
        · exact ha
        · exact hm x hx
    · split
      · split
        · exact hr
        · intro x hx
          rcases List.mem_cons.1 hx with rfl | hx
          · exact ha
          · exact hr x hx
      · intro x hx
        rcases List.mem_cons.1 hx with rfl | hx
        · exact hc
        · exact ih hr x hx

/-- A store keeps the canonical form. -/
theorem memSet_wf {m : Memory} (a : Nat) (b : Byte) (h : Memory.wf m = true) : Memory.wf (memSet m a b) = true := by
  induction m with
  | nil => simp only [memSet]; split <;> simp_all [Memory.wf]
  | cons c rest ih =>
    have hall := (wf_iff _).1 h
    have hp := List.pairwise_cons.1 hall.1
    have hrest : Memory.wf rest = true := (wf_iff _).2 ⟨hp.2, fun x hx => hall.2 x (List.mem_cons_of_mem _ hx)⟩
    have hc : c.2 ≠ 0 := hall.2 c (by simp)
    simp only [memSet]
    split
    · rename_i hlt
      split
      · exact h
      · rename_i hb
        refine (wf_iff _).2 ⟨List.pairwise_cons.2 ⟨fun x hx => ?_, hall.1⟩, fun x hx => ?_⟩
        · rcases List.mem_cons.1 hx with rfl | hx
          · exact hlt
          · exact lt_trans hlt (hp.1 x hx)
        · rcases List.mem_cons.1 hx with rfl | hx
          · exact hb
          · exact hall.2 x hx
    · split
      · rename_i heq
        split
        · exact hrest
        · rename_i hb
          have hr := (wf_iff _).1 hrest
          refine (wf_iff _).2 ⟨List.pairwise_cons.2 ⟨fun x hx => ?_, hr.1⟩, fun x hx => ?_⟩
          · exact heq ▸ hp.1 x hx
          · rcases List.mem_cons.1 hx with rfl | hx
            · exact hb
            · exact hr.2 x hx
      · rename_i hge hne
        have hlt : c.1 < a := lt_of_le_of_ne (not_lt.1 hge) hne
        have hr := (wf_iff _).1 (ih hrest)
        have hab : above c.1 (memSet rest a b) := memSet_above (fun x hx => hp.1 x hx) hlt
        refine (wf_iff _).2 ⟨List.pairwise_cons.2 ⟨hab, hr.1⟩, fun x hx => ?_⟩
        rcases List.mem_cons.1 hx with rfl | hx
        · exact hc
        · exact hr.2 x hx

theorem memWrite_wf (bs : List Byte) : ∀ {m : Memory} (a : Nat), Memory.wf m = true → Memory.wf (memWrite m a bs) = true := by
  induction bs with
  | nil => intro m a h; exact h
  | cons b bs ih => intro m a h; exact ih (a + 1) (memSet_wf a b h)

theorem filter_wf {m : Memory} (p : Host.Cell → Bool) (h : Memory.wf m = true) : Memory.wf (m.filter p) = true := by
  have hm := (wf_iff _).1 h
  exact (wf_iff _).2 ⟨hm.1.filter p, fun c hc => hm.2 c (List.mem_filter.1 hc).1⟩

theorem memClear_wf {m : Memory} (a n : Nat) (h : Memory.wf m = true) : Memory.wf (memClear m a n) = true := filter_wf _ h

theorem memCopy_wf {src m : Memory} (a n dst : Nat) (hs : Memory.wf src = true) (hm : Memory.wf m = true) :
    Memory.wf (memCopy src m a n dst) = true := by
  have h1 := (wf_iff _).1 hs
  have h2 := (wf_iff _).1 hm
  refine (wf_iff _).2 ⟨?_, ?_⟩
  · simp only [memCopy, memBelow, memFrom]
    refine List.pairwise_append.2 ⟨h2.1.filter _, List.pairwise_append.2 ⟨?_, h2.1.filter _, ?_⟩, ?_⟩
    · refine List.pairwise_map.2 ((h1.1.filter _).imp_of_mem ?_)
      intro x y hx hy hxy
      simp only [List.mem_filter, Bool.and_eq_true, decide_eq_true_eq] at hx hy
      omega
    · intro x hx y hy
      simp only [List.mem_map, List.mem_filter, Bool.and_eq_true, decide_eq_true_eq] at hx hy
      obtain ⟨z, ⟨_, hz1, hz2⟩, rfl⟩ := hx
      simp only
      omega
    · intro x hx y hy
      simp only [List.mem_filter, List.mem_append, List.mem_map, Bool.and_eq_true, decide_eq_true_eq] at hx hy
      rcases hy with ⟨z, ⟨_, hz1, hz2⟩, rfl⟩ | ⟨_, hy⟩
      · simp only; omega
      · omega
  · intro c hc
    simp only [memCopy, memBelow, memFrom, List.mem_append, List.mem_filter, List.mem_map] at hc
    rcases hc with ⟨hc, _⟩ | ⟨z, ⟨hz, _⟩, rfl⟩ | ⟨hc, _⟩
    · exact h2.2 c hc
    · exact h1.2 z hz
    · exact h2.2 c hc

/-- Below the first listed address nothing is read. -/
theorem memGet_above {k a : Nat} {m : Memory} (hm : above k m) (ha : a ≤ k) : memGet m a = 0 := by
  induction m with
  | nil => rfl
  | cons c rest ih =>
    have hc : k < c.1 := hm c (by simp)
    simp only [memGet]
    rw [if_neg (by omega)]
    exact ih fun x hx => hm x (List.mem_cons_of_mem _ hx)

/-- A byte that has been stored is read back. -/
theorem memGet_memSet_same {m : Memory} (a : Nat) (b : Byte) (h : Memory.wf m = true) : memGet (memSet m a b) a = b := by
  induction m with
  | nil => simp only [memSet]; split <;> simp_all [memGet]
  | cons c rest ih =>
    have hall := (wf_iff _).1 h
    have hp := List.pairwise_cons.1 hall.1
    have hrest : Memory.wf rest = true := (wf_iff _).2 ⟨hp.2, fun x hx => hall.2 x (List.mem_cons_of_mem _ hx)⟩
    have hzero : above c.1 rest := fun x hx => hp.1 x hx
    simp only [memSet]
    split
    · rename_i hlt
      split
      · rename_i hb
        subst hb
        simp only [memGet]
        rw [if_neg (by omega)]
        exact memGet_above hzero (by omega)
      · simp [memGet]
    · split
      · rename_i heq
        split
        · rename_i hb
          subst hb
          exact memGet_above hzero (by omega)
        · simp [memGet]
      · rename_i hne
        simp only [memGet]
        rw [if_neg hne]
        exact ih hrest

/-- Every other byte stays. -/
theorem memGet_memSet_other {m : Memory} (a : Nat) (b : Byte) {x : Nat} (hx : x ≠ a) : memGet (memSet m a b) x = memGet m x := by
  induction m with
  | nil =>
    simp only [memSet]
    split
    · rfl
    · simp [memGet, Ne.symm hx]
  | cons c rest ih =>
    simp only [memSet]
    split
    · split
      · rfl
      · simp [memGet, Ne.symm hx]
    · split
      · rename_i heq
        split
        · simp only [memGet]
          rw [if_neg (by omega)]
        · simp only [memGet]
          rw [if_neg (fun e => hx e.symm), if_neg (by omega)]
      · simp only [memGet, ih]

/-- Bytes outside a written run stay. -/
theorem memGet_memWrite_other (bs : List Byte) : ∀ {m : Memory} (a x : Nat), x < a ∨ a + bs.length ≤ x →
    memGet (memWrite m a bs) x = memGet m x := by
  induction bs with
  | nil => intro m a x _; rfl
  | cons b bs ih =>
    intro m a x h
    simp only [List.length_cons] at h
    rw [memWrite, ih (a + 1) x (by omega), memGet_memSet_other a b (by omega)]

/-- A written run is read back. -/
theorem memGet_memWrite_same (bs : List Byte) : ∀ {m : Memory} (a : Nat), Memory.wf m = true → ∀ i (hi : i < bs.length),
    memGet (memWrite m a bs) (a + i) = bs[i] := by
  induction bs with
  | nil => intro m a _ i hi; exact absurd hi (by simp)
  | cons b bs ih =>
    intro m a h i hi
    cases i with
    | zero =>
      rw [memWrite, memGet_memWrite_other bs (a + 1) (a + 0) (by omega)]
      exact memGet_memSet_same a b h
    | succ j =>
      have hj : j < bs.length := by simpa using hi
      have e : a + (j + 1) = a + 1 + j := by omega
      rw [memWrite, e, ih (a + 1) (memSet_wf a b h) j hj]
      rfl

end Sys2Proof.Machine
end

