-- ==== Sys2Proof/Laws/Invariant.lean ====
section
/-! SUPPORT. The invariant of Safety.lean: how it follows for a changed state, and that folds keep it. -/

namespace Sys2Proof.Machine

@[simp] theorem modifyAt_length {α : Type} (f : α → α) (xs : List α) : ∀ i : Nat, (modifyAt i f xs).length = xs.length := by
  induction xs with
  | nil => intro i; simp [modifyAt]
  | cons x xs ih => intro i; cases i <;> simp [modifyAt, ih]

/-- What does not change the parts that the invariant speaks of keeps it. -/
theorem ok_same {s t : State} (hm : t.mem = s.mem) (hf : t.field = s.field) (hz : sizes t = sizes s) (h : stateOk s) : stateOk t := by
  unfold stateOk at *
  rw [hm, hf, hz]
  exact h

/-- A change of memory that keeps its own part. -/
theorem ok_mem {s t : State} (hf : t.field = s.field) (hz : sizes t = sizes s) (h : stateOk s) (hm : memoryOk s.mem → memoryOk t.mem) :
    stateOk t := by
  unfold stateOk at *
  rw [hf, hz]
  exact ⟨hm h.1, h.2⟩

/-- A change of the field that keeps its own part. -/
theorem ok_field {s t : State} (hm : t.mem = s.mem) (hz : sizes t = sizes s) (h : stateOk s) (hf : fieldOk s.field → fieldOk t.field) :
    stateOk t := by
  unfold stateOk at *
  rw [hm, hz]
  exact ⟨h.1, hf h.2.1, h.2.2⟩

/-- A fold of steps that keep the invariant keeps it. -/
theorem ok_foldl {α : Type} {f : State → α → State} (hf : ∀ s a, stateOk s → stateOk (f s a)) :
    ∀ (xs : List α) {s : State}, stateOk s → stateOk (xs.foldl f s)
  | [], _, h => h
  | a :: xs, s, h => ok_foldl hf xs (hf s a h)

/-- The same for a fold that carries a value beside the state. -/
theorem ok_foldl_fst {α β : Type} {f : State × β → α → State × β} (hf : ∀ x a, stateOk x.1 → stateOk (f x a).1) :
    ∀ (xs : List α) {x : State × β}, stateOk x.1 → stateOk (xs.foldl f x).1
  | [], _, h => h
  | a :: xs, x, h => ok_foldl_fst hf xs (hf x a h)

theorem ok_foldl_snd {α β : Type} {f : β × State → α → β × State} (hf : ∀ x a, stateOk x.2 → stateOk (f x a).2) :
    ∀ (xs : List α) {x : β × State}, stateOk x.2 → stateOk (xs.foldl f x).2
  | [], _, h => h
  | a :: xs, x, h => ok_foldl_snd hf xs (hf x a h)

end Sys2Proof.Machine
end

