-- ==== Sys2Proof/Laws/State.lean ====
section
/-! SUPPORT. What each update of one unit leaves in each field of State. -/

namespace Sys2Proof.Machine

/-! ### setQueue -/

@[simp] theorem setQueue_pending (s : State) (q : Nat) (f : Queue → Queue) : (setQueue s q f).pending = s.pending := rfl
@[simp] theorem setQueue_free (s : State) (q : Nat) (f : Queue → Queue) : (setQueue s q f).free = s.free := rfl
@[simp] theorem setQueue_now (s : State) (q : Nat) (f : Queue → Queue) : (setQueue s q f).now = s.now := rfl
@[simp] theorem setQueue_boot (s : State) (q : Nat) (f : Queue → Queue) : (setQueue s q f).boot = s.boot := rfl
@[simp] theorem setQueue_queues (s : State) (q : Nat) (f : Queue → Queue) : (setQueue s q f).queues = modifyAt q f s.queues := rfl
@[simp] theorem setQueue_parts (s : State) (q : Nat) (f : Queue → Queue) : (setQueue s q f).parts = s.parts := rfl
@[simp] theorem setQueue_streams (s : State) (q : Nat) (f : Queue → Queue) : (setQueue s q f).streams = s.streams := rfl
@[simp] theorem setQueue_cohorts (s : State) (q : Nat) (f : Queue → Queue) : (setQueue s q f).cohorts = s.cohorts := rfl
@[simp] theorem setQueue_field (s : State) (q : Nat) (f : Queue → Queue) : (setQueue s q f).field = s.field := rfl
@[simp] theorem setQueue_mem (s : State) (q : Nat) (f : Queue → Queue) : (setQueue s q f).mem = s.mem := rfl
@[simp] theorem setQueue_tick (s : State) (q : Nat) (f : Queue → Queue) : (setQueue s q f).tick = s.tick := rfl
@[simp] theorem setQueue_drill (s : State) (q : Nat) (f : Queue → Queue) : (setQueue s q f).drill = s.drill := rfl
@[simp] theorem setQueue_net (s : State) (q : Nat) (f : Queue → Queue) : (setQueue s q f).net = s.net := rfl
@[simp] theorem setQueue_fns (s : State) (q : Nat) (f : Queue → Queue) : (setQueue s q f).fns = s.fns := rfl
@[simp] theorem setQueue_pcie (s : State) (q : Nat) (f : Queue → Queue) : (setQueue s q f).pcie = s.pcie := rfl
@[simp] theorem setQueue_shadow (s : State) (q : Nat) (f : Queue → Queue) : (setQueue s q f).shadow = s.shadow := rfl
@[simp] theorem setQueue_flt (s : State) (q : Nat) (f : Queue → Queue) : (setQueue s q f).flt = s.flt := rfl
@[simp] theorem setQueue_repairs (s : State) (q : Nat) (f : Queue → Queue) : (setQueue s q f).repairs = s.repairs := rfl
@[simp] theorem setQueue_pwr (s : State) (q : Nat) (f : Queue → Queue) : (setQueue s q f).pwr = s.pwr := rfl
@[simp] theorem setQueue_sec (s : State) (q : Nat) (f : Queue → Queue) : (setQueue s q f).sec = s.sec := rfl
@[simp] theorem setQueue_mgmt (s : State) (q : Nat) (f : Queue → Queue) : (setQueue s q f).mgmt = s.mgmt := rfl
@[simp] theorem setQueue_pins (s : State) (q : Nat) (f : Queue → Queue) : (setQueue s q f).pins = s.pins := rfl
@[simp] theorem setQueue_out (s : State) (q : Nat) (f : Queue → Queue) : (setQueue s q f).out = s.out := rfl

/-! ### setPart -/

@[simp] theorem setPart_pending (s : State) (p : Nat) (f : Partition → Partition) : (setPart s p f).pending = s.pending := rfl
@[simp] theorem setPart_free (s : State) (p : Nat) (f : Partition → Partition) : (setPart s p f).free = s.free := rfl
@[simp] theorem setPart_now (s : State) (p : Nat) (f : Partition → Partition) : (setPart s p f).now = s.now := rfl
@[simp] theorem setPart_boot (s : State) (p : Nat) (f : Partition → Partition) : (setPart s p f).boot = s.boot := rfl
@[simp] theorem setPart_queues (s : State) (p : Nat) (f : Partition → Partition) : (setPart s p f).queues = s.queues := rfl
@[simp] theorem setPart_parts (s : State) (p : Nat) (f : Partition → Partition) : (setPart s p f).parts = modifyAt p f s.parts := rfl
@[simp] theorem setPart_streams (s : State) (p : Nat) (f : Partition → Partition) : (setPart s p f).streams = s.streams := rfl
@[simp] theorem setPart_cohorts (s : State) (p : Nat) (f : Partition → Partition) : (setPart s p f).cohorts = s.cohorts := rfl
@[simp] theorem setPart_field (s : State) (p : Nat) (f : Partition → Partition) : (setPart s p f).field = s.field := rfl
@[simp] theorem setPart_mem (s : State) (p : Nat) (f : Partition → Partition) : (setPart s p f).mem = s.mem := rfl
@[simp] theorem setPart_tick (s : State) (p : Nat) (f : Partition → Partition) : (setPart s p f).tick = s.tick := rfl
@[simp] theorem setPart_drill (s : State) (p : Nat) (f : Partition → Partition) : (setPart s p f).drill = s.drill := rfl
@[simp] theorem setPart_net (s : State) (p : Nat) (f : Partition → Partition) : (setPart s p f).net = s.net := rfl
@[simp] theorem setPart_fns (s : State) (p : Nat) (f : Partition → Partition) : (setPart s p f).fns = s.fns := rfl
@[simp] theorem setPart_pcie (s : State) (p : Nat) (f : Partition → Partition) : (setPart s p f).pcie = s.pcie := rfl
@[simp] theorem setPart_shadow (s : State) (p : Nat) (f : Partition → Partition) : (setPart s p f).shadow = s.shadow := rfl
@[simp] theorem setPart_flt (s : State) (p : Nat) (f : Partition → Partition) : (setPart s p f).flt = s.flt := rfl
@[simp] theorem setPart_repairs (s : State) (p : Nat) (f : Partition → Partition) : (setPart s p f).repairs = s.repairs := rfl
@[simp] theorem setPart_pwr (s : State) (p : Nat) (f : Partition → Partition) : (setPart s p f).pwr = s.pwr := rfl
@[simp] theorem setPart_sec (s : State) (p : Nat) (f : Partition → Partition) : (setPart s p f).sec = s.sec := rfl
@[simp] theorem setPart_mgmt (s : State) (p : Nat) (f : Partition → Partition) : (setPart s p f).mgmt = s.mgmt := rfl
@[simp] theorem setPart_pins (s : State) (p : Nat) (f : Partition → Partition) : (setPart s p f).pins = s.pins := rfl
@[simp] theorem setPart_out (s : State) (p : Nat) (f : Partition → Partition) : (setPart s p f).out = s.out := rfl

/-! ### setFn -/

@[simp] theorem setFn_pending (s : State) (fn : Nat) (f : Function → Function) : (setFn s fn f).pending = s.pending := rfl
@[simp] theorem setFn_free (s : State) (fn : Nat) (f : Function → Function) : (setFn s fn f).free = s.free := rfl
@[simp] theorem setFn_now (s : State) (fn : Nat) (f : Function → Function) : (setFn s fn f).now = s.now := rfl
@[simp] theorem setFn_boot (s : State) (fn : Nat) (f : Function → Function) : (setFn s fn f).boot = s.boot := rfl
@[simp] theorem setFn_queues (s : State) (fn : Nat) (f : Function → Function) : (setFn s fn f).queues = s.queues := rfl
@[simp] theorem setFn_parts (s : State) (fn : Nat) (f : Function → Function) : (setFn s fn f).parts = s.parts := rfl
@[simp] theorem setFn_streams (s : State) (fn : Nat) (f : Function → Function) : (setFn s fn f).streams = s.streams := rfl
@[simp] theorem setFn_cohorts (s : State) (fn : Nat) (f : Function → Function) : (setFn s fn f).cohorts = s.cohorts := rfl
@[simp] theorem setFn_field (s : State) (fn : Nat) (f : Function → Function) : (setFn s fn f).field = s.field := rfl
@[simp] theorem setFn_mem (s : State) (fn : Nat) (f : Function → Function) : (setFn s fn f).mem = s.mem := rfl
@[simp] theorem setFn_tick (s : State) (fn : Nat) (f : Function → Function) : (setFn s fn f).tick = s.tick := rfl
@[simp] theorem setFn_drill (s : State) (fn : Nat) (f : Function → Function) : (setFn s fn f).drill = s.drill := rfl
@[simp] theorem setFn_net (s : State) (fn : Nat) (f : Function → Function) : (setFn s fn f).net = s.net := rfl
@[simp] theorem setFn_fns (s : State) (fn : Nat) (f : Function → Function) : (setFn s fn f).fns = modifyAt fn f s.fns := rfl
@[simp] theorem setFn_pcie (s : State) (fn : Nat) (f : Function → Function) : (setFn s fn f).pcie = s.pcie := rfl
@[simp] theorem setFn_shadow (s : State) (fn : Nat) (f : Function → Function) : (setFn s fn f).shadow = s.shadow := rfl
@[simp] theorem setFn_flt (s : State) (fn : Nat) (f : Function → Function) : (setFn s fn f).flt = s.flt := rfl
@[simp] theorem setFn_repairs (s : State) (fn : Nat) (f : Function → Function) : (setFn s fn f).repairs = s.repairs := rfl
@[simp] theorem setFn_pwr (s : State) (fn : Nat) (f : Function → Function) : (setFn s fn f).pwr = s.pwr := rfl
@[simp] theorem setFn_sec (s : State) (fn : Nat) (f : Function → Function) : (setFn s fn f).sec = s.sec := rfl
@[simp] theorem setFn_mgmt (s : State) (fn : Nat) (f : Function → Function) : (setFn s fn f).mgmt = s.mgmt := rfl
@[simp] theorem setFn_pins (s : State) (fn : Nat) (f : Function → Function) : (setFn s fn f).pins = s.pins := rfl
@[simp] theorem setFn_out (s : State) (fn : Nat) (f : Function → Function) : (setFn s fn f).out = s.out := rfl

/-! ### setPci -/

@[simp] theorem setPci_pending (s : State) (fn : Nat) (f : PciFn → PciFn) : (setPci s fn f).pending = s.pending := rfl
@[simp] theorem setPci_free (s : State) (fn : Nat) (f : PciFn → PciFn) : (setPci s fn f).free = s.free := rfl
@[simp] theorem setPci_now (s : State) (fn : Nat) (f : PciFn → PciFn) : (setPci s fn f).now = s.now := rfl
@[simp] theorem setPci_boot (s : State) (fn : Nat) (f : PciFn → PciFn) : (setPci s fn f).boot = s.boot := rfl
@[simp] theorem setPci_queues (s : State) (fn : Nat) (f : PciFn → PciFn) : (setPci s fn f).queues = s.queues := rfl
@[simp] theorem setPci_parts (s : State) (fn : Nat) (f : PciFn → PciFn) : (setPci s fn f).parts = s.parts := rfl
@[simp] theorem setPci_streams (s : State) (fn : Nat) (f : PciFn → PciFn) : (setPci s fn f).streams = s.streams := rfl
@[simp] theorem setPci_cohorts (s : State) (fn : Nat) (f : PciFn → PciFn) : (setPci s fn f).cohorts = s.cohorts := rfl
@[simp] theorem setPci_field (s : State) (fn : Nat) (f : PciFn → PciFn) : (setPci s fn f).field = s.field := rfl
@[simp] theorem setPci_mem (s : State) (fn : Nat) (f : PciFn → PciFn) : (setPci s fn f).mem = s.mem := rfl
@[simp] theorem setPci_tick (s : State) (fn : Nat) (f : PciFn → PciFn) : (setPci s fn f).tick = s.tick := rfl
@[simp] theorem setPci_drill (s : State) (fn : Nat) (f : PciFn → PciFn) : (setPci s fn f).drill = s.drill := rfl
@[simp] theorem setPci_net (s : State) (fn : Nat) (f : PciFn → PciFn) : (setPci s fn f).net = s.net := rfl
@[simp] theorem setPci_fns (s : State) (fn : Nat) (f : PciFn → PciFn) : (setPci s fn f).fns = s.fns := rfl
@[simp] theorem setPci_pcie (s : State) (fn : Nat) (f : PciFn → PciFn) : (setPci s fn f).pcie = { s.pcie with fns := modifyAt fn f s.pcie.fns } := rfl
@[simp] theorem setPci_shadow (s : State) (fn : Nat) (f : PciFn → PciFn) : (setPci s fn f).shadow = s.shadow := rfl
@[simp] theorem setPci_flt (s : State) (fn : Nat) (f : PciFn → PciFn) : (setPci s fn f).flt = s.flt := rfl
@[simp] theorem setPci_repairs (s : State) (fn : Nat) (f : PciFn → PciFn) : (setPci s fn f).repairs = s.repairs := rfl
@[simp] theorem setPci_pwr (s : State) (fn : Nat) (f : PciFn → PciFn) : (setPci s fn f).pwr = s.pwr := rfl
@[simp] theorem setPci_sec (s : State) (fn : Nat) (f : PciFn → PciFn) : (setPci s fn f).sec = s.sec := rfl
@[simp] theorem setPci_mgmt (s : State) (fn : Nat) (f : PciFn → PciFn) : (setPci s fn f).mgmt = s.mgmt := rfl
@[simp] theorem setPci_pins (s : State) (fn : Nat) (f : PciFn → PciFn) : (setPci s fn f).pins = s.pins := rfl
@[simp] theorem setPci_out (s : State) (fn : Nat) (f : PciFn → PciFn) : (setPci s fn f).out = s.out := rfl

/-! ### setPcie -/

@[simp] theorem setPcie_pending (s : State) (f : Pcie → Pcie) : (setPcie s f).pending = s.pending := rfl
@[simp] theorem setPcie_free (s : State) (f : Pcie → Pcie) : (setPcie s f).free = s.free := rfl
@[simp] theorem setPcie_now (s : State) (f : Pcie → Pcie) : (setPcie s f).now = s.now := rfl
@[simp] theorem setPcie_boot (s : State) (f : Pcie → Pcie) : (setPcie s f).boot = s.boot := rfl
@[simp] theorem setPcie_queues (s : State) (f : Pcie → Pcie) : (setPcie s f).queues = s.queues := rfl
@[simp] theorem setPcie_parts (s : State) (f : Pcie → Pcie) : (setPcie s f).parts = s.parts := rfl
@[simp] theorem setPcie_streams (s : State) (f : Pcie → Pcie) : (setPcie s f).streams = s.streams := rfl
@[simp] theorem setPcie_cohorts (s : State) (f : Pcie → Pcie) : (setPcie s f).cohorts = s.cohorts := rfl
@[simp] theorem setPcie_field (s : State) (f : Pcie → Pcie) : (setPcie s f).field = s.field := rfl
@[simp] theorem setPcie_mem (s : State) (f : Pcie → Pcie) : (setPcie s f).mem = s.mem := rfl
@[simp] theorem setPcie_tick (s : State) (f : Pcie → Pcie) : (setPcie s f).tick = s.tick := rfl
@[simp] theorem setPcie_drill (s : State) (f : Pcie → Pcie) : (setPcie s f).drill = s.drill := rfl
@[simp] theorem setPcie_net (s : State) (f : Pcie → Pcie) : (setPcie s f).net = s.net := rfl
@[simp] theorem setPcie_fns (s : State) (f : Pcie → Pcie) : (setPcie s f).fns = s.fns := rfl
@[simp] theorem setPcie_pcie (s : State) (f : Pcie → Pcie) : (setPcie s f).pcie = f s.pcie := rfl
@[simp] theorem setPcie_shadow (s : State) (f : Pcie → Pcie) : (setPcie s f).shadow = s.shadow := rfl
@[simp] theorem setPcie_flt (s : State) (f : Pcie → Pcie) : (setPcie s f).flt = s.flt := rfl
@[simp] theorem setPcie_repairs (s : State) (f : Pcie → Pcie) : (setPcie s f).repairs = s.repairs := rfl
@[simp] theorem setPcie_pwr (s : State) (f : Pcie → Pcie) : (setPcie s f).pwr = s.pwr := rfl
@[simp] theorem setPcie_sec (s : State) (f : Pcie → Pcie) : (setPcie s f).sec = s.sec := rfl
@[simp] theorem setPcie_mgmt (s : State) (f : Pcie → Pcie) : (setPcie s f).mgmt = s.mgmt := rfl
@[simp] theorem setPcie_pins (s : State) (f : Pcie → Pcie) : (setPcie s f).pins = s.pins := rfl
@[simp] theorem setPcie_out (s : State) (f : Pcie → Pcie) : (setPcie s f).out = s.out := rfl

/-! ### setFlt -/

@[simp] theorem setFlt_pending (s : State) (f : Faults → Faults) : (setFlt s f).pending = s.pending := rfl
@[simp] theorem setFlt_free (s : State) (f : Faults → Faults) : (setFlt s f).free = s.free := rfl
@[simp] theorem setFlt_now (s : State) (f : Faults → Faults) : (setFlt s f).now = s.now := rfl
@[simp] theorem setFlt_boot (s : State) (f : Faults → Faults) : (setFlt s f).boot = s.boot := rfl
@[simp] theorem setFlt_queues (s : State) (f : Faults → Faults) : (setFlt s f).queues = s.queues := rfl
@[simp] theorem setFlt_parts (s : State) (f : Faults → Faults) : (setFlt s f).parts = s.parts := rfl
@[simp] theorem setFlt_streams (s : State) (f : Faults → Faults) : (setFlt s f).streams = s.streams := rfl
@[simp] theorem setFlt_cohorts (s : State) (f : Faults → Faults) : (setFlt s f).cohorts = s.cohorts := rfl
@[simp] theorem setFlt_field (s : State) (f : Faults → Faults) : (setFlt s f).field = s.field := rfl
@[simp] theorem setFlt_mem (s : State) (f : Faults → Faults) : (setFlt s f).mem = s.mem := rfl
@[simp] theorem setFlt_tick (s : State) (f : Faults → Faults) : (setFlt s f).tick = s.tick := rfl
@[simp] theorem setFlt_drill (s : State) (f : Faults → Faults) : (setFlt s f).drill = s.drill := rfl
@[simp] theorem setFlt_net (s : State) (f : Faults → Faults) : (setFlt s f).net = s.net := rfl
@[simp] theorem setFlt_fns (s : State) (f : Faults → Faults) : (setFlt s f).fns = s.fns := rfl
@[simp] theorem setFlt_pcie (s : State) (f : Faults → Faults) : (setFlt s f).pcie = s.pcie := rfl
@[simp] theorem setFlt_shadow (s : State) (f : Faults → Faults) : (setFlt s f).shadow = s.shadow := rfl
@[simp] theorem setFlt_flt (s : State) (f : Faults → Faults) : (setFlt s f).flt = f s.flt := rfl
@[simp] theorem setFlt_repairs (s : State) (f : Faults → Faults) : (setFlt s f).repairs = s.repairs := rfl
@[simp] theorem setFlt_pwr (s : State) (f : Faults → Faults) : (setFlt s f).pwr = s.pwr := rfl
@[simp] theorem setFlt_sec (s : State) (f : Faults → Faults) : (setFlt s f).sec = s.sec := rfl
@[simp] theorem setFlt_mgmt (s : State) (f : Faults → Faults) : (setFlt s f).mgmt = s.mgmt := rfl
@[simp] theorem setFlt_pins (s : State) (f : Faults → Faults) : (setFlt s f).pins = s.pins := rfl
@[simp] theorem setFlt_out (s : State) (f : Faults → Faults) : (setFlt s f).out = s.out := rfl

/-! ### setPwr -/

@[simp] theorem setPwr_pending (s : State) (f : Power → Power) : (setPwr s f).pending = s.pending := rfl
@[simp] theorem setPwr_free (s : State) (f : Power → Power) : (setPwr s f).free = s.free := rfl
@[simp] theorem setPwr_now (s : State) (f : Power → Power) : (setPwr s f).now = s.now := rfl
@[simp] theorem setPwr_boot (s : State) (f : Power → Power) : (setPwr s f).boot = s.boot := rfl
@[simp] theorem setPwr_queues (s : State) (f : Power → Power) : (setPwr s f).queues = s.queues := rfl
@[simp] theorem setPwr_parts (s : State) (f : Power → Power) : (setPwr s f).parts = s.parts := rfl
@[simp] theorem setPwr_streams (s : State) (f : Power → Power) : (setPwr s f).streams = s.streams := rfl
@[simp] theorem setPwr_cohorts (s : State) (f : Power → Power) : (setPwr s f).cohorts = s.cohorts := rfl
@[simp] theorem setPwr_field (s : State) (f : Power → Power) : (setPwr s f).field = s.field := rfl
@[simp] theorem setPwr_mem (s : State) (f : Power → Power) : (setPwr s f).mem = s.mem := rfl
@[simp] theorem setPwr_tick (s : State) (f : Power → Power) : (setPwr s f).tick = s.tick := rfl
@[simp] theorem setPwr_drill (s : State) (f : Power → Power) : (setPwr s f).drill = s.drill := rfl
@[simp] theorem setPwr_net (s : State) (f : Power → Power) : (setPwr s f).net = s.net := rfl
@[simp] theorem setPwr_fns (s : State) (f : Power → Power) : (setPwr s f).fns = s.fns := rfl
@[simp] theorem setPwr_pcie (s : State) (f : Power → Power) : (setPwr s f).pcie = s.pcie := rfl
@[simp] theorem setPwr_shadow (s : State) (f : Power → Power) : (setPwr s f).shadow = s.shadow := rfl
@[simp] theorem setPwr_flt (s : State) (f : Power → Power) : (setPwr s f).flt = s.flt := rfl
@[simp] theorem setPwr_repairs (s : State) (f : Power → Power) : (setPwr s f).repairs = s.repairs := rfl
@[simp] theorem setPwr_pwr (s : State) (f : Power → Power) : (setPwr s f).pwr = f s.pwr := rfl
@[simp] theorem setPwr_sec (s : State) (f : Power → Power) : (setPwr s f).sec = s.sec := rfl
@[simp] theorem setPwr_mgmt (s : State) (f : Power → Power) : (setPwr s f).mgmt = s.mgmt := rfl
@[simp] theorem setPwr_pins (s : State) (f : Power → Power) : (setPwr s f).pins = s.pins := rfl
@[simp] theorem setPwr_out (s : State) (f : Power → Power) : (setPwr s f).out = s.out := rfl

/-! ### setBoot -/

@[simp] theorem setBoot_pending (s : State) (f : Boot → Boot) : (setBoot s f).pending = s.pending := rfl
@[simp] theorem setBoot_free (s : State) (f : Boot → Boot) : (setBoot s f).free = s.free := rfl
@[simp] theorem setBoot_now (s : State) (f : Boot → Boot) : (setBoot s f).now = s.now := rfl
@[simp] theorem setBoot_boot (s : State) (f : Boot → Boot) : (setBoot s f).boot = f s.boot := rfl
@[simp] theorem setBoot_queues (s : State) (f : Boot → Boot) : (setBoot s f).queues = s.queues := rfl
@[simp] theorem setBoot_parts (s : State) (f : Boot → Boot) : (setBoot s f).parts = s.parts := rfl
@[simp] theorem setBoot_streams (s : State) (f : Boot → Boot) : (setBoot s f).streams = s.streams := rfl
@[simp] theorem setBoot_cohorts (s : State) (f : Boot → Boot) : (setBoot s f).cohorts = s.cohorts := rfl
@[simp] theorem setBoot_field (s : State) (f : Boot → Boot) : (setBoot s f).field = s.field := rfl
@[simp] theorem setBoot_mem (s : State) (f : Boot → Boot) : (setBoot s f).mem = s.mem := rfl
@[simp] theorem setBoot_tick (s : State) (f : Boot → Boot) : (setBoot s f).tick = s.tick := rfl
@[simp] theorem setBoot_drill (s : State) (f : Boot → Boot) : (setBoot s f).drill = s.drill := rfl
@[simp] theorem setBoot_net (s : State) (f : Boot → Boot) : (setBoot s f).net = s.net := rfl
@[simp] theorem setBoot_fns (s : State) (f : Boot → Boot) : (setBoot s f).fns = s.fns := rfl
@[simp] theorem setBoot_pcie (s : State) (f : Boot → Boot) : (setBoot s f).pcie = s.pcie := rfl
@[simp] theorem setBoot_shadow (s : State) (f : Boot → Boot) : (setBoot s f).shadow = s.shadow := rfl
@[simp] theorem setBoot_flt (s : State) (f : Boot → Boot) : (setBoot s f).flt = s.flt := rfl
@[simp] theorem setBoot_repairs (s : State) (f : Boot → Boot) : (setBoot s f).repairs = s.repairs := rfl
@[simp] theorem setBoot_pwr (s : State) (f : Boot → Boot) : (setBoot s f).pwr = s.pwr := rfl
@[simp] theorem setBoot_sec (s : State) (f : Boot → Boot) : (setBoot s f).sec = s.sec := rfl
@[simp] theorem setBoot_mgmt (s : State) (f : Boot → Boot) : (setBoot s f).mgmt = s.mgmt := rfl
@[simp] theorem setBoot_pins (s : State) (f : Boot → Boot) : (setBoot s f).pins = s.pins := rfl
@[simp] theorem setBoot_out (s : State) (f : Boot → Boot) : (setBoot s f).out = s.out := rfl

/-! ### setTick -/

@[simp] theorem setTick_pending (s : State) (f : Tick → Tick) : (setTick s f).pending = s.pending := rfl
@[simp] theorem setTick_free (s : State) (f : Tick → Tick) : (setTick s f).free = s.free := rfl
@[simp] theorem setTick_now (s : State) (f : Tick → Tick) : (setTick s f).now = s.now := rfl
@[simp] theorem setTick_boot (s : State) (f : Tick → Tick) : (setTick s f).boot = s.boot := rfl
@[simp] theorem setTick_queues (s : State) (f : Tick → Tick) : (setTick s f).queues = s.queues := rfl
@[simp] theorem setTick_parts (s : State) (f : Tick → Tick) : (setTick s f).parts = s.parts := rfl
@[simp] theorem setTick_streams (s : State) (f : Tick → Tick) : (setTick s f).streams = s.streams := rfl
@[simp] theorem setTick_cohorts (s : State) (f : Tick → Tick) : (setTick s f).cohorts = s.cohorts := rfl
@[simp] theorem setTick_field (s : State) (f : Tick → Tick) : (setTick s f).field = s.field := rfl
@[simp] theorem setTick_mem (s : State) (f : Tick → Tick) : (setTick s f).mem = s.mem := rfl
@[simp] theorem setTick_tick (s : State) (f : Tick → Tick) : (setTick s f).tick = f s.tick := rfl
@[simp] theorem setTick_drill (s : State) (f : Tick → Tick) : (setTick s f).drill = s.drill := rfl
@[simp] theorem setTick_net (s : State) (f : Tick → Tick) : (setTick s f).net = s.net := rfl
@[simp] theorem setTick_fns (s : State) (f : Tick → Tick) : (setTick s f).fns = s.fns := rfl
@[simp] theorem setTick_pcie (s : State) (f : Tick → Tick) : (setTick s f).pcie = s.pcie := rfl
@[simp] theorem setTick_shadow (s : State) (f : Tick → Tick) : (setTick s f).shadow = s.shadow := rfl
@[simp] theorem setTick_flt (s : State) (f : Tick → Tick) : (setTick s f).flt = s.flt := rfl
@[simp] theorem setTick_repairs (s : State) (f : Tick → Tick) : (setTick s f).repairs = s.repairs := rfl
@[simp] theorem setTick_pwr (s : State) (f : Tick → Tick) : (setTick s f).pwr = s.pwr := rfl
@[simp] theorem setTick_sec (s : State) (f : Tick → Tick) : (setTick s f).sec = s.sec := rfl
@[simp] theorem setTick_mgmt (s : State) (f : Tick → Tick) : (setTick s f).mgmt = s.mgmt := rfl
@[simp] theorem setTick_pins (s : State) (f : Tick → Tick) : (setTick s f).pins = s.pins := rfl
@[simp] theorem setTick_out (s : State) (f : Tick → Tick) : (setTick s f).out = s.out := rfl

/-! ### setChannel -/

@[simp] theorem setChannel_pending (s : State) (n : Nat) (f : Channel → Channel) : (setChannel s n f).pending = s.pending := rfl
@[simp] theorem setChannel_free (s : State) (n : Nat) (f : Channel → Channel) : (setChannel s n f).free = s.free := rfl
@[simp] theorem setChannel_now (s : State) (n : Nat) (f : Channel → Channel) : (setChannel s n f).now = s.now := rfl
@[simp] theorem setChannel_boot (s : State) (n : Nat) (f : Channel → Channel) : (setChannel s n f).boot = s.boot := rfl
@[simp] theorem setChannel_queues (s : State) (n : Nat) (f : Channel → Channel) : (setChannel s n f).queues = s.queues := rfl
@[simp] theorem setChannel_parts (s : State) (n : Nat) (f : Channel → Channel) : (setChannel s n f).parts = s.parts := rfl
@[simp] theorem setChannel_streams (s : State) (n : Nat) (f : Channel → Channel) : (setChannel s n f).streams = s.streams := rfl
@[simp] theorem setChannel_cohorts (s : State) (n : Nat) (f : Channel → Channel) : (setChannel s n f).cohorts = s.cohorts := rfl
@[simp] theorem setChannel_field (s : State) (n : Nat) (f : Channel → Channel) : (setChannel s n f).field = s.field := rfl
@[simp] theorem setChannel_mem (s : State) (n : Nat) (f : Channel → Channel) : (setChannel s n f).mem = s.mem := rfl
@[simp] theorem setChannel_tick (s : State) (n : Nat) (f : Channel → Channel) : (setChannel s n f).tick = s.tick := rfl
@[simp] theorem setChannel_drill (s : State) (n : Nat) (f : Channel → Channel) : (setChannel s n f).drill = modifyAt n f s.drill := rfl
@[simp] theorem setChannel_net (s : State) (n : Nat) (f : Channel → Channel) : (setChannel s n f).net = s.net := rfl
@[simp] theorem setChannel_fns (s : State) (n : Nat) (f : Channel → Channel) : (setChannel s n f).fns = s.fns := rfl
@[simp] theorem setChannel_pcie (s : State) (n : Nat) (f : Channel → Channel) : (setChannel s n f).pcie = s.pcie := rfl
@[simp] theorem setChannel_shadow (s : State) (n : Nat) (f : Channel → Channel) : (setChannel s n f).shadow = s.shadow := rfl
@[simp] theorem setChannel_flt (s : State) (n : Nat) (f : Channel → Channel) : (setChannel s n f).flt = s.flt := rfl
@[simp] theorem setChannel_repairs (s : State) (n : Nat) (f : Channel → Channel) : (setChannel s n f).repairs = s.repairs := rfl
@[simp] theorem setChannel_pwr (s : State) (n : Nat) (f : Channel → Channel) : (setChannel s n f).pwr = s.pwr := rfl
@[simp] theorem setChannel_sec (s : State) (n : Nat) (f : Channel → Channel) : (setChannel s n f).sec = s.sec := rfl
@[simp] theorem setChannel_mgmt (s : State) (n : Nat) (f : Channel → Channel) : (setChannel s n f).mgmt = s.mgmt := rfl
@[simp] theorem setChannel_pins (s : State) (n : Nat) (f : Channel → Channel) : (setChannel s n f).pins = s.pins := rfl
@[simp] theorem setChannel_out (s : State) (n : Nat) (f : Channel → Channel) : (setChannel s n f).out = s.out := rfl

/-! ### setSec -/

@[simp] theorem setSec_pending (s : State) (f : Security → Security) : (setSec s f).pending = s.pending := rfl
@[simp] theorem setSec_free (s : State) (f : Security → Security) : (setSec s f).free = s.free := rfl
@[simp] theorem setSec_now (s : State) (f : Security → Security) : (setSec s f).now = s.now := rfl
@[simp] theorem setSec_boot (s : State) (f : Security → Security) : (setSec s f).boot = s.boot := rfl
@[simp] theorem setSec_queues (s : State) (f : Security → Security) : (setSec s f).queues = s.queues := rfl
@[simp] theorem setSec_parts (s : State) (f : Security → Security) : (setSec s f).parts = s.parts := rfl
@[simp] theorem setSec_streams (s : State) (f : Security → Security) : (setSec s f).streams = s.streams := rfl
@[simp] theorem setSec_cohorts (s : State) (f : Security → Security) : (setSec s f).cohorts = s.cohorts := rfl
@[simp] theorem setSec_field (s : State) (f : Security → Security) : (setSec s f).field = s.field := rfl
@[simp] theorem setSec_mem (s : State) (f : Security → Security) : (setSec s f).mem = s.mem := rfl
@[simp] theorem setSec_tick (s : State) (f : Security → Security) : (setSec s f).tick = s.tick := rfl
@[simp] theorem setSec_drill (s : State) (f : Security → Security) : (setSec s f).drill = s.drill := rfl
@[simp] theorem setSec_net (s : State) (f : Security → Security) : (setSec s f).net = s.net := rfl
@[simp] theorem setSec_fns (s : State) (f : Security → Security) : (setSec s f).fns = s.fns := rfl
@[simp] theorem setSec_pcie (s : State) (f : Security → Security) : (setSec s f).pcie = s.pcie := rfl
@[simp] theorem setSec_shadow (s : State) (f : Security → Security) : (setSec s f).shadow = s.shadow := rfl
@[simp] theorem setSec_flt (s : State) (f : Security → Security) : (setSec s f).flt = s.flt := rfl
@[simp] theorem setSec_repairs (s : State) (f : Security → Security) : (setSec s f).repairs = s.repairs := rfl
@[simp] theorem setSec_pwr (s : State) (f : Security → Security) : (setSec s f).pwr = s.pwr := rfl
@[simp] theorem setSec_sec (s : State) (f : Security → Security) : (setSec s f).sec = f s.sec := rfl
@[simp] theorem setSec_mgmt (s : State) (f : Security → Security) : (setSec s f).mgmt = s.mgmt := rfl
@[simp] theorem setSec_pins (s : State) (f : Security → Security) : (setSec s f).pins = s.pins := rfl
@[simp] theorem setSec_out (s : State) (f : Security → Security) : (setSec s f).out = s.out := rfl

/-! ### setMgmt -/

@[simp] theorem setMgmt_pending (s : State) (f : Mgmt → Mgmt) : (setMgmt s f).pending = s.pending := rfl
@[simp] theorem setMgmt_free (s : State) (f : Mgmt → Mgmt) : (setMgmt s f).free = s.free := rfl
@[simp] theorem setMgmt_now (s : State) (f : Mgmt → Mgmt) : (setMgmt s f).now = s.now := rfl
@[simp] theorem setMgmt_boot (s : State) (f : Mgmt → Mgmt) : (setMgmt s f).boot = s.boot := rfl
@[simp] theorem setMgmt_queues (s : State) (f : Mgmt → Mgmt) : (setMgmt s f).queues = s.queues := rfl
@[simp] theorem setMgmt_parts (s : State) (f : Mgmt → Mgmt) : (setMgmt s f).parts = s.parts := rfl
@[simp] theorem setMgmt_streams (s : State) (f : Mgmt → Mgmt) : (setMgmt s f).streams = s.streams := rfl
@[simp] theorem setMgmt_cohorts (s : State) (f : Mgmt → Mgmt) : (setMgmt s f).cohorts = s.cohorts := rfl
@[simp] theorem setMgmt_field (s : State) (f : Mgmt → Mgmt) : (setMgmt s f).field = s.field := rfl
@[simp] theorem setMgmt_mem (s : State) (f : Mgmt → Mgmt) : (setMgmt s f).mem = s.mem := rfl
@[simp] theorem setMgmt_tick (s : State) (f : Mgmt → Mgmt) : (setMgmt s f).tick = s.tick := rfl
@[simp] theorem setMgmt_drill (s : State) (f : Mgmt → Mgmt) : (setMgmt s f).drill = s.drill := rfl
@[simp] theorem setMgmt_net (s : State) (f : Mgmt → Mgmt) : (setMgmt s f).net = s.net := rfl
@[simp] theorem setMgmt_fns (s : State) (f : Mgmt → Mgmt) : (setMgmt s f).fns = s.fns := rfl
@[simp] theorem setMgmt_pcie (s : State) (f : Mgmt → Mgmt) : (setMgmt s f).pcie = s.pcie := rfl
@[simp] theorem setMgmt_shadow (s : State) (f : Mgmt → Mgmt) : (setMgmt s f).shadow = s.shadow := rfl
@[simp] theorem setMgmt_flt (s : State) (f : Mgmt → Mgmt) : (setMgmt s f).flt = s.flt := rfl
@[simp] theorem setMgmt_repairs (s : State) (f : Mgmt → Mgmt) : (setMgmt s f).repairs = s.repairs := rfl
@[simp] theorem setMgmt_pwr (s : State) (f : Mgmt → Mgmt) : (setMgmt s f).pwr = s.pwr := rfl
@[simp] theorem setMgmt_sec (s : State) (f : Mgmt → Mgmt) : (setMgmt s f).sec = s.sec := rfl
@[simp] theorem setMgmt_mgmt (s : State) (f : Mgmt → Mgmt) : (setMgmt s f).mgmt = f s.mgmt := rfl
@[simp] theorem setMgmt_pins (s : State) (f : Mgmt → Mgmt) : (setMgmt s f).pins = s.pins := rfl
@[simp] theorem setMgmt_out (s : State) (f : Mgmt → Mgmt) : (setMgmt s f).out = s.out := rfl

/-! ### setEngine -/

@[simp] theorem setEngine_pending (s : State) (e : Nat) (f : Engine → Engine) : (setEngine s e f).pending = s.pending := rfl
@[simp] theorem setEngine_free (s : State) (e : Nat) (f : Engine → Engine) : (setEngine s e f).free = s.free := rfl
@[simp] theorem setEngine_now (s : State) (e : Nat) (f : Engine → Engine) : (setEngine s e f).now = s.now := rfl
@[simp] theorem setEngine_boot (s : State) (e : Nat) (f : Engine → Engine) : (setEngine s e f).boot = s.boot := rfl
@[simp] theorem setEngine_queues (s : State) (e : Nat) (f : Engine → Engine) : (setEngine s e f).queues = s.queues := rfl
@[simp] theorem setEngine_parts (s : State) (e : Nat) (f : Engine → Engine) : (setEngine s e f).parts = s.parts := rfl
@[simp] theorem setEngine_streams (s : State) (e : Nat) (f : Engine → Engine) : (setEngine s e f).streams = s.streams := rfl
@[simp] theorem setEngine_cohorts (s : State) (e : Nat) (f : Engine → Engine) : (setEngine s e f).cohorts = s.cohorts := rfl
@[simp] theorem setEngine_field (s : State) (e : Nat) (f : Engine → Engine) : (setEngine s e f).field = { s.field with engines := modifyAt e f s.field.engines } := rfl
@[simp] theorem setEngine_mem (s : State) (e : Nat) (f : Engine → Engine) : (setEngine s e f).mem = s.mem := rfl
@[simp] theorem setEngine_tick (s : State) (e : Nat) (f : Engine → Engine) : (setEngine s e f).tick = s.tick := rfl
@[simp] theorem setEngine_drill (s : State) (e : Nat) (f : Engine → Engine) : (setEngine s e f).drill = s.drill := rfl
@[simp] theorem setEngine_net (s : State) (e : Nat) (f : Engine → Engine) : (setEngine s e f).net = s.net := rfl
@[simp] theorem setEngine_fns (s : State) (e : Nat) (f : Engine → Engine) : (setEngine s e f).fns = s.fns := rfl
@[simp] theorem setEngine_pcie (s : State) (e : Nat) (f : Engine → Engine) : (setEngine s e f).pcie = s.pcie := rfl
@[simp] theorem setEngine_shadow (s : State) (e : Nat) (f : Engine → Engine) : (setEngine s e f).shadow = s.shadow := rfl
@[simp] theorem setEngine_flt (s : State) (e : Nat) (f : Engine → Engine) : (setEngine s e f).flt = s.flt := rfl
@[simp] theorem setEngine_repairs (s : State) (e : Nat) (f : Engine → Engine) : (setEngine s e f).repairs = s.repairs := rfl
@[simp] theorem setEngine_pwr (s : State) (e : Nat) (f : Engine → Engine) : (setEngine s e f).pwr = s.pwr := rfl
@[simp] theorem setEngine_sec (s : State) (e : Nat) (f : Engine → Engine) : (setEngine s e f).sec = s.sec := rfl
@[simp] theorem setEngine_mgmt (s : State) (e : Nat) (f : Engine → Engine) : (setEngine s e f).mgmt = s.mgmt := rfl
@[simp] theorem setEngine_pins (s : State) (e : Nat) (f : Engine → Engine) : (setEngine s e f).pins = s.pins := rfl
@[simp] theorem setEngine_out (s : State) (e : Nat) (f : Engine → Engine) : (setEngine s e f).out = s.out := rfl

/-! ### setHarrow -/

@[simp] theorem setHarrow_pending (s : State) (n : Nat) (f : Harrow → Harrow) : (setHarrow s n f).pending = s.pending := rfl
@[simp] theorem setHarrow_free (s : State) (n : Nat) (f : Harrow → Harrow) : (setHarrow s n f).free = s.free := rfl
@[simp] theorem setHarrow_now (s : State) (n : Nat) (f : Harrow → Harrow) : (setHarrow s n f).now = s.now := rfl
@[simp] theorem setHarrow_boot (s : State) (n : Nat) (f : Harrow → Harrow) : (setHarrow s n f).boot = s.boot := rfl
@[simp] theorem setHarrow_queues (s : State) (n : Nat) (f : Harrow → Harrow) : (setHarrow s n f).queues = s.queues := rfl
@[simp] theorem setHarrow_parts (s : State) (n : Nat) (f : Harrow → Harrow) : (setHarrow s n f).parts = s.parts := rfl
@[simp] theorem setHarrow_streams (s : State) (n : Nat) (f : Harrow → Harrow) : (setHarrow s n f).streams = s.streams := rfl
@[simp] theorem setHarrow_cohorts (s : State) (n : Nat) (f : Harrow → Harrow) : (setHarrow s n f).cohorts = s.cohorts := rfl
@[simp] theorem setHarrow_field (s : State) (n : Nat) (f : Harrow → Harrow) : (setHarrow s n f).field = { s.field with harrows := modifyAt n f s.field.harrows } := rfl
@[simp] theorem setHarrow_mem (s : State) (n : Nat) (f : Harrow → Harrow) : (setHarrow s n f).mem = s.mem := rfl
@[simp] theorem setHarrow_tick (s : State) (n : Nat) (f : Harrow → Harrow) : (setHarrow s n f).tick = s.tick := rfl
@[simp] theorem setHarrow_drill (s : State) (n : Nat) (f : Harrow → Harrow) : (setHarrow s n f).drill = s.drill := rfl
@[simp] theorem setHarrow_net (s : State) (n : Nat) (f : Harrow → Harrow) : (setHarrow s n f).net = s.net := rfl
@[simp] theorem setHarrow_fns (s : State) (n : Nat) (f : Harrow → Harrow) : (setHarrow s n f).fns = s.fns := rfl
@[simp] theorem setHarrow_pcie (s : State) (n : Nat) (f : Harrow → Harrow) : (setHarrow s n f).pcie = s.pcie := rfl
@[simp] theorem setHarrow_shadow (s : State) (n : Nat) (f : Harrow → Harrow) : (setHarrow s n f).shadow = s.shadow := rfl
@[simp] theorem setHarrow_flt (s : State) (n : Nat) (f : Harrow → Harrow) : (setHarrow s n f).flt = s.flt := rfl
@[simp] theorem setHarrow_repairs (s : State) (n : Nat) (f : Harrow → Harrow) : (setHarrow s n f).repairs = s.repairs := rfl
@[simp] theorem setHarrow_pwr (s : State) (n : Nat) (f : Harrow → Harrow) : (setHarrow s n f).pwr = s.pwr := rfl
@[simp] theorem setHarrow_sec (s : State) (n : Nat) (f : Harrow → Harrow) : (setHarrow s n f).sec = s.sec := rfl
@[simp] theorem setHarrow_mgmt (s : State) (n : Nat) (f : Harrow → Harrow) : (setHarrow s n f).mgmt = s.mgmt := rfl
@[simp] theorem setHarrow_pins (s : State) (n : Nat) (f : Harrow → Harrow) : (setHarrow s n f).pins = s.pins := rfl
@[simp] theorem setHarrow_out (s : State) (n : Nat) (f : Harrow → Harrow) : (setHarrow s n f).out = s.out := rfl

/-! ### setSub -/

@[simp] theorem setSub_pending (s : State) (h : Nat) (f : SubChannel → SubChannel) : (setSub s h f).pending = s.pending := rfl
@[simp] theorem setSub_free (s : State) (h : Nat) (f : SubChannel → SubChannel) : (setSub s h f).free = s.free := rfl
@[simp] theorem setSub_now (s : State) (h : Nat) (f : SubChannel → SubChannel) : (setSub s h f).now = s.now := rfl
@[simp] theorem setSub_boot (s : State) (h : Nat) (f : SubChannel → SubChannel) : (setSub s h f).boot = s.boot := rfl
@[simp] theorem setSub_queues (s : State) (h : Nat) (f : SubChannel → SubChannel) : (setSub s h f).queues = s.queues := rfl
@[simp] theorem setSub_parts (s : State) (h : Nat) (f : SubChannel → SubChannel) : (setSub s h f).parts = s.parts := rfl
@[simp] theorem setSub_streams (s : State) (h : Nat) (f : SubChannel → SubChannel) : (setSub s h f).streams = s.streams := rfl
@[simp] theorem setSub_cohorts (s : State) (h : Nat) (f : SubChannel → SubChannel) : (setSub s h f).cohorts = s.cohorts := rfl
@[simp] theorem setSub_field (s : State) (h : Nat) (f : SubChannel → SubChannel) : (setSub s h f).field = s.field := rfl
@[simp] theorem setSub_mem (s : State) (h : Nat) (f : SubChannel → SubChannel) : (setSub s h f).mem = { s.mem with channels := modifyAt h f s.mem.channels } := rfl
@[simp] theorem setSub_tick (s : State) (h : Nat) (f : SubChannel → SubChannel) : (setSub s h f).tick = s.tick := rfl
@[simp] theorem setSub_drill (s : State) (h : Nat) (f : SubChannel → SubChannel) : (setSub s h f).drill = s.drill := rfl
@[simp] theorem setSub_net (s : State) (h : Nat) (f : SubChannel → SubChannel) : (setSub s h f).net = s.net := rfl
@[simp] theorem setSub_fns (s : State) (h : Nat) (f : SubChannel → SubChannel) : (setSub s h f).fns = s.fns := rfl
@[simp] theorem setSub_pcie (s : State) (h : Nat) (f : SubChannel → SubChannel) : (setSub s h f).pcie = s.pcie := rfl
@[simp] theorem setSub_shadow (s : State) (h : Nat) (f : SubChannel → SubChannel) : (setSub s h f).shadow = s.shadow := rfl
@[simp] theorem setSub_flt (s : State) (h : Nat) (f : SubChannel → SubChannel) : (setSub s h f).flt = s.flt := rfl
@[simp] theorem setSub_repairs (s : State) (h : Nat) (f : SubChannel → SubChannel) : (setSub s h f).repairs = s.repairs := rfl
@[simp] theorem setSub_pwr (s : State) (h : Nat) (f : SubChannel → SubChannel) : (setSub s h f).pwr = s.pwr := rfl
@[simp] theorem setSub_sec (s : State) (h : Nat) (f : SubChannel → SubChannel) : (setSub s h f).sec = s.sec := rfl
@[simp] theorem setSub_mgmt (s : State) (h : Nat) (f : SubChannel → SubChannel) : (setSub s h f).mgmt = s.mgmt := rfl
@[simp] theorem setSub_pins (s : State) (h : Nat) (f : SubChannel → SubChannel) : (setSub s h f).pins = s.pins := rfl
@[simp] theorem setSub_out (s : State) (h : Nat) (f : SubChannel → SubChannel) : (setSub s h f).out = s.out := rfl

/-! ### setLink -/

@[simp] theorem setLink_pending (s : State) (n : Nat) (f : Link → Link) : (setLink s n f).pending = s.pending := rfl
@[simp] theorem setLink_free (s : State) (n : Nat) (f : Link → Link) : (setLink s n f).free = s.free := rfl
@[simp] theorem setLink_now (s : State) (n : Nat) (f : Link → Link) : (setLink s n f).now = s.now := rfl
@[simp] theorem setLink_boot (s : State) (n : Nat) (f : Link → Link) : (setLink s n f).boot = s.boot := rfl
@[simp] theorem setLink_queues (s : State) (n : Nat) (f : Link → Link) : (setLink s n f).queues = s.queues := rfl
@[simp] theorem setLink_parts (s : State) (n : Nat) (f : Link → Link) : (setLink s n f).parts = s.parts := rfl
@[simp] theorem setLink_streams (s : State) (n : Nat) (f : Link → Link) : (setLink s n f).streams = s.streams := rfl
@[simp] theorem setLink_cohorts (s : State) (n : Nat) (f : Link → Link) : (setLink s n f).cohorts = s.cohorts := rfl
@[simp] theorem setLink_field (s : State) (n : Nat) (f : Link → Link) : (setLink s n f).field = s.field := rfl
@[simp] theorem setLink_mem (s : State) (n : Nat) (f : Link → Link) : (setLink s n f).mem = s.mem := rfl
@[simp] theorem setLink_tick (s : State) (n : Nat) (f : Link → Link) : (setLink s n f).tick = s.tick := rfl
@[simp] theorem setLink_drill (s : State) (n : Nat) (f : Link → Link) : (setLink s n f).drill = s.drill := rfl
@[simp] theorem setLink_net (s : State) (n : Nat) (f : Link → Link) : (setLink s n f).net = { s.net with links := modifyAt n f s.net.links } := rfl
@[simp] theorem setLink_fns (s : State) (n : Nat) (f : Link → Link) : (setLink s n f).fns = s.fns := rfl
@[simp] theorem setLink_pcie (s : State) (n : Nat) (f : Link → Link) : (setLink s n f).pcie = s.pcie := rfl
@[simp] theorem setLink_shadow (s : State) (n : Nat) (f : Link → Link) : (setLink s n f).shadow = s.shadow := rfl
@[simp] theorem setLink_flt (s : State) (n : Nat) (f : Link → Link) : (setLink s n f).flt = s.flt := rfl
@[simp] theorem setLink_repairs (s : State) (n : Nat) (f : Link → Link) : (setLink s n f).repairs = s.repairs := rfl
@[simp] theorem setLink_pwr (s : State) (n : Nat) (f : Link → Link) : (setLink s n f).pwr = s.pwr := rfl
@[simp] theorem setLink_sec (s : State) (n : Nat) (f : Link → Link) : (setLink s n f).sec = s.sec := rfl
@[simp] theorem setLink_mgmt (s : State) (n : Nat) (f : Link → Link) : (setLink s n f).mgmt = s.mgmt := rfl
@[simp] theorem setLink_pins (s : State) (n : Nat) (f : Link → Link) : (setLink s n f).pins = s.pins := rfl
@[simp] theorem setLink_out (s : State) (n : Nat) (f : Link → Link) : (setLink s n f).out = s.out := rfl

/-! ### setPort -/

@[simp] theorem setPort_pending (s : State) (n : Nat) (f : Port → Port) : (setPort s n f).pending = s.pending := rfl
@[simp] theorem setPort_free (s : State) (n : Nat) (f : Port → Port) : (setPort s n f).free = s.free := rfl
@[simp] theorem setPort_now (s : State) (n : Nat) (f : Port → Port) : (setPort s n f).now = s.now := rfl
@[simp] theorem setPort_boot (s : State) (n : Nat) (f : Port → Port) : (setPort s n f).boot = s.boot := rfl
@[simp] theorem setPort_queues (s : State) (n : Nat) (f : Port → Port) : (setPort s n f).queues = s.queues := rfl
@[simp] theorem setPort_parts (s : State) (n : Nat) (f : Port → Port) : (setPort s n f).parts = s.parts := rfl
@[simp] theorem setPort_streams (s : State) (n : Nat) (f : Port → Port) : (setPort s n f).streams = s.streams := rfl
@[simp] theorem setPort_cohorts (s : State) (n : Nat) (f : Port → Port) : (setPort s n f).cohorts = s.cohorts := rfl
@[simp] theorem setPort_field (s : State) (n : Nat) (f : Port → Port) : (setPort s n f).field = s.field := rfl
@[simp] theorem setPort_mem (s : State) (n : Nat) (f : Port → Port) : (setPort s n f).mem = s.mem := rfl
@[simp] theorem setPort_tick (s : State) (n : Nat) (f : Port → Port) : (setPort s n f).tick = s.tick := rfl
@[simp] theorem setPort_drill (s : State) (n : Nat) (f : Port → Port) : (setPort s n f).drill = s.drill := rfl
@[simp] theorem setPort_net (s : State) (n : Nat) (f : Port → Port) : (setPort s n f).net = { s.net with ports := modifyAt n f s.net.ports } := rfl
@[simp] theorem setPort_fns (s : State) (n : Nat) (f : Port → Port) : (setPort s n f).fns = s.fns := rfl
@[simp] theorem setPort_pcie (s : State) (n : Nat) (f : Port → Port) : (setPort s n f).pcie = s.pcie := rfl
@[simp] theorem setPort_shadow (s : State) (n : Nat) (f : Port → Port) : (setPort s n f).shadow = s.shadow := rfl
@[simp] theorem setPort_flt (s : State) (n : Nat) (f : Port → Port) : (setPort s n f).flt = s.flt := rfl
@[simp] theorem setPort_repairs (s : State) (n : Nat) (f : Port → Port) : (setPort s n f).repairs = s.repairs := rfl
@[simp] theorem setPort_pwr (s : State) (n : Nat) (f : Port → Port) : (setPort s n f).pwr = s.pwr := rfl
@[simp] theorem setPort_sec (s : State) (n : Nat) (f : Port → Port) : (setPort s n f).sec = s.sec := rfl
@[simp] theorem setPort_mgmt (s : State) (n : Nat) (f : Port → Port) : (setPort s n f).mgmt = s.mgmt := rfl
@[simp] theorem setPort_pins (s : State) (n : Nat) (f : Port → Port) : (setPort s n f).pins = s.pins := rfl
@[simp] theorem setPort_out (s : State) (n : Nat) (f : Port → Port) : (setPort s n f).out = s.out := rfl

end Sys2Proof.Machine
end

