-- ==== Sys2Proof/Laws/Operations.lean ====
section
/-! SUPPORT. What the shared operations do, once each: keyed lists, unit updates, a command's start, a request's service, a write
to a function's window. -/

namespace Sys2Proof.Machine

/-! ### Keyed lists -/

/-- What has just been inserted is found. -/
theorem lookupKey_insertKey_same {α : Type} (k : Nat) (v : α) (xs : List (Nat × α)) : lookupKey k (insertKey k v xs) = some v := by
  induction xs with
  | nil => simp [insertKey, lookupKey]
  | cons a r ih =>
    simp only [insertKey]
    split
    · simp [lookupKey]
    · split
      · simp [lookupKey]
      · simp_all [lookupKey]

/-- Every other key keeps its entry. -/
theorem lookupKey_insertKey_other {α : Type} {k j : Nat} (v : α) (xs : List (Nat × α)) (h : j ≠ k) :
    lookupKey j (insertKey k v xs) = lookupKey j xs := by
  induction xs with
  | nil => simp [insertKey, lookupKey]; omega
  | cons a r ih =>
    simp only [insertKey]
    split
    · simp [lookupKey]; omega
    · split
      · rename_i h1 h2
        simp only [lookupKey]
        split <;> simp_all
      · simp only [lookupKey]
        split <;> simp_all

/-! ### Updates of one unit -/

/-- The unit that is updated. -/
theorem modifyAt_getD_same {α : Type} (f : α → α) (d : α) (xs : List α) : ∀ i : Nat, i < xs.length →
    (modifyAt i f xs).getD i d = f (xs.getD i d) := by
  induction xs with
  | nil => intro i h; simp at h
  | cons x xs ih =>
    intro i h
    cases i with
    | zero => simp [modifyAt]
    | succ i =>
      have := ih i (by simpa using h)
      simpa [modifyAt] using this

/-- Beyond the list nothing is updated. -/
theorem modifyAt_beyond {α : Type} (f : α → α) (xs : List α) : ∀ {i : Nat}, xs.length ≤ i → modifyAt i f xs = xs := by
  induction xs with
  | nil => intro i _; cases i <;> rfl
  | cons x xs ih =>
    intro i h
    cases i with
    | zero => simp at h
    | succ i => simp [modifyAt, ih (i := i) (by simpa using h)]

/-- The others. -/
theorem modifyAt_getD_other {α : Type} (f : α → α) (d : α) (xs : List α) : ∀ {i j : Nat}, j ≠ i →
    (modifyAt i f xs).getD j d = xs.getD j d := by
  induction xs with
  | nil => intro i j _; simp [modifyAt]
  | cons x xs ih =>
    intro i j h
    cases i with
    | zero =>
      cases j with
      | zero => exact absurd rfl h
      | succ j => simp [modifyAt]
    | succ i =>
      cases j with
      | zero => simp [modifyAt]
      | succ j =>
        have := ih (i := i) (j := j) (by omega)
        simpa [modifyAt] using this

theorem queueOf_setQueue_same (s : State) (q : Nat) (f : Queue → Queue) (h : q < s.queues.length) :
    queueOf (setQueue s q f) q = f (queueOf s q) := modifyAt_getD_same f _ _ q h

theorem queueOf_setQueue_other (s : State) {q r : Nat} (f : Queue → Queue) (h : r ≠ q) : queueOf (setQueue s q f) r = queueOf s r :=
  modifyAt_getD_other f _ _ h

theorem partOf_setPart_same (s : State) (p : Nat) (f : Partition → Partition) (h : p < s.parts.length) :
    partOf (setPart s p f) p = f (partOf s p) := modifyAt_getD_same f _ _ p h

theorem partOf_setPart_other (s : State) {p r : Nat} (f : Partition → Partition) (h : r ≠ p) : partOf (setPart s p f) r = partOf s r :=
  modifyAt_getD_other f _ _ h

theorem fnOf_setFn_same (s : State) (n : Nat) (f : Function → Function) (h : n < s.fns.length) : fnOf (setFn s n f) n = f (fnOf s n) :=
  modifyAt_getD_same f _ _ n h

theorem fnOf_setFn_other (s : State) {n r : Nat} (f : Function → Function) (h : r ≠ n) : fnOf (setFn s n f) r = fnOf s r :=
  modifyAt_getD_other f _ _ h

/-! ### A command of a queue -/

/-- What stands in CHECK. -/
theorem inCheck_some {s : State} {q op : Nat} {Q : Queue} {c : Cmd} (h : inCheck s q op = some (Q, c)) :
    queueOf s q = Q ∧ Q.cmd = some c ∧ Q.state = .check ∧ Q.result = none ∧ hOpcode c.hdr = op ∧ (pciFn s Q.cfg.owner).d3hot = false
      ∧ headerTransit s Q.cfg.part c = false := by
  simp only [inCheck] at h
  split at h
  · split at h
    · rename_i h1 h2 h3 h4
      cases h
      exact ⟨rfl, h2, h1, h3, h4⟩
    · cases h
  · cases h

/-- A command that starts runs its effect. -/
theorem runCommand_starts {s : State} {q op : Nat} {checks : State → Queue → Cmd → List (Bool × Fail)} {Q : Queue} {c : Cmd}
    (eff : State → Queue → Cmd → State) (h : starts s q op checks Q c) : runCommand s q op checks eff = eff (running s q c) Q c := by
  obtain ⟨h1, h2, h3⟩ := h
  obtain ⟨rfl, -⟩ := inCheck_some h1
  simp [runCommand, h1, h2, h3, running]

/-- One that fails a check has that status, and no more. -/
theorem runCommand_fails {s : State} {q op : Nat} {checks : State → Queue → Cmd → List (Bool × Fail)} {Q : Queue} {c : Cmd} {f : Fail}
    (eff : State → Queue → Cmd → State) (h1 : inCheck s q op = some (Q, c)) (h2 : firstFail (checks (atChecks s q Q c) Q c) = some f) :
    runCommand s q op checks eff = setResult (atChecks s q Q c) q (failResult f 0) := by
  simp [runCommand, h1, h2]

/-- One that does not stand in CHECK changes nothing. -/
theorem runCommand_waits {s : State} {q op : Nat} (checks : State → Queue → Cmd → List (Bool × Fail)) (eff : State → Queue → Cmd → State)
    (h : inCheck s q op = none) : runCommand s q op checks eff = s := by
  simp [runCommand, h]

/-! ### A request in a mailbox -/

/-- A request whose checks pass is carried out and replied. -/
theorem serve_asked {s : State} {fn m code : Nat} {bs : List Byte} (run : State → Asked → Option Reply × State) (h : asked s fn m code bs) :
    serve s fn m code run = (match run (taken s fn m) (asking s fn m bs) with
      | (some r, x) => answer x fn m r
      | (none, x) => x) := by
  obtain ⟨h1, h2, h3, h4, h5, h6, h7, h8, h9⟩ := h
  have hm : takenMbx s fn m = { mbxOf s fn m with state := .taken } ∨ takenMbx s fn m = mbxOf s fn m := by
    unfold takenMbx takenBox setMbx mbxOf
    by_cases hf : fn < s.fns.length
    · rw [fnOf_setFn_same s fn _ hf]
      by_cases hk : m < (fnOf s fn).mailboxes.length
      · exact .inl (modifyAt_getD_same _ _ _ m hk)
      · exact .inr (by simp only [modifyAt_beyond _ _ (Nat.le_of_not_lt hk)])
    · exact .inr (by simp only [fnOf, setFn_fns, modifyAt_beyond _ _ (Nat.le_of_not_lt hf)])
  have hc : reqCode (takenMbx s fn m) = code := by
    rcases hm with h | h <;> rw [h]
    · exact h5
    · exact h5
  have go : carryOut (takenBox s fn m) fn m run = (match run (taken s fn m) (asking s fn m bs) with
      | (some r, x) => answer x fn m r
      | (none, x) => x) := by
    have ht : (if (takenMbx s fn m).begun then takenBox s fn m else useBody (takenBox s fn m) fn (takenMbx s fn m)) = taken s fn m := rfl
    have hb : mbxOf (takenBox s fn m) fn m = takenMbx s fn m := rfl
    simp only [carryOut, hb, ht, h7, h8, hc, h9, asking]
    rfl
  unfold serve
  simp only [h1, h2, h3, h4, h5, h6]
  simpa [takenBox] using go

/-! ### A write to a function's window -/

/-- A write that reaches the window acts. -/
theorem barWrite_reaches {s : State} {fn : Nat} (act : State → State) (h : canWrite s fn) : barWrite s fn act = act s := by
  obtain ⟨h1, h2, h3, h4, h5⟩ := h
  unfold barWrite
  rw [if_neg (by simp [h1, h2, h3, h4])]
  rcases h5 with h5 | h5 <;> simp [h5]

/-- A window that is shut takes no write. -/
theorem barWrite_shut {s : State} {fn : Nat} (act : State → State)
    (h : s.boot.dev ≠ .run ∨ s.pcie.linkUp = false ∨ (pciFn s fn).enabled = false ∨ 5 ≤ fn) : barWrite s fn act = s := by
  unfold barWrite
  rw [if_pos]
  rcases h with h | h | h | h <;> simp_all

end Sys2Proof.Machine
end

