-- ==== Sys2Proof/WellFormed.lean ====
section
/-! DEFINITION. Which commands can arise at all: operands within the numbering of the units they name and within the widths of
the fields that carry them. -/

namespace Sys2Proof

/-- A queue (R64). -/
def qOk (q : Nat) : Bool := decide (q < 256)

/-- A function: the physical one or VF 1 to 4 (R430). -/
def fnOk (fn : Nat) : Bool := decide (fn < 5)

/-- A writer of doorbells (R66). -/
def senderOk : Sender → Bool
  | .function fn => fnOk fn
  | .tender f => decide (f < 96)

/-- A unit within its numbering (Table 24-7). -/
def unitOk : FailUnit → Bool
  | .engine e => decide (e < 192)
  | .furrow f => decide (f < 96)
  | .link l => decide (l < 172)
  | .frame n => decide (n < 96 * 768)
  | .slice n => decide (n < 96)
  | .channel h => decide (h < 192)
  | .block b => decide (b < 2 ^ 16)
  | .buffer n => decide (n < 16)

/-- The fields of a signed header within their widths (Table 22-2). -/
def headWf (h : Signed) : Bool :=
  decide (h.magic < 2 ^ 32) && decide (h.kind < 256) && decide (h.root < 256) && decide (h.svn < 2 ^ 32) && decide (h.bodyLen < 2 ^ 64)
    && decide (h.boundKey < 2 ^ 256) && h.digest.length == 48

/-- A profile enables 96 or 48 furrows, 4 or 2 ports and 6 or 4 stacks (R2), the 48 furrows from a column up to 6 (R22), and has a
MAC address for each link. -/
def profileOk (p : Profile) : Bool :=
  headWf p.head && (p.furrows == 96 || (p.furrows == 48 && decide (p.firstCol ≤ 6))) && (p.ports == 4 || p.ports == 2)
    && (p.hbmStacks == 6 || p.hbmStacks == 4) && p.macs.length == 8

/-- An image descriptor within its widths (R504). -/
def imageOk (i : Image) : Bool :=
  headWf i.head && decide (i.entry < 2 ^ 64) && decide (i.handoff < 2 ^ 16) && decide (i.handoffMin < 2 ^ 16) && decide (i.handoffMax < 2 ^ 16)

/-- What margining finds, within the widths of Table 14-3. -/
def marginOk (f : Margin) : Bool :=
  decide (f.width0 < 256) && decide (f.width1 < 256) && decide (f.height0 < 256) && decide (f.height1 < 256) && decide (f.failed < 2 ^ 32)
    && decide (f.spares < 2 ^ 16)

/-- A configuration register: the ranges are those of Selective IDE streams 0 to 3 (R443). -/
def regOk : CfgReg → Bool
  | .ideFirstFn i => decide (i < 4)
  | .ideLastFn i => decide (i < 4)
  | .ideFirstAddr i => decide (i < 4)
  | .ideLastAddr i => decide (i < 4)
  | .vendorDevice => true
  | .classCode => true
  | .command => true
  | .bar0 => true
  | .totalVfs => true
  | .initialVfs => true
  | .supported _ => true
  | .enable _ => true
  | .maxPayload => true
  | .maxReadRequest => true
  | .firstVfOffset => true
  | .vfStride => true
  | .numVfs => true
  | .vfEnable => true
  | .other _ => true

/-- The SHA-384 digest of a requester's root certificate (R492). -/
def rootOk : Option Nat → Bool
  | some d => decide (d < 2 ^ 384)
  | none => true

/-- Whether a command's operands are ones that the device can be sent. -/
def wellFormed : Instr → Bool
  | .nop q => qOk q
  | .fenceSignal q => qOk q
  | .fenceReset q => qOk q
  | .timestamp q => qOk q
  | .mxGemm q => qOk q
  | .conv2d q => qOk q
  | .pool q => qOk q
  | .scanLinear q => qOk q
  | .recurCell q => qOk q
  | .attend q => qOk q
  | .eltwise q => qOk q
  | .normRow q => qOk q
  | .softmaxRow q => qOk q
  | .sample q => qOk q
  | .seedSet q => qOk q
  | .drillCopy q => qOk q
  | .drillChain q => qOk q
  | .drillVisible q => qOk q
  | .windowFill q => qOk q
  | .plotMove q => qOk q
  | .streamCreate q => qOk q
  | .streamFork q => qOk q
  | .streamPark q => qOk q
  | .streamResume q => qOk q
  | .streamExport q => qOk q
  | .streamImport q => qOk q
  | .streamRetire q => qOk q
  | .swathStep q => qOk q
  | .pagePin q => qOk q
  | .netSend q => qOk q
  | .netRecv q => qOk q
  | .netBarrier q => qOk q
  | .netMigrate q => qOk q
  | .queueFetch q => qOk q
  | .commandCommit q => qOk q
  | .workItemTake harrow i => decide (i < if harrow then 96 else 192)
  | .tileDrain e => decide (e < 192)
  | .splitkArrival e => decide (e < 192)
  | .splitkReduce q _ => qOk q
  | .scanPhase2 q _ => qOk q
  | .streamTransitDone id => decide (id < 2 ^ 20)
  | .windowFenceRelease q => qOk q
  | .plotMoveCommit p _ => decide (p < 4)
  | .migrationEpoch => true
  | .wcbIdleTimeout _ => true
  | .patrolScrub _ found => decide (found ≤ 2)
  | .farFieldTimeout q => qOk q
  | .drillBusError n _ _ => decide (n < 16)
  | .drillChannelGrant n => decide (n < 16)
  | .doorbellWrite sender q size val => senderOk sender && qOk q && decide (1 ≤ size) && decide (val < 2 ^ (8 * size))
  | .fenceWrite fn off size val => fnOk fn && decide (off < 2 ^ 20) && decide (1 ≤ size) && decide (val < 2 ^ (8 * size))
  | .queAbort fn val => fnOk fn && decide (val < 2 ^ 64)
  | .queDispatchClear fn => fnOk fn
  | .queErrorsClear fn => fnOk fn
  | .drillChannelDisable fn n => fnOk fn && decide (n < 16)
  | .drillChannelEnable fn n => fnOk fn && decide (n < 16)
  | .drillChannelResume fn n => fnOk fn && decide (n < 16)
  | .drillClrCounts fn n => fnOk fn && decide (n < 16)
  | .qpCreate fn => fnOk fn
  | .qpDestroy fn qp => fnOk fn && decide (qp < 4096)
  | .qpReset fn qp => fnOk fn && decide (qp < 4096)
  | .netLinkAddrWrite fn n high => fnOk fn && decide (n < 8) && decide (high < 2 ^ 64)
  | .netPortCfgWrite fn n val => fnOk fn && decide (n < 4) && decide (val < 2 ^ 64)
  | .bootGo fn => fnOk fn
  | .msixUnmask fn entry => fnOk fn && decide (entry < 64)
  | .mbxPost fn m => fnOk fn && decide (m < 8)
  | .mbxRelease fn m => fnOk fn && decide (m < 8)
  | .registerWrite fn off size val _ => fnOk fn && decide (off < 2 ^ 20) && decide (1 ≤ size) && decide (val < 2 ^ (8 * size))
  | .shadowPageUpdate fn page => fnOk fn && decide (page < 64)
  | .fwInfo fn m => fnOk fn && decide (m < 8)
  | .fwUpdate fn m found => fnOk fn && decide (m < 8) && (match found with | .image i => imageOk i | .busError => true | .timeout => true)
  | .updateQuiesced => true
  | .updateSwitch => true
  | .updateRestored => true
  | .partitionConfig fn m => fnOk fn && decide (m < 8)
  | .partitionRemove fn m => fnOk fn && decide (m < 8)
  | .queueEnable fn m => fnOk fn && decide (m < 8)
  | .queueDisable fn m => fnOk fn && decide (m < 8)
  | .queueResume fn m => fnOk fn && decide (m < 8)
  | .queueAbort fn m => fnOk fn && decide (m < 8)
  | .layoutSet fn m => fnOk fn && decide (m < 8)
  | .streamQuery fn m => fnOk fn && decide (m < 8)
  | .kvPoolSet fn m => fnOk fn && decide (m < 8)
  | .kvQuery fn m => fnOk fn && decide (m < 8)
  | .plotMap fn m => fnOk fn && decide (m < 8)
  | .plotUnmap fn m => fnOk fn && decide (m < 8)
  | .plotQuery fn m => fnOk fn && decide (m < 8)
  | .windowSet fn m => fnOk fn && decide (m < 8)
  | .hbmRepairMargin fn m found => fnOk fn && decide (m < 8) && marginOk found
  | .tickConfig fn m => fnOk fn && decide (m < 8)
  | .blobKeySet fn m => fnOk fn && decide (m < 8)
  | .pwrConfig fn m => fnOk fn && decide (m < 8)
  | .inject fn m => fnOk fn && decide (m < 8)
  | .bistRun fn m failing => fnOk fn && decide (m < 8) && failing.all unitOk
  | .injectArm slot => decide (slot < 16)
  | .syncInEdge _ => true
  | .ptpBoundary port _ => decide (port < 4)
  | .localTick => true
  | .tickWindowClose => true
  | .estimationInterval _ => true
  | .slewWindow => true
  | .droopTrip f => decide (f < 96)
  | .droopRelease f => decide (f < 96)
  | .vrAlertAssert _ => true
  | .vrAlertDeassert => true
  | .vrAlertHoldEnd => true
  | .thermalSample _ _ => true
  | .faultLatch unit det => unitOk unit && decide (det < 0x20)
  | .faultSettleDone => true
  | .faultRelease => true
  | .bistSlice => true
  | .bistTargetTest col _ => decide (col < 12)
  | .watchdogExpiry reeve _ held => decide (reeve < 4) && (match held with | some (fn, m) => fnOk fn && decide (m < 8) | none => true)
  | .watchdogRecoveryDone reeve _ => decide (reeve < 4)
  | .perstAssert => true
  | .perstRelease strap => decide (strap < 4)
  | .clockLock => true
  | .mgmtFrontEndReady => true
  | .loamZeroDone => true
  | .pcieLinkUp speed width flit => decide (1 ≤ speed) && decide (speed ≤ 7) && [1, 2, 4, 8, 16].contains width && (decide (speed < 6) || flit)
  | .bootFetchDone profile image => profileOk profile && imageOk image
  | .startupTestDone failing => failing.all unitOk
  | .fwAliveSet => true
  | .fwReadySet => true
  | .railFault => true
  | .configRequest fn reg write => fnOk fn && regOk reg && (match write with | some v => decide (v < 2 ^ 64) | none => true)
  | .functionLevelReset fn => fnOk fn
  | .hotReset => true
  | .d3hotEntry fn => fnOk fn
  | .hostCompletionError q => qOk q
  | .ideKm _ stream op => decide (stream < 5) && (match op with | .program k => decide (k < 2 ^ 256) | .go => true | .stop => true)
  | .ethLinkUp n => decide (n < 8)
  | .ethLinkDown n => decide (n < 8)
  | .rdmaWriteInbound n key addr _ => decide (n < 4096) && decide (key < 2 ^ 32) && decide (addr < 2 ^ 64)
  | .rdmaReadInbound n key addr _ => decide (n < 4096) && decide (key < 2 ^ 32) && decide (addr < 2 ^ 64)
  | .sendInbound n _ => decide (n < 4096)
  | .writeImmInbound n key addr imm _ => decide (n < 4096) && decide (key < 2 ^ 32) && decide (addr < 2 ^ 64) && decide (imm < 2 ^ 32)
  | .barrierTokenInbound n imm _ => decide (n < 4096) && decide (imm < 2 ^ 32)
  | .ackReceived n => decide (n < 4096)
  | .nakReceived n => decide (n < 4096)
  | .ackTimeout n => decide (n < 4096)
  | .ptpSyncMessage port _ => decide (port < 4)
  | .announceTimeout port => decide (port < 4)
  | .mkaFrame n _ sak => decide (n < 8) && decide (sak < 2 ^ 256)
  | .setEndpointId _ eid => decide (eid < 256)
  | .getEndpointId _ => true
  | .getEndpointUuid _ => true
  | .getMctpVersionSupport _ => true
  | .getMessageTypeSupport _ => true
  | .i3cDynamicAddress addr => decide (0 < addr) && decide (addr < 128)
  | .getTid _ => true
  | .setTid _ tid => decide (tid < 256)
  | .getPldmVersion _ kind => decide (kind < 64)
  | .getPldmTypes _ => true
  | .getPldmCommands _ kind => decide (kind < 64)
  | .getPdrRepositoryInfo _ => true
  | .getPdr _ _ => true
  | .getSensorReading _ _ => true
  | .getStateSensorReadings _ _ => true
  | .setEventReceiver _ eid => decide (eid < 256)
  | .getFruRecordTableMetadata _ => true
  | .getFruRecordTable _ => true
  | .getVersion _ => true
  | .getCapabilities _ _ => true
  | .negotiateAlgorithms _ _ => true
  | .getDigests _ => true
  | .getCertificate _ slot _ _ => decide (slot < 8)
  | .challenge _ slot nonce => decide (slot < 8) && nonce.length == 32
  | .getMeasurements _ _ index nonce => decide (index < 256) && (match nonce with | some bs => bs.length == 32 | none => true)
  | .keyExchange _ root => rootOk root
  | .finish _ _ root _ => rootOk root
  | .endSession _ _ => true
  | .heartbeat _ _ => true
  | .keyUpdate _ _ => true
  | .chunkSend _ _ _ _ => true
  | .chunkGet _ _ => true
  | .ownerBind _ => true
  | .wrapKeySet _ p key => decide (p < 4) && decide (key < 2 ^ 256)
  | .policySet _ ide macsec svn => decide (ide < 16) && decide (macsec < 256) && decide (svn < 2 ^ 32)
  | .cakSet _ link ckn cak => decide (link < 8) && decide (ckn < 2 ^ 128) && decide (cak < 2 ^ 256)
  | .jtagInstruction _ _ => true
  | .returnToD0 fn => fnOk fn
  | .functionReadinessStatus fn => fnOk fn
  | .ideCheckFail stream => decide (stream < 5)
  | .doeDiscovery _ => true
  | .randomSourceHealthTestsDone _ => true
  | .bootFetchTimeout => true
  | .unsupportedPacketDrop n => decide (n < 8)
  | .macsecVerifyFail n => decide (n < 8)
  | .congestionNotification n => decide (n < 8)
  | .priorityFlowControl port _ => decide (port < 4)

end Sys2Proof
end

