-- ==== Sys2Proof/Tests/Slice0.lean ====
section
/-! SUPPORT. Tests: ill-formed commands are refused, values of the spec's worked examples, and for each statement with hypotheses states
and operands that meet them (wit_<statement>). -/

set_option maxRecDepth 100000
set_option Elab.async false

namespace Sys2Proof.Tests

open Sys2Proof Sys2Proof.Machine

/-! ### A device at work -/

/-- A word with values in its fields: (lowest bit, value). -/
def word (fs : List (Nat × Nat)) : Nat := fs.foldl (fun n x => n + x.2 * 2 ^ x.1) 0

/-- Its bytes from an offset of zero. -/
def bytes (n : Nat) (fs : List (Nat × Nat)) : List Byte := toLe n (word (fs.map fun x => (8 * x.1, x.2)))

/-- A profile of a whole part. -/
def wholeProfile : Profile :=
  { head := ⟨0, 0, 0, 0, 0, 0, 7, 0, true, []⟩, furrows := 96, firstCol := 0, ports := 4, hbmStacks := 6, macs := [], volts := [],
    micros := [], chain := [1, 2, 3] }

/-- A plot in a loam frame, readable and writable. -/
def plotAt (h : Home) : Plot :=
  { home := h, anchor := none, read := true, write := true, auto := false, moving := false, uses := 0, lastUse := 0 }

/-- Partition 0: all of the field, the physical function, sixteen plots in slice 0. -/
def home : Partition :=
  { noPartition with
    configured := true
    cfg := { noPartCfg with
      bindPf := true, cols := 12, drillMask := 0xFFFF, groupMask := 0xFFFFFF, queues := 256, streams := 4096, quotaLoam := 10000,
      quotaSub := 10000, quotaFar := 16, regRate := 64, regBurst := 1024, hostTimeout := 1, remoteTimeout := 1,
      moveLimit := 4, beBound := 100 }
    plots := (List.range 16).map fun i => (i + 1, plotAt (.loam i))
    key := some 5 }

/-- A device that runs with its firmware, 1 ms after PERST#. -/
def live : State :=
  { State.reset with
    now := 1000000
    boot := { noBoot with
      dev := .run, clocks := true, loamZeroed := true, rngDone := true, rngOk := true, st := .running, profile := some wholeProfile
      identity := some 7, fwAlive := true, fwReady := true }
    parts := home :: List.replicate 3 noPartition
    pcie := { noPcie with linkUp := true, trained := true, fns := List.replicate 5 { noPciFn with enabled := true, bme := true } }
    pwr := { noPower with aclk := 1400, vdd := 800 }
    mgmt := { noMgmt with ready := true, i3c := some 9, eid := some 12 } }

/-- A command of an opcode, without flags. -/
def cmdOf (op units body : Nat) (flags : List (Nat × Nat)) : Cmd := newCmd (word ([(0, op), (16, units)] ++ flags)) body

/-- Queue 1 of an engine kind with a command in CHECK. -/
def checking (s : State) (kind : Nat) (c : Cmd) : State :=
  { s with
    queues := noQueue :: { noQueue with
      cfg := { noQueueCfg with kind := kind, ringLog2 := 16, base := 0x100000 }, state := .check, tail := 10, seq := 3, cmd := some c }
        :: List.replicate 254 noQueue }

/-- Bytes placed in device memory by plot 1's frame: device virtual addresses from 0x10000 are frame 0 on. -/
def holding (s : State) (xs : List (Nat × List Byte)) : State :=
  { s with mem := { s.mem with phys := xs.foldl (fun m x => memWrite m (loamAddr 0 + (x.1 - 0x10000)) x.2) s.mem.phys } }

/-- Partition 0 with layout 0 of one record of 64 BF16 values and a KV pool, and a stream. -/
def withStream (st : Stream) : State :=
  { live with
    streams := [(0, st)]
    parts := { home with
      layouts := [(0, { model := 0, records := [⟨64, 1, false⟩] })]
      pools := [(0, { fmtKv := 1, fmtX := 1, hkv := 1, dh := 64, inDim := 8, layers := 2, pages := 16, loamSlots := 8, subSlots := 8,
                      dirUnits := 4, loamFrames := [100], subFrames := [0], recs := [], unitsUsed := [], counts := ⟨0, 0, 0, 0, 0, 0, 0, 0⟩ })]
      } :: List.replicate 3 noPartition }

/-- Stream 0 IDLE, RESIDENT, and PARKED. -/
def idleStream : State := withStream (newStream 0 0 0 0 7)
def resident : State := (toResident idleStream 0).2
def parked : State := withStream { newStream 0 0 0 0 7 with st := .parked, image := [300], imageAddr := loamAddr 300 }

/-- A command on drill channel 0, which it holds. -/
def drilling (s : State) (c : Cmd) : State :=
  { checking s 2 c with drill := { noChannel with part := some 0, disable := false, st := .run, cur := some 1 } :: List.replicate 15 noChannel }

/-- Window 0 over plots 32 and 33, of depth 1. -/
def windowed (w : WinState) : State :=
  setPart live 0 fun P => { P with
    windows := [(0, { base := 32, positions := 2, slotPlots := 1, slots := [⟨[200], w, []⟩], fills := 0 })]
    plots := P.plots ++ [(32, { plotAt (.window 0) with write := false }), (33, { plotAt (.window 0) with write := false })] }

/-- The tick unit in TRACK, with tick 4 latched at time 0. -/
def ticking (s : State) : State :=
  { s with tick := { noTick with
      st := .track, source := 3, pnom := 1000000, pn := 1000000, slew := 100, holdover := 2, next := 1000000, latches := [(4, 0)] } }

/-- Queue pair 2 on link 0, which is up. -/
def paired (s : State) : State :=
  { s with net := { noNet with
      qps := [(2, newQp 0 (word [(398, 5), (403, 3), (406, 1), (407, 1), (416, 0x10000), (464, 0x1000)]) 99)]
      links := List.replicate 8 { noLink with up := true } } }

/-- Whether a queue's command starts, as a test. -/
def startsNow (s : State) (q op : Nat) (checks : State → Queue → Cmd → List (Bool × Fail)) : Bool :=
  match inCheck s q op with
  | some (Q, c) => (firstFail (checks (atChecks s q Q c) Q c)).isNone && (beHeld (atChecks s q Q c) Q).isNone
  | none => false

theorem starts_of {s : State} {q op : Nat} {checks : State → Queue → Cmd → List (Bool × Fail)} {c : Cmd} (hc : (queueOf s q).cmd = some c)
    (h : startsNow s q op checks = true) : starts s q op checks (queueOf s q) c := by
  unfold startsNow at h
  split at h
  · rename_i Q d hd
    have hq := inCheck_some hd
    obtain ⟨rfl, h2, _⟩ := hq
    rw [hc] at h2
    cases h2
    simp only [Bool.and_eq_true, Option.isNone_iff_eq_none] at h
    exact ⟨hd, h.1, h.2⟩
  · cases h

/-- Whether a result is a given value. -/
def okIs {α : Type} [DecidableEq α] (x : Except Fail α) (v : α) : Bool := match x with | .ok a => decide (a = v) | .error _ => false

theorem ok_of_is {α : Type} [DecidableEq α] {x : Except Fail α} {v : α} (h : okIs x v = true) : x = .ok v := by
  unfold okIs at h
  split at h
  · rename_i a
    rw [of_decide_eq_true h]
  · cases h

theorem starts_of_now {s : State} {q op : Nat} {checks : State → Queue → Cmd → List (Bool × Fail)} (h : startsNow s q op checks = true) :
    ∃ Q c, starts s q op checks Q c := by
  unfold startsNow at h
  split at h
  · rename_i Q c hc
    simp only [Bool.and_eq_true, Option.isNone_iff_eq_none] at h
    exact ⟨Q, c, hc, h.1, h.2⟩
  · cases h

/-- The value of a result, or a value where it failed. -/
def okOr {α : Type} (x : Except Fail α) (d : α) : α := match x with | .ok a => a | .error _ => d
def isOkB {α : Type} (x : Except Fail α) : Bool := match x with | .ok _ => true | .error _ => false
theorem ok_or {α : Type} {x : Except Fail α} {d : α} (h : isOkB x = true) : x = .ok (okOr x d) := by
  cases x with
  | ok a => rfl
  | error f => cases h

/-! ### Well-formed commands -/

def badHead : Signed := { magic := 2 ^ 32, kind := 1, root := 0, reserved := 0, svn := 0, bodyLen := 0, boundKey := 0, length := 0, signed := true, digest := [] }
def goodHead : Signed := { badHead with magic := 0x5A525448, digest := List.replicate 48 0 }
def goodProfile : Profile := { wholeProfile with head := goodHead, macs := List.replicate 8 0 }
def goodImage : Image := { head := goodHead, entry := 0, segments := [], handoff := 1, handoffMin := 1, handoffMax := 1, reserved := 0 }

theorem test_ill_formed_refused : ([.nop 256, .bootGo 5, .doorbellWrite (.tender 96) 0 4 0, .doorbellWrite (.function 5) 0 4 0,
    .doorbellWrite (.function 0) 0 1 256, .faultLatch (.engine 192) 0, .faultLatch (.furrow 96) 0, .faultLatch (.link 172) 0x12,
    .faultLatch (.frame 73728) 0, .faultLatch (.slice 96) 8, .faultLatch (.channel 192) 0x0C, .faultLatch (.block 65536) 0x10,
    .bootFetchDone { goodProfile with head := badHead } goodImage, .bootFetchDone { goodProfile with furrows := 95 } goodImage,
    .bootFetchDone goodProfile { goodImage with handoff := 65536 }, .hbmRepairMargin 0 0 ⟨256, 0, 0, 0, [], 0, 0, false⟩,
    .configRequest 0 (.ideFirstFn 4) none, .keyExchange true (some (2 ^ 384)), .mbxPost 0 8, .workItemTake true 96, .workItemTake false 192,
    .drillChannelGrant 16, .i3cDynamicAddress 0, .pcieLinkUp 6 16 false, .challenge true 0 []] : List Instr).all (fun i => !wellFormed i) = true := by
  decide +kernel
theorem test_well_formed_accepted : ([.nop 255, .bootGo 4, .doorbellWrite (.tender 95) 0 4 0, .faultLatch (.engine 191) 1, .bootFetchDone goodProfile goodImage,
    .hbmRepairMargin 0 0 ⟨255, 0, 0, 0, [], 0, 0, false⟩, .configRequest 0 (.ideFirstFn 3) none, .workItemTake true 95,
    .pcieLinkUp 6 16 true] : List Instr).all wellFormed = true := by decide +kernel

/-! ### Values of the spec's worked examples -/

/-- Chapter 2: 0x3F80_4000 to BF16, to nearest, toward zero, and with r = 0xD2A7 and 0xBFFF. -/
theorem test_narrow_bf16 : ([RMode.nearest, .zero, .stoch 0xD2A7, .stoch 0xBFFF].map fun m => (narrow .bf16 m false (f32 0x3F804000)).1)
    = [0x3F80, 0x3F80, 0x3F81, 0x3F80] := by decide +kernel
/-- Table 2-4: the dot product of [4096, 1, 1, -4096] and [4096, 1, 1, 4096], unsplit and split. -/
theorem test_dot_unsplit : bits32 ([2 ^ 24, 1, 1].foldl (fun c p => accStep c (.fin false p 0)) pzero |> (accStep · (.fin true (2 ^ 24) 0))) = 0 := by
  decide +kernel
theorem test_dot_split :
    let c0 := accStep (accStep pzero (.fin false (2 ^ 24) 0)) (.fin false 1 0)
    let c1 := accStep (accStep pzero (.fin false 1 0)) (.fin true (2 ^ 24) 0)
    bits32 (fadd pzero (tree fadd [c0, c1])) = 0x3F800000 := by decide +kernel
/-- Chapter 8: every lane of row A forms 999,999,995,904 and doubles it. -/
theorem test_fma_row_a : let x : FV := .fin false 1000000 0
    feq (ffma x x pzero) (.fin false 999999995904 0) = true ∧ feq (ffma x x (ffma x x pzero)) (.fin false 1999999991808 0) = true := by decide +kernel
/-- Table 5-6: items and tiles of the descriptor, unsplit and split. -/
def dHeads (kc : Nat) : Nat :=
  word [(0, 512), (24, 128), (48, 2048), (72, 64), (80, 64), (88, 256), (101, 1), (104, 2), (108, 2), (112, kc), (136, 16), (152, 1)]
theorem test_items_of_table_5_6 : (dW (dHeads 0), dT (dHeads 0), dW (dHeads 1024), dT (dHeads 1024), dLive (dHeads 0)) = (64, 256, 128, 256, 8) := by
  decide +kernel
/-- Chapter 17: 880,652 ACLK round up to 630 us. -/
theorem test_estimate_rounds_up : aclkUs 880652 = 630 := by decide
/-- Chapter 12: the siblings 0x41 and 0x42 draw apart: counters that differ draw different values (R288). -/
theorem test_draws_differ : seedDraw 7 0 1201 0x41 7 ≠ seedDraw 7 0 1201 0x42 7 := by decide +kernel
/-- CRC-32C of the nine digits, the check value of the Castagnoli polynomial in reflected form. -/
theorem test_crc32c : crc32c [0x31, 0x32, 0x33, 0x34, 0x35, 0x36, 0x37, 0x38, 0x39] = 0xE3069283 := by decide +kernel

/-- The tick, the period and the next expected edge that a step leaves, with the refusals. -/
def tickAfter (c : Instr) (s : State) : Nat × Nat × Nat × Nat :=
  match exec c s with
  | .next t => (lastTick t.tick, t.tick.pn, t.tick.next, t.tick.refused)
  | _ => (0, 0, 0, 0)
/-- The unit of Table 18-4 at a time, after a tick. -/
def table18 (now last lastTime pn next : Nat) : State :=
  { live with
    now := now
    tick := { noTick with st := .track, source := 1, pnom := 1000000, pn := pn, slew := 100, holdover := 1, next := next, latches := [(last, lastTime)] } }
theorem test_tick_501 : tickAfter (.syncInEdge true) (table18 1000240 500 0 1000000 1000000) = (501, 1000100, 2000340, 0) := by decide +kernel
theorem test_tick_glitch : tickAfter (.syncInEdge true) (table18 1400000 501 1000240 1000100 2000340) = (501, 1000100, 2000340, 1) := by decide +kernel
theorem test_tick_502 : tickAfter (.syncInEdge true) (table18 2000300 501 1000240 1000100 2000340) = (502, 1000060, 3000360, 0) := by decide +kernel
theorem test_tick_synthesised : tickAfter .tickWindowClose (table18 3250360 502 2000300 1000060 3000360) = (503, 1000060, 4000420, 0) := by decide +kernel

/-! ### The step and the invariant -/

theorem wit_StepIdles : live.pending = [] ∧ State.reset.boot.dev ≠ .run ∧ ∀ n, n < 16 → (channelNo live n).cur = none := by
  refine ⟨rfl, by decide +kernel, fun n hn => ?_⟩
  have h : ∀ k ∈ List.range 16, (channelNo live k).cur = none := by decide +kernel
  exact h n (List.mem_range.mpr hn)

theorem wit_StepKeepsInvariant : stateOk State.reset ∧ step State.reset = .next (idle State.reset) := by
  refine ⟨?_, rfl⟩
  unfold stateOk memoryOk fieldOk
  decide +kernel

/-! ### Commands of engine kind 0x0, and SEED_SET -/

def cNop : Cmd := cmdOf 0x000 0 0 []
def cSignal : Cmd := cmdOf 0x001 0 0 [(33, 1), (128, 9), (208, 3)]
def cFenceReset : Cmd := cmdOf 0x002 1 5 []
def cTimestamp : Cmd := cmdOf 0x003 0 0 []
def cSeedSet : Cmd := cmdOf 0x141 1 1 []

theorem wit_FenceCommandsRun_nop : starts (checking live 0 cNop) 1 0x000 noChecks (queueOf (checking live 0 cNop) 1) cNop :=
  starts_of (by decide +kernel) (by decide +kernel)
theorem wit_FenceCommandsRun_signal :
    starts (checking live 0 cSignal) 1 0x001 noChecks (queueOf (checking live 0 cSignal) 1) cSignal :=
  starts_of (by decide +kernel) (by decide +kernel)
theorem wit_SeedSetTakesEffectAtCommit :
    starts (checking live 1 cSeedSet) 1 0x141 checksSeedSet (queueOf (checking live 1 cSeedSet) 1) cSeedSet :=
  starts_of (by decide +kernel) (by decide +kernel)
theorem wit_FenceCommandsRun_time :
    starts (checking live 0 cTimestamp) 1 0x003 noChecks (queueOf (checking live 0 cTimestamp) 1) cTimestamp :=
  starts_of (by decide +kernel) (by decide +kernel)
theorem wit_FenceCommandsRun_reset :
    starts (checking live 0 cFenceReset) 1 0x002 checksFenceReset (queueOf (checking live 0 cFenceReset) 1) cFenceReset :=
  starts_of (by decide +kernel) (by decide +kernel)

theorem wit_FenceCommandsRun_kind : hOpcode 3 < 4 ∧ live.now < 2 ^ 64 ∧ fld (2 ^ 511) 12 500 ≠ 0 := by decide +kernel
theorem wit_SeedSetTakesEffectAtCommit_slot : hOpcode cSeedSet.hdr = 0x141 ∧ isDone .completed = true ∧ 0 < live.parts.length
    ∧ bitOf cSeedSet.body 136 = false ∧ bitOf (2 ^ 136) 136 = true ∧ (inCheck (checking live 1 cSeedSet) 1 0x141).isSome = true := by decide +kernel

theorem wit_RecordHasItsFields :
    let Q := queueOf (checking live 0 cNop) 1
    let r : Result := ⟨.completed, 0, 0, 2 ^ 32 - 1⟩
    1 < 256 ∧ Q.cfg.part < 4 ∧ Q.seq < 2 ^ 64 ∧ live.now < 2 ^ 64 ∧ startTime live cNop < 2 ^ 64 ∧ r.a < 2 ^ 32 ∧ r.b < 2 ^ 32 ∧ r.work < 2 ^ 32 := by
  decide +kernel

theorem wit_CommandsWaitForCheck : ∀ op ∈ [0x000, 0x001, 0x002, 0x003, 0x100, 0x101, 0x102, 0x110, 0x111, 0x120, 0x130, 0x131, 0x132, 0x140,
    0x141, 0x200, 0x201, 0x210, 0x230, 0x310, 0x400, 0x401, 0x402], inCheck live 0 op = none := by decide +kernel

/-- Whether a command fails a check of stage B. -/
def failsNow (s : State) (q op : Nat) (checks : State → Queue → Cmd → List (Bool × Fail)) : Option Fail :=
  match inCheck s q op with
  | some (Q, c) => firstFail (checks (atChecks s q Q c) Q c)
  | none => none

def badNorm : Cmd := cmdOf 0x131 2 0 []
def badCopy : Cmd := cmdOf 0x200 1 0 []
def badRecv : Cmd := cmdOf 0x401 1 0 []

theorem wit_FailedCheckOnlySetsStatus_norm : failsNow (checking live 1 badNorm) 1 0x131 checksNormRow = some (failAt .loadBadShape 133 0) := by
  decide +kernel
theorem wit_FailedCheckOnlySetsStatus_copy : holdsChannel (drilling live badCopy) 1 = true
    ∧ failsNow (drilling live badCopy) 1 0x200 checksDrillCopy = some (failAt .loadBadShape 80 0) := by decide +kernel
theorem wit_FailedCheckOnlySetsStatus_recv : lcNetFirst (checking live 4 badRecv) 1 = false
    ∧ failsNow (checking live 4 badRecv) 1 0x401 checksNetRecv = some (failAt .loadBadShape 72 0) := by
  decide +kernel

/-- A thermal hold keeps a BE command from starting. -/
def heldNop : State :=
  let s := checking { live with pwr := { live.pwr with hold := true } } 0 cNop
  setQueue s 1 fun Q => { Q with cfg := { Q.cfg with be := true } }
theorem wit_FailedCheckOnlySetsStatus_held : (inCheck heldNop 1 0x000).isSome = true
    ∧ firstFail (noChecks (atChecks heldNop 1 (queueOf heldNop 1) cNop) (queueOf heldNop 1) cNop) = none
    ∧ beHeld (atChecks heldNop 1 (queueOf heldNop 1) cNop) (queueOf heldNop 1) = some (failAt .pwrThermal 0 0) := by decide +kernel

/-! ### Commands of the COMPUTE engines -/

/-- The state of a command once its lines have been read, and the command there. -/
def readsTo (z : State) (q p : Nat) (reads : List (Nat × Nat)) : State :=
  let needs := windowNeeds (partOf z p) reads
  let u := setReaders (setCmd z q fun c => { c with windows := (c.windows ++ needs.map fun n => (n / 4096, n % 4096)).eraseDups, reads := reads })
    p q needs true
  (hostFires (useExtents u q p reads) p reads).2
def cmdAt (y : State) (q : Nat) : Cmd := (queueOf y q).cmd.getD cNop

/-- Whether a started command reads through. -/
def readsNow (z : State) (q p : Nat) (reads : List (Nat × Nat)) : Bool :=
  let needs := windowNeeds (partOf z p) reads
  let u := setReaders (setCmd z q fun c => { c with windows := (c.windows ++ needs.map fun n => (n / 4096, n % 4096)).eraseDups, reads := reads })
    p q needs true
  (windowFailure (partOf z p) needs).isNone && windowReady (partOf z p) needs && (queueOf u q).cfg.kind != 2
    && (hostFires (useExtents u q p reads) p reads).1.isNone && (queueOf (readsTo z q p reads) q).cmd.isSome
    && (queueOf (readsTo z q p reads) q).cfg.part == p
theorem reads_of {z : State} {q p : Nat} {reads : List (Nat × Nat)} (h : readsNow z q p reads = true) :
    readsThrough z q p reads (readsTo z q p reads) (cmdAt (readsTo z q p reads) q) := by
  simp only [readsNow, Bool.and_eq_true, bne_iff_ne, beq_iff_eq, Option.isNone_iff_eq_none] at h
  obtain ⟨⟨⟨⟨⟨h1, h2⟩, h3⟩, h4⟩, h5⟩, h6⟩ := h
  refine ⟨h1, h2, h3, Prod.ext h4 rfl, ?_, h6⟩
  obtain ⟨e, he⟩ := Option.isSome_iff_exists.mp h5
  simp [cmdAt, he]

/-- ELTWISE, NORM_ROW, SOFTMAX_ROW and SAMPLE over two rows of eight FP32 values. -/
def cEltwise : Cmd := cmdOf 0x130 2 (word [(0, 0x10000), (192, 0x20000), (448, 32), (640, 32), (704, 2), (728, 8)]) []
def cNormRow : Cmd := cmdOf 0x131 2 (word [(0, 0x10000), (64, 0x20000), (384, 32), (448, 32), (552, 2), (576, 8)]) []
def cSoftmax : Cmd := cmdOf 0x132 2 (word [(0, 0x10000), (64, 0x20000), (320, 32), (384, 32), (472, 2), (496, 8), (512, 0x3F800000)]) []
def cSample : Cmd := cmdOf 0x140 2 (word [(0, 0x10000), (64, 0x20000), (384, 32), (536, 1), (584, 0x3F800000), (776, 2), (800, 8)]) []

theorem wit_HarrowCommandsStart_eltwise :
    starts (checking live 1 cEltwise) 1 0x130 checksEltwise (queueOf (checking live 1 cEltwise) 1) cEltwise :=
  starts_of (by decide +kernel) (by decide +kernel)
theorem wit_HarrowCommandsStart_norm :
    starts (checking live 1 cNormRow) 1 0x131 checksNormRow (queueOf (checking live 1 cNormRow) 1) cNormRow :=
  starts_of (by decide +kernel) (by decide +kernel)
theorem wit_HarrowCommandsStart_softmax :
    starts (checking live 1 cSoftmax) 1 0x132 checksSoftmaxRow (queueOf (checking live 1 cSoftmax) 1) cSoftmax :=
  starts_of (by decide +kernel) (by decide +kernel)
theorem wit_HarrowCommandsStart_sample :
    starts (checking live 1 cSample) 1 0x140 checksSample (queueOf (checking live 1 cSample) 1) cSample :=
  starts_of (by decide +kernel) (by decide +kernel)

/-- A harrow command that has opened its grid. -/
def rowsOpened (s : State) (c : Cmd) (n : Nat) (outs : List (Nat × Nat)) : State :=
  let x := running s 1 c
  setCmd (openWork (charge x 0 0 0) 1 (newWork x 0 (harrowGrid n))) 1 fun y => { y with outs := outs, chargeLoam := 0 }
/-- Whether rows are formed and stored. -/
def rowsStored (y : State) (rs : Except Fail (List OutRow)) : Prop := ∃ r t, rs = .ok r ∧ storeAll y 0 1 (outWrites r) = .ok t
theorem stored_of {y : State} {rs : Except Fail (List OutRow)} (h : isOkB rs = true) (g : isOkB (storeAll y 0 1 (outWrites (okOr rs []))) = true) :
    rowsStored y rs := ⟨_, _, ok_or h, ok_or (d := live) g⟩

theorem wit_HarrowCommandsStart_elements :
    let b := cEltwise.body
    let z := rowsOpened (checking live 1 cEltwise) cEltwise (eTiles b false) (eOuts b)
    let y := readsTo z 1 0 (eReads b)
    readsThrough z 1 0 (eReads b) y (cmdAt y 1) ∧ (cmdAt y 1).body = b ∧ eForm b ≠ 1
      ∧ (partOf (running (checking live 1 cEltwise) 1 cEltwise) 0).cfg.repeatable = false ∧ rowsStored y (eMapRows y 0 b (cmdAt y 1).seed) :=
  ⟨reads_of (by decide +kernel), by decide +kernel, by decide +kernel, by decide +kernel, stored_of (by decide +kernel) (by decide +kernel)⟩

theorem wit_HarrowCommandsStart_rows :
    let b := cNormRow.body
    let z := rowsOpened (checking live 1 cNormRow) cNormRow (ceilDiv (nRows b) 8) (nOuts b)
    let y := readsTo z 1 0 (nReads b)
    let r := okOr (nOutRows y 0 b (cmdAt y 1).seed) ([], 0)
    readsThrough z 1 0 (nReads b) y (cmdAt y 1) ∧ (cmdAt y 1).body = b ∧ nOutRows y 0 b (cmdAt y 1).seed = .ok r
      ∧ isOkB (storeAll (setCounts y 1 fun k => { k with normClamp := satAdd 32 k.normClamp r.2 }) 0 1 (outWrites r.1)) = true :=
  ⟨reads_of (by decide +kernel), by decide +kernel, ok_or (by decide +kernel), by decide +kernel⟩
theorem wit_HarrowCommandsStart_lengths :
    let b := cSoftmax.body
    let x := rowsOpened (checking live 1 cSoftmax) cSoftmax (ceilDiv (xRows b) 8) (xOuts b)
    let y := readsTo x 1 0 (xLenReads b)
    let z := readsTo y 1 0 (xRowReads y 0 b)
    readsThrough x 1 0 (xLenReads b) y (cmdAt y 1) ∧ (cmdAt y 1).body = b ∧ (cmdAt y 1).reads = xLenReads b
      ∧ readsThrough y 1 0 (xRowReads y 0 b) z (cmdAt z 1) ∧ (cmdAt z 1).body = b ∧ rowsStored z (xOutRows z 0 b (cmdAt z 1).seed) :=
  ⟨reads_of (by decide +kernel), by decide +kernel, by decide +kernel, reads_of (by decide +kernel), by decide +kernel,
   stored_of (by decide +kernel) (by decide +kernel)⟩
theorem wit_HarrowCommandsStart_draws :
    let b := cSample.body
    let reads := (fld b 0 48, extent (spRows b) (spXRow b) (rowBytes (fmtOf (spFmtX b)) (spCols b))) :: (spArrays b).map fun (lo, n) => (fld b lo 48, n)
    let z := rowsOpened (checking live 1 cSample) cSample (spItems b) (spOuts b)
    let y := readsTo z 1 0 reads
    let ds := okOr (spDrawsOf y 0 b (cmdAt y 1).seed) []
    readsThrough z 1 0 reads y (cmdAt y 1) ∧ (cmdAt y 1).body = b ∧ spMode b ≠ 1 ∧ spDrawsOf y 0 b (cmdAt y 1).seed = .ok ds
      ∧ isOkB (storeAll y 0 1 (outWrites (spTokenRows b ds))) = true :=
  ⟨reads_of (by decide +kernel), by decide +kernel, by decide +kernel, ok_or (by decide +kernel), by decide +kernel⟩

/-- A 4 × 8 by 8 × 4 product of BF16 values, a 1 × 1 convolution and a 2 × 2 pooling of a 4 × 4 image. -/
def dGemm : Nat := word [(0, 4), (24, 4), (48, 8), (72, 4), (80, 4), (88, 8), (104, 1), (108, 1), (136, 1), (152, 1), (512, 16), (704, 8), (896, 16)]
def cGemm (sel mode : Nat) : Cmd :=
  cmdOf 0x100 3 (word [(0, 0x10000), (64, 0x11000), (128, 0x20000), (256, 0x18000), (512, 1), (520, 1), (544, sel), (548, mode)]) []
def sGemm (sel mode : Nat) : State := holding (checking live 1 (cGemm sel mode)) [(0x18000, toLe 256 dGemm)]
def dConv : Nat := word [(0, 4), (24, 16), (48, 1), (72, 4), (80, 16), (88, 8), (97, 1), (104, 1), (108, 1), (136, 1), (152, 1), (512, 2)]
def cConv : Cmd := cmdOf 0x101 3 (word [(0, 0x10000), (64, 0x11000), (128, 0x20000), (256, 0x18000), (512, 1), (520, 1), (664, 1), (672, 1),
  (680, 1), (688, 1), (696, 1), (704, 1), (712, 4), (720, 4), (792, 4), (808, 4), (824, 4), (840, 4), (1024, 8), (1088, 2), (1152, 64), (1216, 16)]) []
def sConv : State := holding (checking live 1 cConv) [(0x18000, toLe 256 dConv)]
def dPool : Nat := word [(0, 4), (24, 4), (48, 4), (72, 4), (80, 4), (88, 8), (104, 1), (108, 1), (136, 1), (152, 1)]
def cPool : Cmd := cmdOf 0x102 3 (word [(0, 0x10000), (64, 0x20000), (128, 0x18000), (256, 2), (264, 2), (272, 2), (280, 2), (288, 1), (296, 1),
  (304, 2), (312, 2), (384, 4), (400, 4), (416, 2), (432, 2), (512, 64), (576, 16), (640, 32), (704, 16)]) []
def sPool : State := holding (checking live 1 cPool) [(0x18000, toLe 256 dPool)]

theorem wit_TiledCommandsStart_gemm : starts (sGemm 0 0) 1 0x100 checksMxGemm (queueOf (sGemm 0 0) 1) (cGemm 0 0)
    ∧ readDesc (running (sGemm 0 0) 1 (cGemm 0 0)) 0 (cGemm 0 0).body 256 = .ok (some dGemm) :=
  ⟨starts_of (by decide +kernel) (by decide +kernel), ok_of_is (by decide +kernel)⟩
theorem wit_TiledCommandsStart_conv : starts sConv 1 0x101 checksConv2d (queueOf sConv 1) cConv
    ∧ readDesc (running sConv 1 cConv) 0 cConv.body 256 = .ok (some dConv) :=
  ⟨starts_of (by decide +kernel) (by decide +kernel), ok_of_is (by decide +kernel)⟩
theorem wit_TiledCommandsStart_pool : starts sPool 1 0x102 checksPool (queueOf sPool 1) cPool
    ∧ readDesc (running sPool 1 cPool) 0 cPool.body 128 = .ok (some dPool) :=
  ⟨starts_of (by decide +kernel) (by decide +kernel), ok_of_is (by decide +kernel)⟩

/-- A product that has opened its grid, and its words once it has read its operands. -/
def gemmOpened (s : State) (c : Cmd) (d : Nat) : State :=
  let x := running s 1 c
  let b := c.body
  let consume := gInitSel b == 2
  let holds := gOutMode b == 1 || gOutMode b == 2
  let h := if holds && !consume then holdSlots x 1 (dT d) (slotSupply x (grantEngines x 0)) (heldShape d) else x
  let w := newWork h 0 (descGrid d false (holds || consume) (gPasses x 0 b) (gBanks b d) 0 [])
  let tags := if holds || consume then (heldSlots h 1).map fun (t, e, _) => (e, t) else []
  setCmd (openWork (charge h 0 (tiledUnits d (grantEngines x 0).length) 0) 1 { w with bound := tags }) 1 fun y =>
    { y with outs := gOuts b d, chargeLoam := tiledUnits d (grantEngines x 0).length, loaded := [d] }
def gemmRead (s : State) (c : Cmd) (d : Nat) : State := readsTo (gemmOpened s c d) 1 0 (gReads c.body d)
def gemmWords (s : State) (c : Cmd) (d : Nat) : Except Fail (List (Nat × Nat × Nat × List FV)) :=
  let y := gemmRead s c d
  gWords y 0 c.body d (if gInitSel c.body = 2 then heldSlots y 1 else [])
theorem wit_TiledCommandsStart_written : let y := gemmRead (sGemm 0 0) (cGemm 0 0) dGemm
    let ws := okOr (gemmWords (sGemm 0 0) (cGemm 0 0) dGemm) []
    gInitSel (cGemm 0 0).body ≠ 2 ∧ gOutMode (cGemm 0 0).body = 0
      ∧ readsThrough (gemmOpened (sGemm 0 0) (cGemm 0 0) dGemm) 1 0 (gReads (cGemm 0 0).body dGemm) y (cmdAt y 1)
      ∧ (cmdAt y 1).body = (cGemm 0 0).body ∧ (cmdAt y 1).loaded = [dGemm] ∧ dKc dGemm = 0 ∧ gemmWords (sGemm 0 0) (cGemm 0 0) dGemm = .ok ws
      ∧ rowsStored y (gOutRows y 0 (cGemm 0 0).body dGemm (cmdAt y 1).seed ws) :=
  ⟨by decide +kernel, by decide +kernel, reads_of (by decide +kernel), by decide +kernel, by decide +kernel, by decide +kernel, ok_or (by decide +kernel),
   stored_of (by decide +kernel) (by decide +kernel)⟩
/-- A product whose words stay in the accumulators. -/
def dHold : Nat := word [(0, 4), (24, 4), (48, 8), (72, 4), (80, 4), (88, 8), (104, 1), (108, 1), (136, 1), (152, 1), (512, 16), (704, 8)]
def cHold : Cmd := cmdOf 0x100 3 (word [(0, 0x10000), (64, 0x11000), (256, 0x18000), (512, 1), (520, 1), (548, 1)]) []
def sHold : State := holding (checking live 1 cHold) [(0x18000, toLe 256 dHold)]
theorem wit_TiledCommandsStart_held : let y := gemmRead sHold cHold dHold
    starts sHold 1 0x100 checksMxGemm (queueOf sHold 1) cHold ∧ readDesc (running sHold 1 cHold) 0 cHold.body 256 = .ok (some dHold)
      ∧ gOutMode cHold.body = 1 ∧ readsThrough (gemmOpened sHold cHold dHold) 1 0 (gReads cHold.body dHold) y (cmdAt y 1)
      ∧ (cmdAt y 1).body = cHold.body ∧ (cmdAt y 1).loaded = [dHold] ∧ isOkB (gemmWords sHold cHold dHold) = true :=
  ⟨starts_of (by decide +kernel) (by decide +kernel), ok_of_is (by decide +kernel), by decide +kernel, reads_of (by decide +kernel), by decide +kernel,
   by decide +kernel, by decide +kernel⟩
/-- A product that is split in two chunks. -/
def dSplit : Nat := word [(0, 4), (24, 4), (48, 16), (72, 4), (80, 4), (88, 8), (104, 1), (108, 1), (112, 8), (136, 1), (152, 1), (512, 32), (704, 8), (896, 16)]
def sSplit : State := holding (checking live 1 (cGemm 0 0)) [(0x18000, toLe 256 dSplit)]
theorem wit_TiledCommandsStart_split : let y := gemmRead sSplit (cGemm 0 0) dSplit
    starts sSplit 1 0x100 checksMxGemm (queueOf sSplit 1) (cGemm 0 0) ∧ readDesc (running sSplit 1 (cGemm 0 0)) 0 (cGemm 0 0).body 256 = .ok (some dSplit)
      ∧ readsThrough (gemmOpened sSplit (cGemm 0 0) dSplit) 1 0 (gReads (cGemm 0 0).body dSplit) y (cmdAt y 1)
      ∧ (cmdAt y 1).body = (cGemm 0 0).body ∧ (cmdAt y 1).loaded = [dSplit] ∧ dKc dSplit ≠ 0 ∧ isOkB (gPartials y 0 (cGemm 0 0).body dSplit) = true :=
  ⟨starts_of (by decide +kernel) (by decide +kernel), ok_of_is (by decide +kernel), reads_of (by decide +kernel), by decide +kernel, by decide +kernel,
   by decide +kernel, by decide +kernel⟩
/-- A convolution and a pooling that have opened their grids. -/
def convOpened (s : State) (c : Cmd) (d : Nat) : State :=
  let x := running s 1 c
  let b := c.body
  let n := (grantEngines x 0).length
  setCmd (openWork (charge x 0 (tiledUnits d n) 0) 1 (newWork x 0 (descGrid d false false (cPasses x 0 b) (cBanks b d) (geoTW (cGeo b)) (haloSides d)))) 1
    fun y => { y with outs := cOuts b d, chargeLoam := tiledUnits d n, loaded := [d] }
def convReads : List (Nat × Nat) := cReads cConv.body dConv (xformRuns cConv.body dConv (grantEngines (running sConv 1 cConv) 0).length)
theorem wit_TiledCommandsStart_convolved : let y := readsTo (convOpened sConv cConv dConv) 1 0 convReads
    readsThrough (convOpened sConv cConv dConv) 1 0 convReads y (cmdAt y 1) ∧ (cmdAt y 1).body = cConv.body ∧ (cmdAt y 1).loaded = [dConv] ∧ dKc dConv = 0
      ∧ rowsStored y (cOutRows y 0 cConv.body dConv (cmdAt y 1).seed
        (xformRuns cConv.body dConv (match (cmdAt y 1).work with | some w => w.grantEngines.length | none => 0))) :=
  ⟨reads_of (by decide +kernel), by decide +kernel, by decide +kernel, by decide +kernel, stored_of (by decide +kernel) (by decide +kernel)⟩
def poolOpened : State :=
  let x := running sPool 1 cPool
  let b := cPool.body
  let g := plGeo b
  setCmd (openWork (charge x 0 0 0) 1 (newWork x 0 (descGrid dPool true false 1 (plBanks b dPool) (geoTW g) (haloSides dPool)))) 1 fun y =>
    { y with outs := imageSpans dPool 2 (fld b 64 48) g.ho g.wo g.outRow g.outCol (rowBytes (fmtOf (plFmtOut b)) (dM dPool)), chargeLoam := 0, loaded := [dPool] }
def poolReads : List (Nat × Nat) :=
  let b := cPool.body
  let g := plGeo b
  imageReads dPool 1 (fld b 0 48) g.inRow g.inCol (rowBytes (fmtOf (plFmtIn b)) (dM dPool)) (usedRows g) (usedCols g)
theorem wit_TiledCommandsStart_pooled : let y := readsTo poolOpened 1 0 poolReads
    readsThrough poolOpened 1 0 poolReads y (cmdAt y 1) ∧ (cmdAt y 1).body = cPool.body ∧ (cmdAt y 1).loaded = [dPool]
      ∧ rowsStored y (plOutRows y 0 cPool.body dPool (cmdAt y 1).seed) :=
  ⟨reads_of (by decide +kernel), by decide +kernel, by decide +kernel, stored_of (by decide +kernel) (by decide +kernel)⟩

/-- The queue holds the tile of a product, in slot 0 of engine 0: whole, and lost. -/
def sConsume (lost : Bool) : State :=
  let s := sGemm 2 0
  setSlot (setQueue s 1 fun Q => { Q with held := heldShape dGemm }) 0 0 { st := .held, q := 1, tile := 0, lost := lost }
theorem wit_TiledCommandsStart_consume : ∀ lost : Bool, starts (sConsume lost) 1 0x100 checksMxGemm (queueOf (sConsume lost) 1) (cGemm 2 0)
    ∧ readDesc (running (sConsume lost) 1 (cGemm 2 0)) 0 (cGemm 2 0).body 256 = .ok (some dGemm)
    ∧ lostTile (running (sConsume lost) 1 (cGemm 2 0)) 1 = if lost then some 0 else none := by
  intro lost
  refine ⟨starts_of ?_ ?_, ok_of_is ?_, ?_⟩ <;> revert lost <;> decide +kernel

/-- A plain scan of three steps, and one step of a cell and of an attention on stream 0. -/
def cScan : Cmd := cmdOf 0x110 3
  (word [(0, 0x10000), (64, 0x11000), (128, 0x20000), (512, 16), (640, 16), (768, 16), (1056, 4), (1072, 3), (1096, 1), (1120, 8)]) []
def cCell : Cmd := cmdOf 0x111 3 (word [(0, 0x10000), (64, 0x11000), (128, 0x20000), (192, 0x12000), (384, 16), (448, 128), (512, 128), (576, 256),
  (640, 1), (648, 1), (656, 1), (672, 8), (688, 1)]) [(36, 1)]
def cAttend : Cmd := cmdOf 0x120 3 (word [(0, 0x10000), (64, 0x20000), (128, 0x11000), (192, 0x12000), (448, 128), (512, 128), (576, 16), (640, 16),
  (704, 0x3F800000), (800, 1), (808, 1), (816, 1), (824, 1), (832, 1), (856, 1), (880, 1)]) [(36, 1)]

theorem wit_StreamComputeStarts_scan : starts (checking live 1 cScan) 1 0x110 checksScanLinear (queueOf (checking live 1 cScan) 1) cScan
    ∧ (lResident cScan.body && recurWaits (checking live 1 cScan) 1 384 (lSeqs cScan.body)) = false :=
  ⟨starts_of (by decide +kernel) (by decide +kernel), by decide +kernel⟩
theorem wit_StreamComputeStarts_cell : starts (checking resident 1 cCell) 1 0x111 checksRecurCell (queueOf (checking resident 1 cCell) 1) cCell
    ∧ recurWaits (checking resident 1 cCell) 1 320 (rCount cCell.body) = false :=
  ⟨starts_of (by decide +kernel) (by decide +kernel), by decide +kernel⟩
theorem wit_StreamComputeStarts_attend : starts (checking resident 1 cAttend) 1 0x120 checksAttend (queueOf (checking resident 1 cAttend) 1) cAttend
    ∧ attendWaits (checking resident 1 cAttend) 1 = false :=
  ⟨starts_of (by decide +kernel) (by decide +kernel), by decide +kernel⟩

/-- The plain scan has opened its grid and read. -/
def scanOpened : State :=
  let x := running (checking live 1 cScan) 1 cScan
  let b := cScan.body
  setCmd (openWork (charge x 0 (lUnits b) 0) 1 (newWork x 0 { harrowGrid (lItems b) with scan := if lSequential b then 0 else lChunks b })) 1 fun y =>
    { y with outs := lOuts b, streams := [], chargeLoam := lUnits b, loaded := [] }
def scanned (y : State) : Except Fail (List (Nat × List OutRow × List FV)) :=
  (List.range (lSeqs cScan.body)).mapM fun i => do
    let (rows, h) ← scanSequence y 0 cScan.body (cmdAt y 1).seed i i
    pure (i, rows, h)
theorem wit_StreamComputeStarts_scanned : let b := cScan.body
    let y := readsTo scanOpened 1 0 (lReads b)
    let rs := okOr (scanned y) []
    lResident b = false ∧ lList b = 0 ∧ lWriteBack b = false ∧ readsThrough scanOpened 1 0 (lReads b) y (cmdAt y 1) ∧ (cmdAt y 1).body = b
      ∧ (cmdAt y 1).loaded = [] ∧ (cmdAt y 1).streams = [] ∧ scanned y = .ok rs
      ∧ isOkB (storeAll y 0 1 (outWrites (rs.flatMap (·.2.1)
        ++ (if lHTUsed b then rs.map fun (i, _, h) => scanFinalRow b (cmdAt y 1).seed i i h else [])))) = true :=
  ⟨by decide +kernel, by decide +kernel, by decide +kernel, reads_of (by decide +kernel), by decide +kernel, by decide +kernel, by decide +kernel,
   ok_or (by decide +kernel), by decide +kernel⟩

/-- One step of a cell on a record of one value, a shape that no LAYOUT_SET admits, which keeps the evaluation short. -/
def cGate : Cmd := cmdOf 0x111 3 (word [(0, 0x10000), (64, 0x11000), (128, 0x20000), (192, 0x12000), (384, 16), (448, 128), (512, 128), (576, 256),
  (640, 1), (648, 1), (656, 3), (672, 2), (688, 1)]) [(36, 1)]
def gateRec : Record := ⟨1, 1, false⟩
def sGate : State := checking (toResident (setPart idleStream 0 fun P => { P with layouts := [(0, { model := 0, records := [gateRec] })] }) 0).2 1 cGate
def gateOpened : State :=
  let x := running sGate 1 cGate
  let b := cGate.body
  let groups := recurGroups x (rSlot b) (cohortsOf x [0])
  let w := newWork x 0 (recurGrid (groups.map (·.2.2.length)) (rLive b gateRec) (rGates b) (rPasses (partOf x 0).cfg.zg40 b))
  setCmd (openWork x 1 { w with bound := (List.range groups.length).zip groups |>.map fun (i, g) => (g.2.1, i) }) 1 fun y =>
    { y with outs := rowSpans (fld b 128 48) (rOutRow b) (rCount b) (rowBytes (recFmt gateRec) gateRec.n), streams := [0] }
def gateRead : State := readsTo gateOpened 1 0 (rReads cGate.body 1)
def gateWeights : List (List FV) := okOr (rWeights gateRead 0 cGate.body 1) []
def gateBias : List FV := okOr (rBiases gateRead 0 cGate.body 1) []
def gateSteps : Except Fail (List (Nat × Option Advance)) :=
  ((List.range [0].length).zip [0]).mapM fun (r, id) => do
    let a ← recurEntry gateRead 0 cGate.body (cmdAt gateRead 1).seed gateWeights gateBias r id
    pure (r, a)
def gateAdvances : List (Nat × Advance) := (okOr gateSteps []).filterMap fun (r, a) => a.map fun v => (r, v)
theorem wit_StreamComputeStarts_stepped : starts sGate 1 0x111 checksRecurCell (queueOf sGate 1) cGate
    ∧ recurWaits sGate 1 320 (rCount cGate.body) = false
    ∧ namedStreams (running sGate 1 cGate) 0 cGate.hdr cGate.body 320 (rCount cGate.body) = .ok (some [0])
    ∧ firstRecord (running sGate 1 cGate) 0 (rSlot cGate.body) [0] = some gateRec
    ∧ readsThrough gateOpened 1 0 (rReads cGate.body gateRec.n) gateRead (cmdAt gateRead 1)
    ∧ (cmdAt gateRead 1).body = cGate.body ∧ (cmdAt gateRead 1).streams = [0] ∧ lostStream gateRead 0 (rSlot cGate.body) [0] = none
    ∧ firstRecord gateRead 0 (rSlot cGate.body) [0] = some gateRec
    ∧ rWeights gateRead 0 cGate.body gateRec.n = .ok gateWeights ∧ rBiases gateRead 0 cGate.body gateRec.n = .ok gateBias
    ∧ gateSteps = .ok (gateAdvances.map fun (r, a) => (r, some a)) ∧ gateAdvances.length = 1
    ∧ isOkB (storeAll gateRead 0 1 (outWrites (recurRows cGate.body gateAdvances))) = true :=
  ⟨starts_of (by decide +kernel) (by decide +kernel), by decide +kernel, ok_of_is (by decide +kernel), by decide +kernel, reads_of (by decide +kernel),
   by decide +kernel, by decide +kernel, by decide +kernel, by decide +kernel, ok_or (by decide +kernel), ok_or (by decide +kernel),
   ok_of_is (by decide +kernel), by decide +kernel, by decide +kernel⟩

/-- One step of an attention, on a pool of one head, four values wide, which keeps the evaluation short. -/
def aPoolOf : Pool := { fmtKv := 1, fmtX := 1, hkv := 1, dh := 4, inDim := 2, layers := 2, pages := 16, loamSlots := 8, subSlots := 8,
                        dirUnits := 4, loamFrames := [100], subFrames := [0], recs := [], unitsUsed := [], counts := ⟨0, 0, 0, 0, 0, 0, 0, 0⟩ }
def sHeads : State := checking (toResident (setPart idleStream 0 fun P => { P with pools := [(0, aPoolOf)] }) 0).2 1 cAttend
def headsOpened : State :=
  let x := running sHeads 1 cAttend
  let b := cAttend.body
  let need := attendNeeds x aPoolOf b [0]
  setCmd (openWork x 1 { newWork x 0 (attendGrid b aPoolOf) with after := attendAfter b aPoolOf }) 1 fun y =>
    { y with outs := aOuts b aPoolOf, streams := [0], reserved := [(aPool b, need.1), (aPool b + 8, need.2.1), (aPool b + 16, need.2.2)] }
def headsRead : State := readsTo headsOpened 1 0 (aReads cAttend.body aPoolOf)
def headWeights : Except Fail (List (List FV)) :=
  (List.range (aCols aPoolOf)).mapM fun i => loadRow headsRead 0 (fmtOf (aFmtW cAttend.body)) (fld cAttend.body 192 48 + i * aWCol cAttend.body) aPoolOf.inDim
def attended : Kv × List OutRow :=
  let e := cmdAt headsRead 1
  let b := cAttend.body
  let cx : AttendCtx := { p := 0, q := 1, b := b, k := aPool b, ws := okOr headWeights [], bias := List.replicate (aCols aPoolOf) pzero,
                          us := (e.start.getD headsRead.now) / 1000, seed := e.seed }
  let entries := (List.range [0].length).zip [0]
  entries.foldl (fun v (r, id) => attendStream cx v r id)
    (entries.foldl (fun v (r, id) => appendStream cx v r id)
      { s := headsRead, fail := none, rebuilt := 0, ns := 0, appends := [], rows := [], slots := 0, ids := 0, ev := .none }, [])
def attendStored : Except Fail State :=
  let a := attended
  let k0 := aPool cAttend.body
  storeAll (setCmd a.1.s 1 fun k => { k with
    appends := a.1.appends
    reserved := k.reserved.map fun r => (r.1, r.2 - (if r.1 = k0 then a.1.slots else if r.1 = k0 + 8 then a.1.ids else 0)) })
    0 1 (outWrites a.2)
theorem wit_StreamComputeStarts_attended : starts sHeads 1 0x120 checksAttend (queueOf sHeads 1) cAttend ∧ attendWaits sHeads 1 = false
    ∧ poolOf (running sHeads 1 cAttend) 0 (aPool cAttend.body) = some aPoolOf
    ∧ namedStreams (running sHeads 1 cAttend) 0 cAttend.hdr cAttend.body 320 (aStreams cAttend.body) = .ok (some [0])
    ∧ readsThrough headsOpened 1 0 (aReads cAttend.body aPoolOf) headsRead (cmdAt headsRead 1)
    ∧ (cmdAt headsRead 1).body = cAttend.body ∧ (cmdAt headsRead 1).streams = [0] ∧ poolOf headsRead 0 (aPool cAttend.body) = some aPoolOf
    ∧ aBias cAttend.body = 0 ∧ headWeights = .ok (okOr headWeights []) ∧ attended.1.fail = none ∧ isOkB attendStored = true :=
  ⟨starts_of (by decide +kernel) (by decide +kernel), by decide +kernel, by decide +kernel, ok_of_is (by decide +kernel), reads_of (by decide +kernel),
   by decide +kernel, by decide +kernel, by decide +kernel, by decide +kernel, ok_or (by decide +kernel), by decide +kernel, by decide +kernel⟩

/-- A command that executes and reads window 0's first position. -/
def reader (w : WinState) : State :=
  setQueue (checking (windowed w) 1 cNormRow) 1 fun Q => { Q with
    state := .run, cmd := Q.cmd.map fun c => { c with start := some 999000, waiting := some 999500, windows := [(0, 0)], reads := [(0x200000, 64)] } }
def readerCmd : Cmd := { cNormRow with start := some 999000, waiting := some 999500, windows := [(0, 0)], reads := [(0x200000, 64)] }

theorem wit_WindowFenceHolds_gated :
    let needs := windowNeeds (partOf live 0) [(0x10000, 64)]
    windowFailure (partOf live 0) needs = none ∧ 1 < live.queues.length ∧ windowReady (partOf live 0) needs = true := by decide +kernel
theorem wit_WindowFenceHolds_shut :
    let P := partOf (windowed .empty) 0
    windowFailure P (windowNeeds P [(0x200000, 64)]) = none ∧ windowReady P (windowNeeds P [(0x200000, 64)]) = false := by decide +kernel
theorem wit_WindowFenceHolds_unpassed : readerCmd.stall = none ∧ passedFence (reader (.ready 0 64)) 0 1 readerCmd = false
    ∧ passedFence (reader .empty) 0 1 readerCmd = false := by decide +kernel
theorem wit_WindowFenceHolds_ready : (queueOf (reader (.ready 0 64)) 1).cmd = some readerCmd ∧ (queueOf (reader (.ready 0 64)) 1).result = none
    ∧ readerCmd.waiting = some 999500 ∧ windowFailure (partOf (reader (.ready 0 64)) 0) [0] = none
    ∧ windowReady (partOf (reader (.ready 0 64)) 0) [0] = true := by decide +kernel
theorem wit_WindowFenceHolds_failed : windowFailure (partOf (reader (.failed 0 (failAt .memUncorrectable 1 2))) 0) [0]
    = some (failAt .memUncorrectable 1 2) := by decide +kernel
theorem wit_WindowFenceHolds_waits : windowFailure (partOf (reader .empty) 0) [0] = none ∧ windowReady (partOf (reader .empty) 0) [0] = false := by
  decide +kernel

/-! ### The drill and the plot mover -/

def cCopy : Cmd := cmdOf 0x200 1 (word [(0, 0x10000), (64, 0x20000), (128, 100), (160, 1)]) []
def cChain : Cmd := cmdOf 0x201 1 (word [(0, 0x18000), (64, 1)]) []
def cVisible : Cmd := cmdOf 0x210 1 0 []
def cFill : Cmd := cmdOf 0x220 2 (word [(0, 0x10000), (64, 128), (128, 128), (160, 1), (175, 1)]) []
def sChain : State := holding (drilling live cChain) [(0x18000, toLe 64 cCopy.body)]
def sFill : State := drilling (windowed .empty) cFill

theorem wit_DrillCommandsStart_copy : holdsChannel (drilling live cCopy) 1 = true
    ∧ starts (drilling live cCopy) 1 0x200 checksDrillCopy (queueOf (drilling live cCopy) 1) cCopy :=
  ⟨by decide +kernel, starts_of (by decide +kernel) (by decide +kernel)⟩
theorem wit_DrillCommandsStart_chain : let y := useReads sChain 0 (chainSpans sChain 0 cChain)
    holdsChannel sChain 1 = true ∧ inCheck sChain 1 0x201 = some (queueOf sChain 1, cChain)
      ∧ starts y 1 0x201 checksDrillChain (queueOf sChain 1) cChain := by
  intro y
  have h : queueOf y 1 = queueOf sChain 1 := by decide +kernel
  exact ⟨by decide +kernel, by decide +kernel, h ▸ starts_of (by decide +kernel) (by decide +kernel)⟩
/-- A copy runs, with its descriptor in the channel's store. -/
def copying : State :=
  setChannel (setQueue (drilling live cCopy) 1 fun Q => { Q with state := .run }) 0 fun ch => { ch with store := [(0, cCopy.body)] }
theorem wit_DrillCommandsStart_step : let d := cCopy.body
    let u := chCounts (setCmd copying 1 fun k => { k with outs := cCopy.outs ++ ddDstRows d }) 0 fun k => { k with curDesc := 0 }
    let v := touchPlots (useReads u 0 (ddSrcRows d)) 0 (ddDstRows d ++ (if ddCrcAddr d = 0 then [] else [(ddCrcAddr d, 4)]))
    (queueOf copying 1).cmd = some cCopy ∧ (channelNo copying 0).store[cCopy.done]? = some (0, d)
      ∧ (drillFires v 0 0 cCopy.done d).1 = none ∧ shutOffset (drillFires v 0 0 cCopy.done d).2 0 d = none
      ∧ isOkB (runDesc (drillFires v 0 0 cCopy.done d).2 0 1 0 d) = true := by decide +kernel
theorem wit_DrillCommandsStart_visible : holdsChannel (drilling live cVisible) 1 = true
    ∧ starts (drilling live cVisible) 1 0x210 checksDrillVisible (queueOf (drilling live cVisible) 1) cVisible :=
  ⟨by decide +kernel, starts_of (by decide +kernel) (by decide +kernel)⟩

/-- Window 0, and a fill of it that runs and has its number. -/
def fillWin (fills : Nat) : Window := { base := 32, positions := 2, slotPlots := 1, slots := [⟨[200], .empty, []⟩], fills := fills }
def filling : State := setQueue (drilling (windowed .empty) cFill) 1 fun Q => { Q with
  state := .run, cmd := some { cFill with start := some 0, reads := [(0x10000, 128)], fill := some (0, false) } }
theorem wit_DrillCommandsStart_fill : holdsChannel sFill 1 = true ∧ starts sFill 1 0x220 checksWindowFill (queueOf sFill 1) cFill
    ∧ winOf (running sFill 1 cFill) 0 (wfWin cFill.body) = some (fillWin 0) ∧ cFill.waiting = none ∧ cFill.reads = [] :=
  ⟨by decide +kernel, starts_of (by decide +kernel) (by decide +kernel), by decide +kernel, by decide +kernel, by decide +kernel⟩
theorem wit_DrillCommandsStart_filled :
    let c : Cmd := { cFill with start := some 0, reads := [(0x10000, 128)], fill := some (0, false) }
    let u := setCmd (setWin filling 0 0 fun x => setSlotState x 0 (.filling (wfPos c.body) (wfOutLen c.body))) 1 fun y => { y with fill := some (0, true) }
    let z := (hostFires (useReads u 0 c.reads) 0 c.reads).2
    holdsChannel filling 1 = true ∧ (queueOf filling 1).state = .run ∧ (queueOf filling 1).cmd = some c ∧ (queueOf filling 1).result = none
      ∧ hOpcode c.hdr = 0x220 ∧ c.waiting = none ∧ c.reads ≠ [] ∧ winOf filling 0 (wfWin c.body) = some (fillWin 0) ∧ fillSlot (fillWin 0) 0 = 0
      ∧ slotOpen ⟨[200], .empty, []⟩ = true ∧ slotOpen ⟨[200], .empty, [1]⟩ = false
      ∧ (hostFires (useReads u 0 c.reads) 0 c.reads).1 = none ∧ isOkB (fillData z 0 c.body) = true
      ∧ isOkB (fillFrames z 0 1 [200] (okOr (fillData z 0 c.body) [])) = true := by decide +kernel

def cMove : Cmd := cmdOf 0x230 1 (word [(0, 0x20000), (64, 2), (96, 2)]) []
def sMove : State := checking live 3 cMove
theorem wit_PlotsMove_command : starts sMove 1 0x230 (checksPlotMove 1) (queueOf sMove 1) cMove
    ∧ pmToMove (running sMove 1 cMove) 0 cMove.body = [(0, 2), (1, 3)]
    ∧ (reserveMoves (running sMove 1 cMove) 0 1 cMove.body [(0, 2), (1, 3)]).isSome = true :=
  ⟨starts_of (by decide +kernel) (by decide +kernel), by decide +kernel, by decide +kernel⟩

/-- Plot 2 on its way to subsoil frame 7, with its source whole or with an unreadable line. -/
def moving (cause : MoveCause) (bad : Bool) : State :=
  let s := setPlot live 0 2 fun pl => { pl with moving := true }
  { s with mem := { s.mem with
      moves := [⟨0, 2, .subsoil 7, cause, 0, true, []⟩], poison := if bad then [loamAddr 1 / 64] else [] } }
def movingPlot : Plot := { plotAt (.loam 1) with moving := true }
/-- Bytes that can be read one by one can be read together. -/
theorem loadBytes_ok {s : State} {p lo n : Nat} (h : ∀ va, lo ≤ va → va < lo + n → ∃ b, loadByte s p va = .ok b) :
    ∃ bs, loadBytes s p lo n = .ok bs := by
  have go : ∀ xs : List Nat, (∀ va ∈ xs, ∃ b, loadByte s p va = .ok b) → ∃ bs, xs.mapM (loadByte s p) = .ok bs := by
    intro xs
    induction xs with
    | nil => exact fun _ => ⟨[], rfl⟩
    | cons x xs ih =>
      intro hx
      obtain ⟨b, hb⟩ := hx x (by simp)
      obtain ⟨bs, hbs⟩ := ih fun va hv => hx va (List.mem_cons_of_mem _ hv)
      exact ⟨b :: bs, by rw [List.mapM_cons, hb, hbs]; rfl⟩
  refine go _ fun va hv => ?_
  simp only [rangeFrom, List.mem_map, List.mem_range] at hv
  obtain ⟨i, hi, rfl⟩ := hv
  exact h _ (by omega) (by omega)

/-- Plot 2 moves to its host anchor. -/
def toHost : State :=
  let s := moving (.command 1) false
  { s with
    mem := { s.mem with moves := [⟨0, 2, .host, .command 1, 0, true, []⟩] }
    parts := modifyAt 0 (fun P => { P with
      anchors := [(0, .host 0x1000 0)], plots := insertKey 2 { movingPlot with anchor := some 0 } P.plots }) s.parts }
theorem toHost_finds : toHost.mem.moves.find? (movesPlot · 0 2)
      = some ⟨0, 2, .host, .command 1, 0, true, []⟩ := by decide +kernel
theorem toHost_plot : lookupKey 2 (partOf toHost 0).plots = some { movingPlot with anchor := some 0 } := by decide +kernel
theorem toHost_fires : moveReads toHost 0 2 = (none, toHost) := rfl
theorem toHost_byte (va : Nat) (h1 : 2 * plotBytes ≤ va) (h2 : va < 2 * plotBytes + plotBytes) : ∃ b, loadByte toHost 0 va = .ok b := by
  have hp : toHost.mem.poison = [] := by decide +kernel
  have hd : va / plotBytes = 2 := by unfold plotBytes at *; omega
  have hl : loadByte toHost 0 va = physByte toHost (loamAddr 1 + va % plotBytes) := by
    unfold loadByte locate
    simp only [hd, toHost_plot]
    rfl
  have hs : isSub ((loamAddr 1 + va % plotBytes) / 64 * 64) = false := by
    have h3 : va % plotBytes < 65536 := by unfold plotBytes; omega
    have h4 : ¬ subBase ≤ (loamAddr 1 + va % plotBytes) / 64 * 64 := by
      have h5 : loamAddr 1 + 65536 ≤ subBase := by decide
      omega
    unfold isSub
    rw [decide_eq_false h4]
    rfl
  rw [hl]
  unfold physByte
  rw [if_neg (by simp [linePoisoned, hp, hs])]
  split
  · exact ⟨_, rfl⟩
  · exact ⟨_, rfl⟩
theorem toHost_places (bs : List Byte) : placePlot toHost 0 1 { movingPlot with anchor := some 0 } .host bs = .ok { toHost with
      mem := { toHost.mem with host := memWrite toHost.mem.host 0x1000 bs }
      pcie := { toHost.pcie with fns := modifyAt 0 (fun f => { f with lastWrite := some (0x1000 + plotBytes - 1) }) toHost.pcie.fns } } := by
  have ha : ((some 0 : Option Nat).bind (lookupKey · (partOf toHost 0).anchors)) = some (.host 0x1000 0) := by decide +kernel
  have ho : hostOpen toHost 0 0 0x1000 = true := by decide +kernel
  simp only [placePlot, ha, ho]
  rfl
theorem copyPlot_ok {s t : State} {p q k : Nat} {pl : Plot} {dest : Home} {bs : List Byte} (h0 : drainFrame s pl.home = s)
    (h1 : plotData s p k = .ok bs) (h2 : placePlot s p q pl dest bs = .ok t) : ∃ u, copyPlot s p q k pl dest = .ok u := by
  unfold copyPlot
  dsimp only
  rw [h0, h1]
  dsimp only
  rw [h2]
  exact ⟨_, rfl⟩
theorem toHost_copies : ∃ t, copyPlot toHost 0 1 2 { movingPlot with anchor := some 0 } .host = .ok t := by
  obtain ⟨bs, hb⟩ : ∃ bs, plotData toHost 0 2 = .ok bs := loadBytes_ok toHost_byte
  exact copyPlot_ok rfl hb (toHost_places bs)
theorem wit_PlotsMove_done : toHost.mem.moves.find? (movesPlot · 0 2)
      = some ⟨0, 2, .host, .command 1, 0, true, []⟩ ∧ plotOf toHost 0 2 = some { movingPlot with anchor := some 0 }
    ∧ moveReads toHost 0 2 = (none, toHost)
    ∧ ∃ t, copyPlot toHost 0 1 2 { movingPlot with anchor := some 0 } .host = .ok t :=
  ⟨toHost_finds, toHost_plot, toHost_fires, toHost_copies⟩
theorem wit_PlotsMove_gone : let s := setPart (moving (.command 1) false) 0 fun P => { P with plots := eraseKey 2 P.plots }
    s.mem.moves.find? (movesPlot · 0 2) = some ⟨0, 2, .subsoil 7, .command 1, 0, true, []⟩ ∧ plotOf s 0 2 = none := by decide +kernel
theorem wit_PlotsMove_fails : plotOf (moving (.command 1) true) 0 2 = some movingPlot
    ∧ isOkB (copyPlot (moving (.command 1) true) 0 1 2 movingPlot (.subsoil 7)) = false := by decide +kernel
theorem wit_PlotsMove_rehome : (moving .rehome false).mem.moves.find? (movesPlot · 0 2)
      = some ⟨0, 2, .subsoil 7, .rehome, 0, true, []⟩ ∧ plotOf (moving .rehome false) 0 2 = some movingPlot := by decide +kernel

/-- A plot in host memory moves to loam while completion timeouts are armed. -/
def armedFar (point : Nat) : State :=
  { setPart live 0 fun P => { P with plots := P.plots ++ [(20, { plotAt .host with moving := true, anchor := some 0 })], anchors := [(0, .host 0x1000 0)] } with
    mem := { live.mem with moves := [⟨0, 20, .loam 30, .command 1, 0, true, []⟩] }
    flt := { live.flt with inj := [(0, ⟨point, 1, 0, 0, 0, true⟩)] } }
theorem wit_PlotsMove_injected : (armedFar 0x1A).mem.moves.find? (movesPlot · 0 20) = some ⟨0, 20, .loam 30, .command 1, 0, true, []⟩
    ∧ (plotOf (armedFar 0x1A) 0 20).isSome = true ∧ (moveReads (armedFar 0x1A) 0 20).1.isSome = true := by decide +kernel
theorem wit_MemoryEventsHappen_epoch : (live.mem.epoch + 1) * 1000000 ≤ live.now := by decide

/-- A command that reads far-field plot 20. -/
def farReader : State :=
  let s := setPart live 0 fun P => { P with plots := P.plots ++ [(20, plotAt .host)], anchors := [(0, .host 0x1000 0)] }
  setQueue (checking s 1 cNormRow) 1 fun Q => { Q with
    state := .run, cmd := Q.cmd.map fun c => { c with start := some 0, reads := [(20 * 0x10000, 64)] } }
theorem wit_MemoryEventsHappen_far : farMove farReader 1 = none ∧ (queueOf farReader 1).state = .run
    ∧ (queueOf farReader 1).cmd = some { cNormRow with start := some 0, reads := [(20 * 0x10000, 64)] } ∧ (queueOf farReader 1).result = none
    ∧ hOpcode cNormRow.hdr ≠ 0x210 ∧ farExpired farReader 0 0 (touches [(20 * 0x10000, 64)]) = true
    ∧ (endRead farReader 1 0 { cNormRow with start := some 0, reads := [(20 * 0x10000, 64)] } (failAt .memFarTimeout 0 0)).pcie.cplTimeout < 2 ^ 32 - 1 := by
  decide +kernel
/-- A command that reads a plot of a peer's memory. -/
def peerReader : State :=
  let s := setPart (paired live) 0 fun P => { P with
    plots := P.plots ++ [(20, { plotAt .remote with anchor := some 0 })], anchors := [(0, .remote 2 5 0x1000)] }
  setQueue (checking s 1 cNormRow) 1 fun Q => { Q with
    state := .run, cmd := Q.cmd.map fun c => { c with start := some 0, reads := [(20 * 0x10000, 64)] } }
theorem wit_MemoryEventsHappen_peer : farMove peerReader 1 = none ∧ (queueOf peerReader 1).state = .run ∧ (queueOf peerReader 1).result = none
    ∧ farExpired peerReader 0 0 (touches [(20 * 0x10000, 64)]) = true
    ∧ ((partOf (endRead peerReader 1 0 (cmdAt peerReader 1) (failAt .memFarTimeout 0 0)) 0).plots.any
      fun x => x.2.home == .host && touches [(20 * 0x10000, 64)] x.1) = false := by decide +kernel
theorem wit_MemoryEventsHappen_scrub : isSub subBase = true ∧ unitEnabled live (.channel (channelOf subBase)) = true
    ∧ unitFailed live (.channel (channelOf subBase)) = false ∧ live.flt.inj = [] ∧ linePoisoned live (subBase / 64) = false
    ∧ subBase ≠ lastScrubLine (channelOf subBase) := by decide +kernel

/-- Queue 1 waits for channel 0, which is free. -/
def granting : State := { drilling live cCopy with drill := { noChannel with part := some 0, disable := false, st := .idle } :: List.replicate 15 noChannel }
theorem wit_DrillChannelEvents_grant : (channelNo granting 0).st = .idle ∧ (channelNo granting 0).cur = none ∧ grantOrder granting 0 = [1] := by
  decide +kernel

/-- A copy executes on channel 0 after `k` retries of its line 0. -/
def retrying (k : Option Nat) : State := setChannel copying 0 fun ch => { ch with retry := k.toList.map fun n => (0, 0, n) }
theorem wit_DrillChannelEvents_error : ∀ k ∈ [none, some 2, some 3], channelCmd (retrying k) 0 = some (1, cCopy) ∧ (retrying k).flt.inj = []
    ∧ hOpcode cCopy.hdr ≠ 0x210 ∧ awaitsLine (retrying k) 0 cCopy.done 0 cCopy = true
    ∧ (channelNo (retrying k) 0).retry.find? (fun e => e.1 == cCopy.done && e.2.1 == 0) = k.map fun n => (0, 0, n) := by decide +kernel

/-! ### Streams and swaths -/

def streamCmd (op body : Nat) : Cmd := cmdOf op 1 body [(36, 1)]

/-- The state in which the STREAM command of queue 1 takes effect, and whether it does. -/
def startedBy (s : State) (op : Nat) (start : State → Nat → Cmd → State) : State :=
  let c := cmdAt s 1
  setCmd (start (running s 1 c) 1 c) 1 fun y => { y with streams := streamNames op c }
def streamNow (s : State) (op : Nat) (checks : State → Queue → Cmd → List (Bool × Fail)) (start : State → Nat → Cmd → State) : Bool :=
  startsNow s 1 op checks && (queueOf s 1).cmd.isSome && !anyTransit s (streamNames op (cmdAt s 1))
    && !(opKind op == 3 && (streamSlotBusy s 1 || lcFirst s 1)) && !streamBlocked (startedBy s op start) 1
theorem stream_of {s : State} {op : Nat} {checks : State → Queue → Cmd → List (Bool × Fail)} {start : State → Nat → Cmd → State}
    (h : streamNow s op checks start = true) : streamActs s 1 op checks start (startedBy s op start) := by
  simp only [streamNow, Bool.and_eq_true, Bool.not_eq_true'] at h
  obtain ⟨⟨⟨⟨h1, h2⟩, h3⟩, h4⟩, h5⟩ := h
  obtain ⟨c, hc⟩ := Option.isSome_iff_exists.mp h2
  have hd : cmdAt s 1 = c := by simp [cmdAt, hc]
  refine ⟨.inl ⟨queueOf s 1, c, starts_of hc h1, hd ▸ h3, h4, ?_⟩, h5⟩
  simp [startedBy, hd]
def cCreate : Cmd := cmdOf 0x300 1 (word [(64, 77)]) []
def cRetire : Cmd := streamCmd 0x306 0
def cPark : Cmd := streamCmd 0x302 0
def cResume : Cmd := streamCmd 0x303 0
def cFork : Cmd := streamCmd 0x301 (word [(0, 0x10000), (64, 2)])
def cExport : Cmd := streamCmd 0x304 (word [(0, 0x10000), (64, 4096)])
def cImport : Cmd := cmdOf 0x305 1 (word [(0, 0x10000), (64, 4096)]) []
def cPin : Cmd := streamCmd 0x320 (word [(16, 1), (48, 0xFFFF)])
def cMigrate : Cmd := streamCmd 0x403 (word [(64, 2), (128, 4096)])
def cCreateAt : Cmd := cmdOf 0x300 1 (word [(64, 77), (128, 0x20000)]) []
def startPark (y : State) (r : Nat) (c : Cmd) : State := startImages y r [headerRecords y c]
def startFork (y : State) (r : Nat) (c : Cmd) : State := startImages y r (fkImages y c)
def startImport (y : State) (r : Nat) (c : Cmd) : State :=
  startImages (takeKey y r (blobSlot c.body)) r [(layoutOf y (queueOf y r).cfg.part (impLayout c.body)).records]
def startMigrate (y : State) (r : Nat) (c : Cmd) : State := takeKey y r (nmSlot c.body)

/-- A property of stream 0 in a state. -/
def stream0 (x : State) (ok : Stream → Bool) : Bool := match streamOf x 0 with | some st => ok st | none => false

theorem wit_StreamsComeAndGo_create : let s := checking idleStream 3 cCreate
    let x := startedBy s 0x300 noStart
    streamActs s 1 0x300 checksStreamCreate noStart x ∧ (queueOf x 1).cmd = some (cmdAt x 1) ∧ allocIds x (partOf x 0) 1 = some [1]
      ∧ fld (cmdAt x 1).body 128 48 = 0 :=
  ⟨stream_of (by decide +kernel), by decide +kernel, by decide +kernel, by decide +kernel⟩
theorem wit_StreamsComeAndGo_named : let s := checking idleStream 3 cCreateAt
    let x := startedBy s 0x300 noStart
    streamActs s 1 0x300 checksStreamCreate noStart x ∧ allocIds x (partOf x 0) 1 = some [1] ∧ fld (cmdAt x 1).body 128 48 ≠ 0
      ∧ isOkB (storeOnce (putStream x 1 (newStream 0 0 (layoutOf x 0 0).model 1 77)) 0 1 (fld (cmdAt x 1).body 128 48) (toLe 4 1)) = true :=
  ⟨stream_of (by decide +kernel), by decide +kernel, by decide +kernel, by decide +kernel⟩
theorem wit_StreamsComeAndGo_full :
    let s := checking (setPart idleStream 0 fun P => { P with cfg := { P.cfg with streams := 1 } }) 3 cCreate
    let x := startedBy s 0x300 noStart
    streamActs s 1 0x300 checksStreamCreate noStart x ∧ allocIds x (partOf x 0) 1 = none := ⟨stream_of (by decide +kernel), by decide +kernel⟩
theorem wit_StreamsComeAndGo_retire : let s := checking resident 3 cRetire
    let x := startedBy s 0x306 noStart
    streamActs s 1 0x306 checksStreamRetire noStart x ∧ (queueOf x 1).cmd = some (cmdAt x 1) ∧ stream0 x retirable = true :=
  ⟨stream_of (by decide +kernel), by decide +kernel, by decide +kernel⟩
/-- A command that waited in RUN takes effect there. -/
theorem wit_StreamsComeAndGo_waited :
    let s := setQueue (checking resident 3 cRetire) 1 fun Q => { Q with state := .run, cmd := Q.cmd.map fun c => { c with start := some 0, streams := [0] } }
    streamActs s 1 0x306 checksStreamRetire noStart s := by
  refine ⟨.inr ⟨{ cRetire with start := some 0, streams := [0] }, ?_⟩, ?_⟩ <;> decide +kernel
theorem wit_StreamsMove_park : let s := checking resident 3 cPark
    let x := startedBy s 0x302 startPark
    let d := cmdAt x 1
    streamActs s 1 0x302 (checksStreamPark 1) startPark x ∧ (queueOf x 1).cmd = some d ∧ stream0 x parkable = true
      ∧ stream0 x (fun st => (claimImage x 0 1 d.chargeLoam d.resFrames (recordsOf x st)).1.isSome) = true :=
  ⟨stream_of (by decide +kernel), by decide +kernel, by decide +kernel, by decide +kernel⟩
theorem wit_StreamsMove_resume : let s := checking parked 3 cResume
    let x := startedBy s 0x303 noStart
    streamActs s 1 0x303 checksStreamResume noStart x ∧ (queueOf x 1).cmd = some (cmdAt x 1)
      ∧ stream0 x (fun st => resumable st (bitOf (cmdAt x 1).body 0) && (toResident (if st.st = .parked then keepImage x 1 st else x) 0).1.isNone) = true :=
  ⟨stream_of (by decide +kernel), by decide +kernel, by decide +kernel⟩
/-- The children of the fork that a state's command asks for, from its stream's bytes. -/
def forked (x : State) (st : Stream) (bs : List Byte) : Except Fail State :=
  let d := cmdAt x 1
  let y := useImage x st
  forkChildren 0 1 d 0 st bs (if fkParked d.body then imageUnits (recordsOf y st) else 0) (imageFrames (recordsOf y st)) d.resFrames
    ((allocIds x (partOf x 0) (fkCount d.body)).getD []) 0 y
theorem wit_StreamsMove_fork : let s := checking resident 3 cFork
    let x := startedBy s 0x301 startFork
    let d := cmdAt x 1
    streamActs s 1 0x301 (checksStreamFork 1) startFork x ∧ (queueOf x 1).cmd = some d ∧ fkCount d.body ≤ 256 ∧ stream0 x parkable = true
      ∧ allocIds x (partOf x 0) (fkCount d.body) = some [1, 2]
      ∧ stream0 x (fun st => isOkB (forked x st []) && isOkB (recordBytes (useImage x st) st) && (match recordBytes (useImage x st) st with
        | .ok bytes => (match forked x st bytes with
          | .ok t => isOkB (storeOnce t 0 1 (fld d.body 0 48) ([1, 2].flatMap (toLe 4)))
          | .error _ => false)
        | .error _ => false)) = true :=
  ⟨stream_of (by decide +kernel), by decide +kernel, by decide +kernel, by decide +kernel, by decide +kernel, by decide +kernel⟩
theorem wit_StreamsMove_transit : (streamOf parked 0).isSome = true := by decide +kernel

theorem wit_StreamStatesChange_park : let s := startedBy (checking resident 3 cPark) 0x302 startPark
    let d := ((queueOf s 1).cmd.getD cPark)
    let y := claimImage s 0 1 d.chargeLoam d.resFrames [⟨64, 1, false⟩]
    (streamOf s 0).map parkable = some true ∧ 1 < s.queues.length ∧ y.1.isSome = true ∧ streamOf y.2 0 = streamOf s 0 := by decide +kernel
theorem wit_StreamStatesChange_notParked : (streamOf idleStream 0).map parkable = some false := by decide +kernel
theorem wit_StreamStatesChange_resume : (streamOf parked 0).map (resumable · false) = some true ∧ (toResident parked 0).1 = none := by decide +kernel
theorem wit_StreamStatesChange_notResumed : (streamOf resident 0).map (resumable · true) = some false := by decide +kernel
theorem wit_StreamStatesChange_moves : streamOf live 0 = none ∧ (streamOf idleStream 0).map parkable = some false
    ∧ (streamOf idleStream 0).map (·.st) = some .idle := by decide +kernel
theorem wit_StreamStatesChange_retires : (streamOf resident 0).map retirable = some true := by decide +kernel
theorem wit_StreamStatesChange_retired : (streamOf (withStream { newStream 0 0 0 0 7 with st := .retired }) 0).map (·.st) = some .retired := by
  decide +kernel

/-- Stream 0 with a key in slot 0. -/
def keyed (s : State) : State := setBlobKey s 0 0 ⟨11, 1⟩

theorem wit_StreamsLeaveAndEnter_export : let s := checking (keyed resident) 3 cExport
    let x := startedBy s 0x304 startExport
    let d := cmdAt x 1
    streamActs s 1 0x304 checksStreamExport startExport x ∧ (queueOf x 1).cmd = some d
      ∧ stream0 x (fun st => (exportRefused st d.key).isNone) = true :=
  ⟨stream_of (by decide +kernel), by decide +kernel, by decide +kernel⟩
theorem wit_StreamsLeaveAndEnter_import : let s := checking (keyed idleStream) 3 cImport
    let x := startedBy s 0x305 startImport
    let d := cmdAt x 1
    let y := readsTo x 1 0 [(blobAddr d.body, blobLen d.body)]
    streamActs s 1 0x305 (checksStreamImport 1) startImport x ∧ (queueOf x 1).cmd = some d
      ∧ readsThrough x 1 0 [(blobAddr d.body, blobLen d.body)] y (cmdAt y 1) ∧ (cmdAt y 1).body = d.body ∧ (cmdAt y 1).key = d.key
      ∧ (queueOf y 1).state = .run ∧ loadBytes y 0 (blobAddr d.body) (blobLen d.body) = .ok (okOr (loadBytes y 0 (blobAddr d.body) (blobLen d.body)) [])
      ∧ isOkB (openBlob d.key (okOr (loadBytes y 0 (blobAddr d.body) (blobLen d.body)) [])) = false :=
  ⟨stream_of (by decide +kernel), by decide +kernel, reads_of (by decide +kernel), by decide +kernel, by decide +kernel, by decide +kernel,
   ok_or (by decide +kernel), by decide +kernel⟩
theorem wit_StreamsLeaveAndEnter_pin : let s := checking resident 3 cPin
    let x := startedBy s 0x320 noStart
    streamActs s 1 0x320 checksPagePin noStart x ∧ (queueOf x 1).cmd = some (cmdAt x 1) ∧ (cmdAt x 1).paging = false
      ∧ stream0 x (fun st => st.st != .retired) = true ∧ ppOp (cmdAt x 1).body ≠ 2 :=
  ⟨stream_of (by decide +kernel), by decide +kernel, by decide +kernel, by decide +kernel, by decide +kernel⟩
theorem wit_StreamsLeaveAndEnter_migrate : let s := checking (paired (keyed resident)) 4 cMigrate
    let x := startedBy s 0x403 startMigrate
    let d := cmdAt x 1
    streamActs s 1 0x403 checksNetMigrate startMigrate x ∧ (queueOf x 1).cmd = some d ∧ lcNetFirst s 1 = false ∧ sendStarted x 1 = false
      ∧ d.key = some 11
      ∧ stream0 x (fun st => (exportRefused st d.key).isNone && isOkB (sealStream (useImage x st) 0 st 11 (nmWithKv d.body))) = true :=
  ⟨stream_of (by decide +kernel), by decide +kernel, by decide +kernel, by decide +kernel, by decide +kernel, by decide +kernel⟩

def cSwath : Cmd := cmdOf 0x310 2 (word [(0, 0x10000), (64, 0x20000), (512, 1), (576, 1), (640, 3), (652, 4), (664, 1), (704, 5)]) []
def sSwath : State := checking (ticking resident) 3 cSwath
theorem wit_SwathStepOpens : let x := running sSwath 1 cSwath
    starts sSwath 1 0x310 (checksSwathStep 1) (queueOf sSwath 1) cSwath ∧ anyTransit sSwath (swathNames sSwath 1) = false
      ∧ streamSlotBusy sSwath 1 = false ∧ lcFirst sSwath 1 = false ∧ (partOf sSwath 0).swaths.length < 16
      ∧ readList x 0 cSwath.body 0 (swStreams cSwath.body) = .ok (some [0]) ∧ readMoves x 0 cSwath.body = .ok (some [])
      ∧ (reserveImages x 0 1 (parkImages x [])).isSome = true :=
  ⟨starts_of (by decide +kernel) (by decide +kernel), by decide +kernel, by decide +kernel, by decide +kernel, by decide +kernel, ok_of_is (by decide +kernel),
   ok_of_is (by decide +kernel), by decide +kernel⟩

/-! ### Fetching, working and committing -/

/-- Queue 1 in FETCH with a command's header at its head, in plot 1; fence 9 stands at 3. -/
def fetching (op : Nat) (flags : List (Nat × Nat)) : State :=
  let s := holding live [(0x10000 + 640, toLe 64 (word ((0, op) :: flags)))]
  let s := setPart s 0 fun P => { P with fences := [(9, ⟨3, false⟩)] }
  { s with queues := noQueue :: { noQueue with
      cfg := { noQueueCfg with kind := 0, ringLog2 := 16, base := 0x10000 }, state := .fetch, head := 10, tail := 11, seq := 3 } :: List.replicate 254 noQueue }

/-- What the hypotheses of QueueFetchReads ask, with a header of no body units. -/
def fetches (s : State) (h : Nat) : Bool :=
  let Q := queueOf s 1
  let x := (useRing s Q 1).2
  Q.state == .fetch && Q.cmd.isNone && ringDiff Q.tail Q.head != 0 && !(pciFn s Q.cfg.owner).d3hot
    && okIs (loadNat s Q.cfg.part (ringAddr Q Q.head) 64) h && decide (1 + hUnits h ≤ ringUnits Q) && decide (1 + hUnits h ≤ ringDiff Q.tail Q.head)
    && hUnits h == 0 && (useRing s Q 1).1.isNone && okIs (loadNat x Q.cfg.part (ringAddr Q Q.head) 64) h && okIs (loadBody x Q 0) 0
    && (lookupKey (queueOf x 1).seq (queueOf x 1).doomed).isNone && decide (1 < x.queues.length)
def stageANow (s : State) (h : Nat) : Option Fail := let x := (useRing s (queueOf s 1) 1).2; firstFail (stageA x (queueOf x 1) h)

theorem wit_QueueFetchReads_fails : fetches (fetching 0xFFF []) 0xFFF = true
    ∧ stageANow (fetching 0xFFF []) 0xFFF = some (failAt .loadBadOpcode 0 0) := by decide +kernel
theorem wit_QueueFetchReads_check : fetches (fetching 0 []) 0 = true ∧ stageANow (fetching 0 []) 0 = none ∧ hWait 0 = false := by decide +kernel
theorem wit_QueueFetchReads_waits : let h := word [(32, 1), (64, 4), (192, 9)]
    fetches (fetching 0 [(32, 1), (64, 4), (192, 9)]) h = true ∧ stageANow (fetching 0 [(32, 1), (64, 4), (192, 9)]) h = none
      ∧ hWait h = true ∧ waitMet (partOf (fetching 0 []) 0) h = false := by decide +kernel
theorem wit_QueueFetchReads_met : let h := word [(32, 1), (64, 3), (192, 9)]
    fetches (fetching 0 [(32, 1), (64, 3), (192, 9)]) h = true ∧ stageANow (fetching 0 [(32, 1), (64, 3), (192, 9)]) h = none
      ∧ hWait h = true ∧ waitMet (partOf (fetching 0 []) 0) h = true := by decide +kernel
theorem wit_QueueFetchReads_err : let h := word [(32, 1), (64, 3), (192, 9)]
    let s := setPart (fetching 0 [(32, 1), (64, 3), (192, 9)]) 0 fun P => { P with fences := [(9, ⟨3, true⟩)] }
    fetches s h = true ∧ stageANow s h = none ∧ hWait h = true ∧ waitMet (partOf s 0) h = true ∧ (fenceOf (partOf s 0) (hWaitFence h)).err = true
      ∧ hIgnoreErr h = false := by decide +kernel

/-- Queue 1 executes a matrix product, with its work as given. -/
def working (w : Work → Work) : State :=
  setQueue (checking live 1 (cGemm 0 0)) 1 fun Q => { Q with
    state := .run, result := some ⟨.completed, 0, 0, 0⟩
    cmd := Q.cmd.map fun c => { c with start := some 0, work := some (w (newWork live 0 (descGrid dGemm false false 1 0 0 []))) } }

/-- A queue whose command has its result. -/
def finished (st : Status) (halt : Bool) (tail : Nat) : Queue :=
  { noQueue with cfg := { noQueueCfg with ringLog2 := 16, halt := halt }, state := .run, head := 2 ^ 32 - 1, tail := tail, cmd := some cCopy
                 result := some ⟨st, 0, 0, 0⟩ }
theorem wit_CommandsCommit_commit : let s := checking live 0 (cmdOf 0 0 0 [])
    committable (setResult s 1 ⟨.completed, 0, 0, 0⟩) 1 = true := by decide +kernel
theorem wit_CommandsCommit_waits : committable (beforeCommit (setQueue (working id) 1 fun Q => { Q with result := none }) 1) 1 = false
    ∧ (queueOf (working id) 1).cmd.isSome = true ∧ hOpcode (cmdAt (working id) 1).hdr = 0x100 ∧ movesLeft (working id) 1 = false := by decide +kernel
theorem wit_CommandsCommit_halts : (finished .loadBadShape true 5).head < 2 ^ 32 ∧ 1 + hUnits cCopy.hdr ≤ ringUnits (finished .loadBadShape true 5)
    ∧ (finished .loadBadShape true 5).cfg.halt = true ∧ isError .loadBadShape = true ∧ (finished .loadBadShape true 5).err.count = 0 := by decide +kernel
theorem wit_CommandsCommit_empty : let Q := finished .completed true 1
    isError .completed = false ∧ ringDiff Q.tail (afterCommit 5 Q cCopy ⟨.completed, 0, 0, 0⟩).head = 0 := by decide +kernel
theorem wit_CommandsCommit_fetch : let Q := finished .loadBadShape false 2
    Q.cfg.halt = false ∧ ringDiff Q.tail (afterCommit 5 Q cCopy ⟨.loadBadShape, 0, 0, 0⟩).head ≠ 0 := by decide +kernel

theorem wit_TakersTake_takes : let s := working id
    takerUp s false 0 = true ∧ claimedTaker s false 0 = false ∧ mayRequest s false 0 = true ∧ chooseWork s false 0 = some (1, false)
      ∧ (askStart s (unitNo false 0) (startCurrent s false 1)).1 = true ∧ 1 < s.queues.length := by decide +kernel
theorem wit_TakersTake_sources : ∀ harrow : Bool, ((itemSource (working id) harrow 0 1).map (·.1)) = some (.fresh 0)
    ∧ 0 < (working id).field.harrows.length ∧ 0 < (working id).field.engines.length := by
  intro harrow
  cases harrow <;> decide +kernel
theorem wit_TakersTake_waits : let s := setPwr (working id) fun P => { P with admitted := slewAllowance }
    chooseWork s false 0 = some (1, false) ∧ (askStart s (unitNo false 0) (startCurrent s false 1)).1 = false := by decide +kernel
theorem wit_TakersTake_idles : takerUp live true 5 = true ∧ claimedTaker live true 5 = false ∧ mayRequest (completeHarrow live 5) true 5 = true
    ∧ chooseWork (completeHarrow live 5) true 5 = none ∧ takerItems (completeHarrow live 5) true 5 = [] := by decide +kernel

/-- Engine 0 holds item 0 with tile 0 of queue 1. -/
def holdsItem (w : Work → Work) : State := setEngine (working w) 0 fun E => { E with items := [⟨1, 0, [0], false⟩] }
def splitTwo (w : Work) : Work := { w with grid := { w.grid with split := true, chunks := 2 } }
def workNow (s : State) : Option Work := (queueOf s 1).cmd.bind (·.work)

/-- The intake buffer of harrow 0 with some words, as an engine's tile finds it. -/
def intakeOf (words : Nat) : List Drained := [{ q := 2, engine := 1, words := words, passes := 1, start := 0, gates := 1, need := 1, left := 128000 }]
theorem wit_TilesFinish_drain : let s := holdsItem id
    nextTile s 0 = some (⟨1, 0, [0], false⟩, 0) ∧ (workNow s).map (·.grid.split) = some false ∧ (queueOf s 1).cmd.map drainsTiles = some true
      ∧ (workNow s).map (fun w => (intakeTile s.now 0 1 (tileWords w.grid 0 0) w.grid []).isSome) = some true
      ∧ (workNow s).map (fun w => (intakeTile s.now 0 1 (tileWords w.grid 0 0) w.grid (intakeOf 16384)).isSome) = some false
      ∧ ((intakeOf 5).all fun d => decide (d.need ≤ d.gates)) = true := by decide +kernel
/-- A product whose words stay in the accumulators drains none. -/
theorem wit_TilesFinish_stays : drainsTiles cHold = false := by decide +kernel
theorem wit_TilesFinish_arrival : ∀ last : Bool,
    let s := holdsItem fun w => { splitTwo w with arrivals := if last then [(0, 1)] else [] }
    (engineOf s 0).items = [⟨1, 0, [0], false⟩] ∧ (workNow s).map (·.grid.split) = some true
      ∧ (workNow s).map (fun w => [0].find? fun t => lookupKey t w.reducers != some 0) = some (some 0)
      ∧ (workNow s).map (fun w => decide ((drawArrival w 0 0).1 + 1 < w.grid.chunks)) = some (!last) := by decide +kernel
/-- Engine 0 is the reducer of tile 0, and both its partials stand. -/
def reducing : State :=
  setCmd (holdsItem fun w => { splitTwo w with reducers := [(0, 0)], ready := [(0, 0)] }) 1 fun c => { c with loaded := [dSplit] }
theorem wit_TilesFinish_reduce : holdingItem reducing 0 1 0 = some ⟨1, 0, [0], false⟩
    ∧ (openWorkOf (queueOf reducing 1)).map (fun (_, w) => (lookupKey 0 w.reducers, allReady w 0)) = some (some 0, true)
    ∧ (workNow reducing).map (fun w => match reducedRows reducing 0 0 (cmdAt reducing 1) (gatherPartials w 0 (itemChunk w.grid 0)) with
        | .ok r => isOkB (storeAll reducing 0 1 (outWrites r))
        | .error _ => false) = some true := by decide +kernel
theorem wit_TilesFinish_scan : let s := working fun w => { w with grid := { w.grid with scan := 2, items := 4 }, phase1 := [2, 3] }
    (openWorkOf (queueOf s 1)).map (fun x => (x.2.grid.scan, decide (1 * x.2.grid.scan < x.2.grid.items), x.2.phase2.contains 1, pairFinished x.2 1))
      = some (2, true, false, true) := by decide +kernel

/-! ### Writes to the device's window -/

theorem wit_ShutWindowTakesNoWrite : State.reset.boot.dev ≠ .run ∧ ({ live with pcie := noPcie }).pcie.linkUp = false
    ∧ (pciFn { live with pcie := { live.pcie with fns := [] } } 0).enabled = false ∧ 5 ≤ 5 := by decide +kernel
theorem wit_ShutWindowTakesNoWrite_ide : let s := { live with sec := { live.sec with ideRequired := 1 } }
    s.boot.dev = .run ∧ s.pcie.linkUp = true ∧ (pciFn s 0).enabled = true ∧ ideDemanded s 0 = true ∧ arrivesSecure s 0 = false := by decide +kernel

theorem canWrite_live : canWrite live 0 := by
  unfold canWrite
  decide +kernel

/-- Queue 1 of partition 0 between a head and a tail, of a ring of 64 units. -/
def ringed (st : QState) (head tail : Nat) : State :=
  { live with queues := noQueue :: { noQueue with cfg := { noQueueCfg with ringLog2 := 12 }, state := st, head := head, tail := tail }
      :: List.replicate 254 noQueue }
def headNow : Nat := 2 ^ 32 - 16

/-- How far a new tail lies ahead of the head of queue 1, and the old one. -/
def aheadOf (s : State) (new : Nat) : Nat × Nat :=
  ((new % 2 ^ 32 + 2 ^ 32 - (queueOf s 1).head) % 2 ^ 32, ((queueOf s 1).tail + 2 ^ 32 - (queueOf s 1).head) % 2 ^ 32)
theorem wit_DoorbellSetsTail_reached : senderPart (ringed .run headNow 8) (.function 0) = some 0 ∧ (queueOf (ringed .run headNow 8) 1).state ≠ .disabled
    ∧ (ringed .run headNow 8).flt.halted = false ∧ (queueOf (ringed .run headNow 8) 1).cfg.part = 0 ∧ headNow < 2 ^ 32
    ∧ 2 ^ ((queueOf (ringed .run headNow 8) 1).cfg.ringLog2 - 6) = 64 := by decide +kernel
theorem wit_DoorbellSetsTail_full : aheadOf (ringed .run headNow 8) 48 = (64, 24) := by decide +kernel
theorem wit_DoorbellSetsTail_beyond : aheadOf (ringed .run headNow 8) 49 = (65, 24) := by decide +kernel
theorem wit_DoorbellSetsTail_behind : aheadOf (ringed .run headNow 8) 7 = (23, 24) := by decide +kernel
theorem wit_DoorbellSetsTail_same : aheadOf (ringed .empty headNow headNow) headNow = (0, 0) ∧ aheadOf (ringed .run headNow 8) 8 = (24, 24) := by
  decide +kernel
theorem wit_DoorbellSetsTail_tender : senderPart (ringed .run 0 0) (.tender 3) = some 0 := by decide +kernel
theorem wit_DoorbellSetsTail_not : (queueOf (ringed .disabled 0 0) 1).state = .disabled
    ∧ ¬ ((4 = 8 ∧ 2 ^ 32 % 2 ^ 64 < 2 ^ 32) ∨ (8 = 8 ∧ 2 ^ 32 % 2 ^ 64 < 2 ^ 32)) := by decide +kernel

theorem wit_FenceWriteSignals : fnPart live 0 = some 0 ∧ 0x7FF8 % 8 = 0 ∧ 0x7FF8 < 0x8000 ∧ 2 ^ 63 - 1 < 2 ^ 63 ∧ 2 ^ 63 ≤ 2 ^ 63 % 2 ^ 64
    ∧ 0x7FFC % 8 ≠ 0 := by decide +kernel

/-- Queue 1 waits for fence 9 to reach 4. -/
def waiting : State :=
  setQueue (setPart live 0 fun P => { P with fences := [(9, ⟨3, false⟩)] }) 1 fun Q => { Q with
    state := .wait, cmd := some (cmdOf 0 0 0 [(32, 1), (64, 4), (192, 9)]) }
theorem wit_SignalRaisesFence : 0 < waiting.parts.length ∧ (queueOf waiting 1).cmd = some (cmdOf 0 0 0 [(32, 1), (64, 4), (192, 9)])
    ∧ (queueOf waiting 1).state = .wait ∧ (queueOf waiting 1).cfg.part = 0
    ∧ waitMet (partOf (signalCore waiting 0 9 4 false) 0) (cmdOf 0 0 0 [(32, 1), (64, 4), (192, 9)]).hdr = true := by decide +kernel

theorem canTrap_live : canTrap live 0 := by
  unfold canTrap canWrite
  decide +kernel
theorem wit_QueueAndChannelWrites_abort : queuePart live 255 = some 0 ∧ fnPart live 0 = some 0 ∧ (fnOf live 0).abortFirst ≤ 2 ^ 55 - 1 := by
  decide +kernel
theorem wit_QueueAndChannelWrites_select : seesQueue live 0 (fnOf live 0).queSel = true ∧ (fnOf live 0).queSel < live.queues.length := by
  decide +kernel

/-- Channel 15 of partition 0, in a state. -/
def channelled (st : ChSt) (dis : Bool) : State :=
  { live with drill := List.replicate 15 noChannel ++ [{ noChannel with part := some 0, disable := dis, st := st }] }
theorem wit_QueueAndChannelWrites_channel : ∀ x ∈ [(ChSt.idle, false), (.halted, false), (.disabled, true)],
    canTrap (channelled x.1 x.2) 0 ∧ (channelNo (channelled x.1 x.2) 15).part = some 0 ∧ fnPart (channelled x.1 x.2) 0 = some 0
      ∧ (channelled x.1 x.2).drill.length = 16 ∧ (channelNo (channelled x.1 x.2) 15).st = x.1 ∧ (channelNo (channelled x.1 x.2) 15).disable = x.2 := by
  unfold canTrap canWrite
  decide +kernel

/-- A staged context of link 0, and queue pair 2 in a state. -/
def staging : State := setFn (paired live) 0 fun F => { F with qpCtx := [0, 0, 0, 0, 0, 0, word [(14, 5), (19, 3), (22, 1), (23, 1), (32, 0x10000)], word [(16, 0x1000)]] }
def pairState (st : QpSt) : State := setQp staging 2 fun x => { x with st := st }
theorem wit_NetworkWrites_create : canTrap staging 0 ∧ fnPart staging 0 = some 0 ∧ ctxRefused staging 0 (stagedCtx (fnOf staging 0)) = none
    ∧ lowestFree (staging.net.qps.map (·.1)) 4096 = some 0 := by
  unfold canTrap canWrite
  decide +kernel
theorem wit_NetworkWrites_pair : ∀ st ∈ [QpSt.ready, .error], (qpOf (pairState st) 2).map (fun x => (x.part, x.st)) = some (0, st)
    ∧ qpNamed (pairState st) 2 = false := by decide +kernel
theorem wit_NetworkWrites_port : let s := { live with net := { live.net with links := List.replicate 8 noLink } }
    canTrap s 0 ∧ s.net.links.length = 8 ∧ s.net.ports.length = 4 ∧ portEnabled s 3 = true ∧ qpsOn s 6 = [] ∧ qpsOn s 7 = []
      ∧ anySet 2 [(24, 40), (18, 2), (14, 2), (2, 10)] = false ∧ fld 2 0 2 ≠ 3 ∧ fld 2 12 2 ≠ 3 ∧ unlocksMacsec s 3 2 = false := by
  unfold canTrap canWrite
  decide +kernel

theorem wit_HardwareRegistersServe_go : ∀ st ∈ [BootSt.idle, .failed], let s := setBoot live fun b => { b with st := st }
    canWrite s 0 ∧ s.fns.length = 5 ∧ s.boot.st = st := by
  unfold canWrite
  decide +kernel
theorem wit_HardwareRegistersServe_unmask : let s := setFn live 0 fun F => { F with pba := 2 ^ 63 }
    bitOf (fnOf s 0).pba 63 = true ∧ (fnOf s 0).msix.length = 64 ∧ (pciFn s 0).d3hot = false ∧ mayIssue s 0 = true := by decide +kernel
theorem wit_HardwareRegistersServe_mailbox : ∀ st ∈ [MbxState.free, .replied], let s := setMbx live 0 7 fun M => { M with state := st }
    (fnOf s 0).mailboxes.length = 8 ∧ (mbxOf s 0 7).state = st ∧ s.boot.fwReady = true := by decide +kernel
theorem wit_HardwareRegistersServe_shadow : fwServes live = true ∧ shadowKey live 0 3 = some 3 := by decide +kernel

/-! ### Mailbox requests -/

/-- A request of a code with a body, posted in mailbox 7 of the physical function. -/
def post (s : State) (code : Nat) (bs : List Byte) : State :=
  setMbx s 0 7 fun M => { M with state := .posted, request := toLe 16 (word [(0, code), (32, bs.length)]) ++ bs }

/-- Whether it is one that firmware takes and whose checks pass, as a test. -/
def asksNow (s : State) (code : Nat) (bs : List Byte) : Bool :=
  let M := takenMbx s 0 7
  fwServes s && (mbxOf s 0 7).state == .posted && reqCode (mbxOf s 0 7) == code && !blocked s 0 7 && okIs (reqBody (taken s 0 7) 0 M) bs
    && (requestFail (taken s 0 7) 0 M bs).isNone && !(commandPath code && (taken s 0 7).flt.halted)
theorem asked_of {s : State} {code : Nat} {bs : List Byte} (h : asksNow s code bs = true) : asked s 0 7 code bs := by
  simp only [asksNow, Bool.and_eq_true, beq_iff_eq, Bool.not_eq_true', Option.isNone_iff_eq_none] at h
  obtain ⟨⟨⟨⟨⟨⟨h1, h2⟩, h3⟩, h4⟩, h5⟩, h6⟩, h7⟩ := h
  exact ⟨by decide, by decide, h1, h2, h3, h4, ok_of_is h5, h6, h7⟩

theorem wit_RequestsAreReplied : live.fns.length = 5 ∧ 7 < (fnOf live 0).mailboxes.length := by decide +kernel
theorem wit_RequestsAreReplied_refused : let s := post live 0x0021 [5]
    let M := takenMbx s 0 7
    fwServes s = true ∧ (mbxOf s 0 7).state = .posted ∧ reqCode (mbxOf s 0 7) = 0x0021 ∧ blocked s 0 7 = false
      ∧ okIs (reqBody (taken s 0 7) 0 M) [5] = true ∧ requestFail (taken s 0 7) 0 M [5] = some .loadBadLength := by decide +kernel
theorem wit_RequestsAreReplied_waits : fwServes State.reset = false ∧ (mbxOf State.reset 0 0).state ≠ .taken := by decide +kernel

/-- QUEUE_ENABLE of queue 255, of kind 1 with a ring of a plot at 0x20000 and vector 63. -/
def bEnable : List Byte := bytes 24 [(0, 255), (2, 1), (4, 16), (6, 63), (8, 0x20000)]
theorem wit_QueueRequests_enable : let s := post live 0x0020 bEnable
    let c := queueCfgOf (asking s 0 7 bEnable)
    asked s 0 7 0x0020 bEnable ∧ enableShape (taken s 0 7) 255 c = false ∧ c.base % 4096 = 0
      ∧ mappedRead (taken s 0 7) c.part c.base (2 ^ c.ringLog2) = true :=
  ⟨asked_of (by decide +kernel), by decide +kernel⟩
def bQueue : List Byte := bytes 8 [(0, 1)]
theorem wit_QueueRequests_disable : asked (post live 0x0021 bQueue) 0 7 0x0021 bQueue ∧ payFld bQueue 0 2 ≤ 255 :=
  ⟨asked_of (by decide +kernel), by decide +kernel⟩
theorem wit_QueueRequests_resume : let s := post (ringed .halted 3 7) 0x0022 bQueue
    asked s 0 7 0x0022 bQueue ∧ (queueOf (taken s 0 7) 1).state = .halted := ⟨asked_of (by decide +kernel), by decide +kernel⟩
def bAbort : List Byte := bytes 24 [(0, 3), (8, 3), (16, 1)]
theorem wit_QueueRequests_abort : asked (post live 0x0023 bAbort) 0 7 0x0023 bAbort ∧ payFld bAbort 0 8 ≤ payFld bAbort 8 8 :=
  ⟨asked_of (by decide +kernel), by decide +kernel⟩
theorem wit_QueueRequests_gone : 1 < (ringed .run 3 7).queues.length ∧ (queueOf (ringed .run 3 7) 1).state ≠ .disabled := by decide +kernel

/-- A device without a partition, and a PARTITION_CONFIG of all of it. -/
def bare : State := { live with parts := List.replicate 4 noPartition }
def bConfig : List Byte := bytes 64 [(3, 12), (6, 0xFFFF), (8, 0xFFFFFF), (26, 256), (32, 4096), (36, 1000), (40, 1000)]
theorem wit_PartitionRequests_config : let s := post bare 0x0010 bConfig
    asked s 0 7 0x0010 bConfig ∧ cfgRefusal (taken s 0 7) 0 (cfgOf bConfig) bConfig = none ∧ 0 < (taken s 0 7).parts.length :=
  ⟨asked_of (by decide +kernel), by decide +kernel⟩
theorem wit_PartitionRequests_remove : let s := post live 0x0011 [0]
    asked s 0 7 0x0011 [0] ∧ payFld [(0 : Byte)] 0 1 ≤ 3 ∧ (partOf (taken s 0 7) 0).configured = true :=
  ⟨asked_of (by decide +kernel), by decide +kernel⟩
/-- Half a device beside a partition of the other half. -/
def halved : State := setPart bare 1 fun _ => { home with cfg := { home.cfg with
  cols := 6, drillMask := 1, groupMask := 1, queues := 16, streams := 4096 } }
def bHalf : List Byte := bytes 64 [(2, 6), (3, 6), (6, 2), (8, 2), (24, 16), (26, 16), (28, 4096), (32, 4096)]
theorem wit_PartitionRequests_apart : cfgRefusal halved 0 (cfgOf bHalf) bHalf = none ∧ 1 < halved.parts.length
    ∧ (partOf halved 1).configured = true := by decide +kernel

def bMap : List Byte := bytes 48 [(0, 0x1000000), (8, 2), (12, 3), (13, 1)]
def bRun : List Byte := bytes 16 [(0, 0x10000), (8, 2)]
theorem wit_PlotRequests_map : let s := post live 0x0050 bMap
    asked s 0 7 0x0050 bMap ∧ mapRefusal (taken s 0 7) 0 0 bMap = none := ⟨asked_of (by decide +kernel), by decide +kernel⟩
theorem wit_PlotRequests_unmap : let s := post live 0x0051 bRun
    let P := partOf (taken s 0 7) 0
    asked s 0 7 0x0051 bRun ∧ runRefusal 0x10000 2 = none ∧ (mbxOf (taken s 0 7) 0 7).begun = false
      ∧ plotsOk P 1 2 (fun pl => match pl.home with | .window _ => false | _ => true) = true ∧ plotsOk P 1 2 (fun _ => true) = true
      ∧ (P.plots.any fun e => decide (1 ≤ e.1) && decide (e.1 < 3) && e.2.moving) = false :=
  ⟨asked_of (by decide +kernel), by decide +kernel⟩
/-- An unmap finds a move of one of its plots under way. -/
theorem wit_PlotRequests_unmapWaits : let u := setPlot live 0 2 fun pl => { pl with moving := true }
    let s := post { u with mem := { u.mem with moves := [⟨0, 2, .subsoil 7, .command 1, 0, true, []⟩] } } 0x0051 bRun
    let x := taken s 0 7
    let run := ((partOf x 0).plots.filter fun e => decide (1 ≤ e.1) && decide (e.1 < 1 + 2)).map (·.1)
    asked s 0 7 0x0051 bRun ∧ unmapsLeft (runMover (run.foldl (queueUnmap 0 0 7) x)) 0 7 = true ∧ (taken (post live 0x0051 bRun) 0 7).mem.moves = [] :=
  ⟨asked_of (by decide +kernel), by decide +kernel, by decide +kernel⟩
theorem wit_PlotRequests_query : let s := post live 0x0052 bRun
    asked s 0 7 0x0052 bRun ∧ 2 ≤ (asking s 0 7 bRun).room / 16 := ⟨asked_of (by decide +kernel), by decide +kernel⟩
def bWindowOff : List Byte := bytes 24 []
def bWindow : List Byte := bytes 24 [(0, 7), (1, 2), (2, 1), (4, 1), (8, 0x1000000)]
theorem wit_PlotRequests_windowOff : let s := post (windowed .empty) 0x0053 bWindowOff
    asked s 0 7 0x0053 bWindowOff ∧ windowBusy (taken s 0 7) 0 0 = false ∧ wsPositions bWindowOff = 0 :=
  ⟨asked_of (by decide +kernel), by decide +kernel⟩
theorem wit_PlotRequests_window : let s := post live 0x0053 bWindow
    asked s 0 7 0x0053 bWindow ∧ payFld bWindow 0 1 ≤ 7 ∧ windowBusy (taken s 0 7) 0 7 = false ∧ wsPositions bWindow ≠ 0
      ∧ runRefusal (wsBase bWindow) (wsPositions bWindow * wsPlots bWindow) = none
      ∧ windowRefusal (windowRemoved (taken s 0 7) 0 7) 0 bWindow = none := ⟨asked_of (by decide +kernel), by decide +kernel⟩

def bLayout : List Byte := bytes 16 [(0, 63), (1, 1), (8, 64 + 2 ^ 24)]
theorem wit_StreamRequests_layout : let s := post live 0x0030 bLayout
    asked s 0 7 0x0030 bLayout ∧ payFld bLayout 0 1 ≤ 63 ∧ payFld bLayout 1 1 ≤ 64
      ∧ ((List.range (payFld bLayout 1 1)).map fun i => recordOfEntry (layoutEntry bLayout i)).all recordOk = true
      ∧ layoutUsed (taken s 0 7) 0 63 = false := ⟨asked_of (by decide +kernel), by decide +kernel⟩
def bStreams : List Byte := bytes 16 [(0, 4095), (4, 1)]
theorem wit_StreamRequests_query : let s := post resident 0x0031 bStreams
    asked s 0 7 0x0031 bStreams ∧ payFld bStreams 4 4 ≠ 0 ∧ payFld bStreams 4 4 ≤ min 1024 ((asking s 0 7 bStreams).room / 64) :=
  ⟨asked_of (by decide +kernel), by decide +kernel⟩
def bPool : List Byte := bytes 48 [(0, 7), (1, 1), (2, 1), (3, 1), (4, 64), (6, 64), (8, 2), (12, 16), (16, 8), (20, 8), (24, 4)]
theorem wit_StreamRequests_pool : let s := post live 0x0040 bPool
    let y := poolReleased (taken s 0 7) 0 7
    let u := poolUnits (poolShape bPool)
    asked s 0 7 0x0040 bPool ∧ payFld bPool 0 1 ≤ 7 ∧ poolInRange (poolShape bPool) = true ∧ poolOf (taken s 0 7) 0 7 = none
      ∧ u.1 ≤ loamLeft (partOf y 0) ∧ (freeLoam y (ceilDiv u.1 16) (partSlices y (partOf y 0))).length = ceilDiv u.1 16
      ∧ u.2 ≤ subLeft (partOf y 0) ∧ (freeSub y 0 (ceilDiv u.2 16)).length = ceilDiv u.2 16 :=
  ⟨asked_of (by decide +kernel), by decide +kernel⟩
def bPages : List Byte := bytes 16 [(4, 15), (12, 1)]
theorem wit_StreamRequests_pages : let s := post resident 0x0041 bPages
    asked s 0 7 0x0041 bPages ∧ payFld bPages 12 2 ≠ 0 ∧ payFld bPages 12 2 ≤ (asking s 0 7 bPages).room / 32
      ∧ (poolOf (taken s 0 7) 0 0).map (fun K => decide (payFld bPages 4 4 + payFld bPages 12 2 ≤ K.pages)) = some true :=
  ⟨asked_of (by decide +kernel), by decide +kernel⟩
/-- An indirect request: its body, and the room of its reply, lie in plot 2. -/
def postFar (s : State) (code len : Nat) (bs : List Byte) : State :=
  setMbx (holding s [(0x20000, bs)]) 0 7 fun M => { M with
    state := .posted, request := toLe 16 (word [(0, code), (16, 1), (32, 16)]) ++ bytes 16 [(0, 0x20000), (8, len)] }
def bRoot : List Byte := bytes 1088 [(0, 1), (12, 1)]
/-- An indirect body whose line cannot be read, and a request to a halted command path. -/
theorem wit_RequestsAreReplied_unreadable : let s := postFar resident 0x0041 1088 bRoot
    let s := { s with mem := { s.mem with poison := [loamAddr 1 / 64] } }
    fwServes s = true ∧ (mbxOf s 0 7).state = .posted ∧ blocked s 0 7 = false ∧ isOkB (reqBody (taken s 0 7) 0 (takenMbx s 0 7)) = false
      ∧ requestFail (taken s 0 7) 0 (takenMbx s 0 7) [] = none := by decide +kernel
theorem wit_RequestsAreReplied_halted : let s := setFlt (post (ringed .halted 3 7) 0x0022 bQueue) fun F => { F with halted := true }
    fwServes s = true ∧ (mbxOf s 0 7).state = .posted ∧ blocked s 0 7 = false ∧ okIs (reqBody (taken s 0 7) 0 (takenMbx s 0 7)) bQueue = true
      ∧ requestFail (taken s 0 7) 0 (takenMbx s 0 7) bQueue = none ∧ commandPath 0x0022 = true ∧ (taken s 0 7).flt.halted = true := by decide +kernel
def bDir : List Byte := bytes 16 [(0, 2), (2, 63), (4, 4095), (12, 1)]
theorem wit_StreamRequests_root : let s := postFar resident 0x0041 1088 bRoot
    asked s 0 7 0x0041 bRoot ∧ payFld bRoot 12 2 = 1 ∧ 1088 ≤ (asking s 0 7 bRoot).room := ⟨asked_of (by decide +kernel), by decide +kernel⟩
theorem wit_StreamRequests_directory : let s := post resident 0x0041 bDir
    asked s 0 7 0x0041 bDir ∧ payFld bDir 0 1 = 2 ∧ payFld bDir 2 2 ≤ 63 ∧ payFld bDir 12 2 ≤ (asking s 0 7 bDir).room / 4
      ∧ payFld bDir 4 4 + payFld bDir 12 2 ≤ 4096 := ⟨asked_of (by decide +kernel), by decide +kernel⟩

def bTick : List Byte := bytes 32 [(0, 1), (4, 1000000)]
theorem wit_DeviceRequests_tick : let s := post live 0x0070 bTick
    asked s 0 7 0x0070 bTick ∧ tickBadShape (taken s 0 7) bTick = false ∧ payFld bTick 0 1 ≠ 2 := ⟨asked_of (by decide +kernel), by decide +kernel⟩
def bKey (op : Nat) : List Byte := bytes 48 [(0, 15), (1, op)]
theorem wit_DeviceRequests_key : ∀ op ∈ [0, 1, 2],
    let s := post (setPart live 0 fun P => { P with wrapKey := some 3 }) 0x0080 (bKey op)
    asked s 0 7 0x0080 (bKey op) ∧ payFld (bKey op) 0 1 ≤ 15 ∧ payFld (bKey op) 1 1 = op ∧ (partOf (taken s 0 7) 0).wrapKey = some 3 := by
  have h : ∀ op ∈ [0, 1, 2], asksNow (post (setPart live 0 fun P => { P with wrapKey := some 3 }) 0x0080 (bKey op)) 0x0080 (bKey op) = true := by
    decide +kernel
  have g : ∀ op ∈ [0, 1, 2], payFld (bKey op) 0 1 ≤ 15 ∧ payFld (bKey op) 1 1 = op
      ∧ (partOf (taken (post (setPart live 0 fun P => { P with wrapKey := some 3 }) 0x0080 (bKey op)) 0 7) 0).wrapKey = some 3 := by
    decide +kernel
  exact fun op ho => ⟨asked_of (h op ho), g op ho⟩
def bPower : List Byte := bytes 16 [(0, 520), (2, 450), (5, 60)]
theorem wit_DeviceRequests_power : let c := pwrCfgOf bPower
    asked (post live 0x0090 bPower) 0 7 0x0090 bPower ∧ 280 ≤ c.pl1 ∧ c.pl1 ≤ 520 ∧ 280 ≤ c.pl100 ∧ c.pl100 ≤ 450 ∧ 60 ≤ c.target ∧ c.target ≤ 95
      ∧ c.pl100 ≤ c.pl1 := ⟨asked_of (by decide +kernel), by decide +kernel⟩
def bMargin : List Byte := bytes 16 [(0, 191), (2, 3)]
theorem wit_DeviceRequests_margin : let s := post bare 0x0060 bMargin
    asked s 0 7 0x0060 bMargin ∧ marginRefusal (taken s 0 7) bMargin = none := ⟨asked_of (by decide +kernel), by decide +kernel⟩

theorem wit_FirmwareRequests_info : asked (post live 0x0001 []) 0 7 0x0001 [] := asked_of (by decide +kernel)
/-- An image of one segment, and a device that runs one. -/
def anImage : Image :=
  { head := { magic := 0x5A525448, kind := 1, root := 0, reserved := 0, svn := 2, bodyLen := 64, boundKey := 0, length := 5524, signed := true, digest := [] }
    entry := 0, segments := [(0, 64)], handoff := 1, handoffMin := 1, handoffMax := 1, reserved := 0 }
def imaged : State := setBoot live fun b => { b with image := some anImage }
def bUpdate : List Byte := bytes 16 [(0, 0x1000), (8, 5524)]
theorem wit_FirmwareRequests_update : let s := post imaged 0x0002 bUpdate
    let x := taken s 0 7
    asked s 0 7 0x0002 bUpdate ∧ updatingBox x 0 7 = false ∧ updateBadShape x bUpdate = false ∧ mayIssue x 0 = true
      ∧ updateSigned x (payFld bUpdate 8 4) anImage = true ∧ handoffFits x anImage = true := ⟨asked_of (by decide +kernel), by decide +kernel⟩
/-- An update in a stage. -/
def updating (st : UpdSt) : State := setBoot imaged fun b => { b with handoff := true, update := some ⟨0, 7, anImage, anImage, st⟩ }
theorem wit_FirmwareRequests_stages : ∀ st ∈ [UpdSt.quiescing, .saved, .switched],
    (updating st).boot.update = some ⟨0, 7, anImage, anImage, st⟩ ∧ (updating st).boot.fwAlive = true ∧ othersTaken (updating st) = false := by
  decide +kernel

def bInject (mode : Nat) : List Byte := bytes 16 [(0, 1), (2, mode), (4, 191), (6, if mode = 2 then 1 else 0)]
theorem wit_TestRequests_inject : ∀ mode ∈ [0, 1, 2, 3], let s := post live 0x00A0 (bInject mode)
    asked s 0 7 0x00A0 (bInject mode) ∧ payFld (bInject mode) 2 1 = mode ∧ targetInRange 1 191 = true ∧ targetEnabled (taken s 0 7) 1 191 = true
      ∧ testModePoint 1 = false ∧ (mode = 2 → payFld (bInject mode) 6 2 ≠ 0) ∧ payFld (bInject mode) 4 2 = 191 ∧ lowestFree [] 16 = some 0 := by
  have h : ∀ mode ∈ [0, 1, 2, 3], asksNow (post live 0x00A0 (bInject mode)) 0x00A0 (bInject mode) = true := by decide +kernel
  have g : ∀ mode ∈ [0, 1, 2, 3], payFld (bInject mode) 2 1 = mode ∧ targetInRange 1 191 = true
      ∧ targetEnabled (taken (post live 0x00A0 (bInject mode)) 0 7) 1 191 = true ∧ testModePoint 1 = false
      ∧ (mode = 2 → payFld (bInject mode) 6 2 ≠ 0) ∧ payFld (bInject mode) 4 2 = 191 ∧ lowestFree [] 16 = some 0 := by decide +kernel
  exact fun mode hm => ⟨asked_of (h mode hm), g mode hm⟩
theorem wit_TestRequests_arm : let s := setFlt live fun F => { F with inj := [(15, ⟨1, 1, 191, 0, 1000000, false⟩)] }
    lookupKey 15 s.flt.inj = some ⟨1, 1, 191, 0, 1000000, false⟩ ∧ powered s = true ∧ 1000000 ≤ s.now := by decide +kernel
def bBist (op : Nat) : List Byte := bytes 16 [(0, op)]
theorem wit_TestRequests_bist : ∀ op ∈ [0, 1, 2, 3, 4, 5], let s := post bare 0x00A1 (bBist op)
    asked s 0 7 0x00A1 (bBist op) ∧ payFld (bBist op) 0 1 = op ∧ fullField (taken s 0 7) = true ∧ (mbxOf (taken s 0 7) 0 7).begun = false
      ∧ anyConfigured (taken s 0 7) = false ∧ (taken s 0 7).flt.bist.full = false ∧ mayIssue (taken s 0 7) 0 = true := by
  have h : ∀ op ∈ [0, 1, 2, 3, 4, 5], asksNow (post bare 0x00A1 (bBist op)) 0x00A1 (bBist op) = true := by decide +kernel
  have g : ∀ op ∈ [0, 1, 2, 3, 4, 5], payFld (bBist op) 0 1 = op ∧ fullField (taken (post bare 0x00A1 (bBist op)) 0 7) = true
      ∧ (mbxOf (taken (post bare 0x00A1 (bBist op)) 0 7) 0 7).begun = false ∧ anyConfigured (taken (post bare 0x00A1 (bBist op)) 0 7) = false
      ∧ (taken (post bare 0x00A1 (bBist op)) 0 7).flt.bist.full = false ∧ mayIssue (taken (post bare 0x00A1 (bBist op)) 0 7) 0 = true := by
    decide +kernel
  exact fun op ho => ⟨asked_of (h op ho), g op ho⟩

/-! ### Ticks -/

/-- The tick unit in a state, of a source, with tick 4 latched and the next due at a time. -/
def ticks (st : TickSt) (source next : Nat) : State :=
  { ticking live with tick := { (ticking live).tick with st := st, source := source, next := next, localNext := 1000000, port := 3 } }
def waitsNow (s : State) : Bool := s.tick.st == .track || s.tick.st == .holdover
theorem wit_CandidatesTick_edge : (ticks .acquire 1 0).flt.inj = [] ∧ (ticks .acquire 1 0).tick.st = .acquire
    ∧ waitsNow (ticks .track 1 750000) = true ∧ inWindow (ticks .track 1 750000).tick (ticks .track 1 750000).now = true
    ∧ waitsNow (ticks .holdover 1 749999) = true ∧ inWindow (ticks .holdover 1 749999).tick (ticks .holdover 1 749999).now = false := by
  decide +kernel
theorem wit_CandidatesTick_ptp : let s (st : TickSt) (next : Nat) : State :=
      { ticks st 2 next with net := { live.net with ports := List.replicate 4 { noPort with sync := true } } }
    ((s .acquire 0).tick.source = 2 ∧ (portOf (s .acquire 0) (s .acquire 0).tick.port).sync = true ∧ lastTick (s .acquire 0).tick = 4)
      ∧ inWindow (s .track 1250000).tick (s .track 1250000).now = true ∧ inWindow (s .track 1250001).tick (s .track 1250001).now = false := by
  decide +kernel
/-- Port 3's clock stands at its boundary 1, after tick 0 or tick 4. -/
def onPort (st : TickSt) (last : Nat) : State :=
  { ticks st 2 1000000 with
    tick := { (ticks st 2 1000000).tick with latches := [(last, 0)] }
    net := { live.net with ports := List.replicate 4 { noPort with sync := true } } }
theorem wit_CandidatesTick_boundary : ∀ st ∈ [TickSt.acquire, .track], let s := onPort st 0
    s.tick.source = 2 ∧ (portOf s s.tick.port).sync = true ∧ atBoundary s s.tick.port 1 = true ∧ lastTick s.tick = 0 ∧ s.tick.st = st
      ∧ inWindow s.tick s.now = true := by decide +kernel
theorem wit_OtherCandidatesAreRefused_boundary : ∀ st ∈ [TickSt.acquire, .track], let s := onPort st 4
    atBoundary s s.tick.port 5 = false ∧ atBoundary s s.tick.port 1 = true ∧ lastTick s.tick = 4 ∧ s.tick.st = st := by decide +kernel
theorem wit_CandidatesTick_local : (ticks .acquire 3 0).tick.source = 3 ∧ (ticks .acquire 3 0).tick.localNext ≤ (ticks .acquire 3 0).now
    ∧ inWindow (ticks .track 3 1250000).tick 1000000 = true ∧ inWindow (ticks .track 3 1250001).tick 1000000 = false := by decide +kernel
theorem wit_CandidatesTick_period : let u := { (ticking live).tick with pn := 1125000 }
    u.pnom - u.pnom / 8 ≤ u.pn ∧ u.pn ≤ u.pnom + u.pnom / 8 := by decide +kernel
theorem wit_OtherCandidatesAreRefused_edge : let s := ticks .holdover 1 749999
    s.flt.inj = [] ∧ waitsNow s = true ∧ inWindow s.tick s.now = false := by decide +kernel
theorem wit_OtherCandidatesAreRefused_ptp : let s (st : TickSt) : State :=
      { ticks st 2 1000000 with net := { live.net with ports := List.replicate 4 { noPort with sync := true } } }
    (s .acquire).tick.source = 2 ∧ (portOf (s .acquire) (s .acquire).tick.port).sync = true ∧ 4 ≤ lastTick (s .acquire).tick
      ∧ waitsNow (s .track) = true ∧ inWindow (s .track).tick (s .track).now = true ∧ 6 ≠ lastTick (s .track).tick + 1 := by decide +kernel
theorem wit_OtherCandidatesAreRefused_local : let s := ticks .track 3 1250001
    s.tick.source = 3 ∧ s.tick.localNext ≤ s.now ∧ waitsNow s = true ∧ inWindow s.tick s.tick.localNext = false := by decide +kernel
theorem wit_OtherCandidatesAreRefused_second : let u := (ticks .track 1 1000000).tick
    0 < u.pnom ∧ u.pnom - u.pnom / 8 ≤ u.pn ∧ u.pn ≤ u.pnom + u.pnom / 8 ∧ inWindow u 750000 = true ∧ 750000 ≤ 1250000
      ∧ 1250000 ≤ u.next + u.pnom / 4 := by decide +kernel
theorem wit_OtherCandidatesAreRefused_off : live.tick.st = .off ∧ live.tick.source = 0 := by decide +kernel
theorem wit_WindowsClose_synthesised : let s := ticks .holdover 1 750000
    waitsNow s = true ∧ s.tick.next + s.tick.pnom / 4 ≤ s.now ∧ s.tick.misses < s.tick.holdover := by decide +kernel
theorem wit_WindowsClose_lost : let s := { ticks .holdover 1 750000 with tick := { (ticks .holdover 1 750000).tick with misses := 2 } }
    s.tick.next + s.tick.pnom / 4 ≤ s.now ∧ s.tick.holdover ≤ s.tick.misses := by decide +kernel

/-! ### The network -/

def cSend : Cmd := cmdOf 0x400 1 (word [(0, 0x10000), (64, 2), (80, 1), (352, 64), (416, 0x1000)]) []
def cRecv : Cmd := cmdOf 0x401 1 (word [(0, 0x20000), (64, 2), (128, 64)]) []
def cBarrier : Cmd := cmdOf 0x402 1 (word [(0, 0x10000), (64, 1), (80, 7), (96, 9)]) []
def netState (c : Cmd) : State := holding (checking (paired live) 4 c) [(0x10000, toLe 2 2)]

theorem wit_NetCommandsRun_send : starts (netState cSend) 1 0x400 checksNetSend (queueOf (netState cSend) 1) cSend
    ∧ isOkB (loadBytes (netState cSend) 0 (fld cSend.body 0 48) (nsLen cSend.body)) = true :=
  ⟨starts_of (by decide +kernel) (by decide +kernel), by decide +kernel⟩
theorem wit_NetCommandsRun_recv : starts (netState cRecv) 1 0x401 checksNetRecv (queueOf (netState cRecv) 1) cRecv :=
  starts_of (by decide +kernel) (by decide +kernel)
theorem wit_NetCommandsRun_barrier : starts (netState cBarrier) 1 0x402 checksNetBarrier (queueOf (netState cBarrier) 1) cBarrier
    ∧ readQps (running (netState cBarrier) 1 cBarrier) 0 cBarrier.body = .ok (some [2]) :=
  ⟨starts_of (by decide +kernel) (by decide +kernel), ok_of_is (by decide +kernel)⟩
theorem wit_NetCommandsRun_first : ∀ c ∈ [cSend, cRecv, cBarrier], lcNetFirst (netState c) 1 = false := by decide +kernel
/-- Queue 1's message waits for its acknowledgement on queue pair 2, after some tries; queue 1's receive is posted there. -/
def sent (tries : Nat) : State := setQp (netState cSend) 2 fun x => { x with sends := [1], tries := tries }
theorem wit_NetCommandsRun_answers : ∀ k ∈ [2, 3], (qpOf (sent k) 2).map (fun x => (x.st, x.sends, decide (ctxRetry x.ctx ≤ x.tries))) = some (.ready, [1], decide (k = 3))
    ∧ (queueOf (sent k) 1).cmd = some cSend ∧ cSend.ending = none ∧ hOpcode cSend.hdr ≠ 0x403 ∧ cSend.stall = none ∧ 1 < (sent k).queues.length := by
  decide +kernel

/-- Whether the hypotheses of InboundArrives hold of queue pair 2. -/
def openPair (s : State) : Bool :=
  (match qpOf s 2 with | some x => x.st == .ready && (linkOf s (qpLink x)).up && !linkMacsec s (qpLink x) | none => false)
def thePair : Qp := newQp 0 (word [(398, 5), (403, 3), (406, 1), (407, 1), (416, 0x10000), (464, 0x1000)]) 99
theorem wit_InboundArrives_write : openPair (netState cRecv) = true ∧ qpOf (netState cRecv) 2 = some thePair
    ∧ windowGrants thePair 99 0x10FFF 1 true = true ∧ isOkB (inboundStore (received (netState cRecv) 2 thePair 1) 0 0x10FFF [5]) = true
    ∧ windowGrants thePair 99 0x10FFF 2 true = false := by decide +kernel
theorem wit_InboundArrives_read : windowGrants thePair 99 0x10FFF 1 false = true ∧ isOkB (inboundLoad (netState cRecv) 0 0x10FFF 1) = true
    ∧ windowGrants thePair 98 0x10FFF 1 false = false := by decide +kernel
def receiving : State := setQp (netState cRecv) 2 fun x => { x with recvs := [1] }
theorem wit_InboundArrives_send : openPair receiving = true ∧ (qpOf receiving 2).map (postedRecvs receiving) = some [1] ∧ postedRecvs (netState cRecv) thePair = []
    ∧ (queueOf receiving 1).cmd = some cRecv ∧ 64 ≤ nrLen cRecv.body
    ∧ (qpOf receiving 2).map (fun x => isOkB (inboundStore (received receiving 2 x 64) 0 0x20000 (List.replicate 64 5))) = some true
    ∧ (qpOf receiving 2).map (fun x => windowGrants x 99 0x10000 64 true) = some true
    ∧ (qpOf receiving 2).map (fun x => isOkB (inboundStore (received receiving 2 x 64) 0 0x10000 (List.replicate 64 5))) = some true := by
  decide +kernel
/-- A pair whose window lies where no plot is mapped. -/
def offPair : Qp := newQp 0 (word [(398, 5), (403, 3), (406, 1), (407, 1), (416, 0x110000), (464, 0x1000)]) 99
theorem wit_InboundArrives_unmapped : let s := setQp (netState cRecv) 2 fun _ => offPair
    openPair s = true ∧ windowGrants offPair 99 0x110000 1 true = true ∧ mappedWrite (received s 2 offPair 1) 0 0x110000 1 = false := by decide +kernel
theorem wit_InboundArrives_long : nrLen cRecv.body < 65 ∧ 0xAFFF0007 / 2 ^ 16 ≠ 0xB000 ∧ 0xB0000007 / 2 ^ 16 = 0xB000 := by decide +kernel
/-- A barrier of queue 1 waits for the token of queue pair 2. -/
def barred : State := setPart (netState cBarrier) 0 fun P => { P with barriers := [⟨1, 7, 9, [2], 0, [], 0, false⟩] }
theorem wit_InboundArrives_token : openPair barred = true
    ∧ (partOf barred 0).barriers.find? (fun b => (queueOf barred b.q).result.isNone && tokenFits b ⟨2, 0xB0000007 - 0xB0000000, 9⟩ && !b.arrived.contains (b.qps.idxOf 2))
      = some ⟨1, 7, 9, [2], 0, [], 0, false⟩ := by decide +kernel
theorem wit_InboundArrives_held : (partOf (netState cRecv) 0).barriers = [] ∧ lookupKey 7 (partOf (netState cRecv) 0).barrierEpochs = none
    ∧ (partOf (netState cRecv) 0).barrierTokens.length < 4096 := by decide +kernel

/-- Port 0 in a configuration, link 0 up or down with a key. -/
def linked (cfg : Nat) (up : Bool) : State :=
  { paired live with net := { (paired live).net with
      ports := List.replicate 4 { noPort with cfg := cfg, good := 15 }, links := List.replicate 8 { noLink with up := up, cak := some 1 } } }
theorem wit_LinksChange_up : linkInMode (linked 1 false) 0 = true ∧ (linkOf (linked 1 false) 0).up = false ∧ (linked 1 false).net.links.length = 8 := by
  decide +kernel
theorem wit_LinksChange_down : (linkOf (linked 1 true) 0).up = true ∧ ((linked 1 true).net.qps.map (·.1)).Nodup
    ∧ (qpOf (linked 1 true) 2).map (fun x => (qpLink x, x.st)) = some (0, .ready) := by decide +kernel
theorem wit_LinksChange_macsec : linkMacsec (linked (1 + 2 ^ 16) true) 0 = true ∧ (linked (1 + 2 ^ 16) true).flt.inj = []
    ∧ (linkOf (linked (1 + 2 ^ 16) true) 0).cak.isSome = true := by decide +kernel
theorem wit_LinksChange_pause : bitOf (portOf (linked (1 + 2 ^ 20) true) 0).cfg 20 = true ∧ bitOf (portOf (linked 1 true) 0).cfg 20 = false := by
  decide +kernel
theorem wit_LinksChange_sync : (linkOf (linked 1 true) (2 * 0)).up = true ∧ 0 < (linked 1 true).net.ports.length ∧ (250 : Int).natAbs ≤ 250
    ∧ 15 ≤ (portOf (linked 1 true) 0).good ∧ 250 < (-251 : Int).natAbs ∧ (-1000 : Int).natAbs ≤ 1000 ∧ 1000 < (1001 : Int).natAbs := by decide +kernel

/-! ### Power, temperature and faults -/

theorem wit_PowerIntervals : powered live = true ∧ live.pwr.next = none := by decide +kernel

def drooping : State := setPwr live fun P => { P with droop := [(95, 0)], vrLow := true }
theorem wit_ProtectionsAct_droop : lookupKey 95 live.pwr.droop = none ∧ powered drooping = true ∧ lookupKey 95 drooping.pwr.droop = some 0 := by
  decide +kernel
theorem wit_ProtectionsAct_alert : live.pwr.vrLow = false ∧ drooping.pwr.vrLow = true
    ∧ (∀ b ∈ [900000, 900001], (setPwr live fun P => { P with vrRise := some b }).pwr.vrRise = some b)
    ∧ 900000 + 100000 ≤ live.now ∧ live.now < 900001 + 100000 := by decide +kernel
theorem wit_ProtectionsAct_heat : live.flt.inj = [] ∧ live.pwr.hold = false ∧ (setPwr live fun P => { P with hold := true }).pwr.hold = true := by
  decide +kernel

theorem wit_FaultsProceed_latch : (detectorsOf (.engine 191)).contains 0x02 = true ∧ unitEnabled live (.engine 191) = true
    ∧ unitFailed live (.engine 191) = false ∧ live.flt.inj = [] ∧ live.flt.handling = [] := by decide +kernel
theorem wit_FaultsProceed_handling : ∀ b : Bool, let s := setFlt live fun F => { F with handling := [⟨.furrow 3, 3, false, 0, b⟩] }
    powered s = true ∧ s.flt.handling = [⟨.furrow 3, 3, false, 0, b⟩] := by
  intro b
  cases b <;> decide +kernel
def slicing (paused : Bool) : State := setBist live fun b => { b with startupDone := true, periodic := true, due := 1000000, paused := paused }
theorem wit_FaultsProceed_slice : ∀ p : Bool, (slicing p).flt.bist.startupDone = true ∧ (slicing p).flt.bist.periodic = true
    ∧ (slicing p).flt.bist.due ≤ (slicing p).now ∧ (slicing p).flt.bist.paused = p ∧ 1400 ≤ (slicing p).pwr.aclk
    ∧ (setPwr (slicing p) fun P => { P with aclk := 1399 }).pwr.aclk < 1400 := by
  intro p
  cases p <;> decide +kernel
def claiming : State := setBist live fun b => { b with claims := [⟨11, 23, 0⟩] }
theorem wit_FaultsProceed_test : claiming.flt.bist.claims.find? (·.col == 11) = some ⟨11, 23, 0⟩
    ∧ targetIdle claiming (targetOf 11 23) = true ∧ isStorage (targetOf 11 23) = false := by decide +kernel

theorem wit_WatchdogsAct : live.boot.dev = .run ∧ live.boot.st = .running ∧ live.flt.inj = [] ∧ live.boot.expired.length = 4
    ∧ (live.boot.expiries.filter fun e => e.1 == 3 && decide (live.now < e.2 + 1000000000)).length < 2 := by decide +kernel
theorem wit_WatchdogsAct_third : let s := setBoot live fun b => { b with expiries := [(3, 0), (3, 999999)] }
    2 ≤ (s.boot.expiries.filter fun e => e.1 == 3 && decide (s.now < e.2 + 1000000000)).length := by decide +kernel
def recovering : State := setBoot live fun b => { b with fwAlive := false, recovering := [2] }
theorem wit_WatchdogsAct_recovers : recovering.boot.recovering.contains 2 = true ∧ heldBy recovering 2 = []
    ∧ heldBy (setMbx recovering 0 7 fun M => { M with state := .taken, held := some 2 }) 2 = [(0, 7)]
    ∧ (mbxOf (setMbx recovering 0 7 fun M => { M with state := .taken, held := some 2 }) 0 7).begun = false := by decide +kernel
theorem wit_WatchdogsAct_alive : (setBoot recovering fun b => { b with recovering := [] }).boot.fwAlive = false
    ∧ (setBoot recovering fun b => { b with recovering := [] }).boot.recovering = []
    ∧ (setBoot live fun b => { b with fwReady := false }).boot.fwAlive = true := by decide +kernel

/-! ### Start-up, PCI Express, security and management -/

theorem wit_StartUpProceeds_device : live.boot.dev ≠ .held ∧ State.reset.boot.dev = .held ∧ live.boot.dev = .run
    ∧ (setBoot live fun b => { b with clocks := false }).boot.clocks = false := by decide +kernel
/-- Clocks run and nothing else has happened. -/
def early : State := { State.reset with boot := { noBoot with dev := .run, clocks := true } }
theorem wit_StartUpProceeds_early : powered early = true ∧ early.boot.rngDone = false ∧ early.boot.loamZeroed = false := by decide +kernel
theorem wit_StartUpProceeds_link : let s := setBoot early fun b => { b with rngDone := true }
    powered s = true ∧ s.boot.rngDone = true ∧ s.pcie.linkUp = false ∧ linkShape 6 16 true = true ∧ s.pcie.trained = false := by decide +kernel
theorem wit_StartUpProceeds_jtag : JtagOp.extest ≠ .bypass ∧ JtagOp.extest ≠ .idcode ∧ live.boot.dev ≠ .held ∧ State.reset.boot.dev = .held := by
  decide +kernel

theorem wit_LoadsRun_fetch : let s := setBoot live fun b => { b with st := .fetch }
    s.boot.st = .fetch ∧ s.flt.inj = [] := by decide +kernel
theorem wit_LoadsRun_test : let s := setBoot live fun b => { b with st := .check, profile := some { wholeProfile with furrows := 88 } }
    powered s = true ∧ s.boot.st = .check ∧ fullField s = false := by decide +kernel
theorem wit_LoadsRun_full : let s := setBoot live fun b => { b with st := .check, image := some anImage }
    powered s = true ∧ s.boot.st = .check ∧ fullField s = true ∧ s.boot.image = some anImage ∧ s.boot.profile = some wholeProfile := by decide +kernel

theorem wit_FunctionsReset : pciReaches live 1 = true ∧ 0 < 1 ∧ live.fns.length = 5 ∧ live.pcie.fns.length = 5
    ∧ (∀ m, (mbxOf live 1 m).state ≠ .taken) := by
  have h : (fnOf live 1).mailboxes = List.replicate 8 noMailbox := by decide +kernel
  refine ⟨by decide +kernel, by decide, by decide +kernel, by decide +kernel, fun m => ?_⟩
  have g : mbxOf live 1 m = noMailbox := by
    unfold mbxOf
    rw [h]
    rcases m with _ | _ | _ | _ | _ | _ | _ | _ | m <;> rfl
  rw [g]
  decide
theorem wit_FunctionsReset_power : let s := setPci live 1 fun f => { f with resetting := true, d3hot := true }
    pciReaches s 1 = true ∧ (pciFn s 1).resetting = true ∧ (pciFn s 1).d3hot = true := by decide +kernel

/-- Queue 1 reads a host plot. -/
def hostReader : State :=
  let s := setPart live 0 fun P => { P with plots := P.plots ++ [(20, plotAt .host)], anchors := [(0, .host 0x1000 0)] }
  setQueue (checking s 1 (cmdOf 0x131 2 0 [])) 1 fun Q => { Q with
    state := .run, cmd := Q.cmd.map fun c => { c with start := some 0, reads := [(20 * 0x10000, 64)] } }
theorem wit_LinksAreProtected_error : hostReader.flt.inj = [] ∧ hostReader.boot.st ≠ .fetch ∧ (hostErrorEnd hostReader 1).isSome = true
    ∧ hostErrorEnd live 1 = none := by decide +kernel
/-- Session 3 of the physical function's DOE has been established by the requester of root 8. -/
def sessioned (fin : Bool) : State :=
  { live with
    sec := { live.sec with sessions := [⟨3, true, some 8, fin, 0⟩], doe := { noPath with agreed := true, chunkNext := 2, large := [1, 2, 3] } }
    pcie := { live.pcie with ide := List.replicate 5 { noIde with key := some 6, secure := true } } }
theorem wit_LinksAreProtected_ide : pciReaches (sessioned true) 0 = true ∧ doeSession (sessioned true) 3 = true
    ∧ ((sessioned true).pcie.ide.getD 4 noIde).key.isSome = true ∧ (live.pcie.ide.getD 4 noIde).key = none
    ∧ (sessioned true).pcie.linkUp = true ∧ ((sessioned true).pcie.ide.getD 4 noIde).secure = true := by decide +kernel

theorem wit_SpdmAnswers : pathUp live true = true ∧ pathUp live false = true ∧ relayUp live = true ∧ live.boot.identity.isSome = true
    ∧ (pathOf live true).agreed = false ∧ (setBoot live fun b => { b with identity := none }).boot.identity = none := by decide +kernel
theorem wit_SpdmAnswers_agreed : let s := sessioned true
    (pathOf s true).agreed = true ∧ (pathOf s true).xfer = 0 ∧ 2 < (chainBytes s).length ∧ (measured s 5).isSome = true
      ∧ (pathOf s true).chunkNext = 2 ∧ 2 * max 1 (pathOf s true).xfer < (pathOf s true).large.length
      ∧ (pathOf s true).large.length ≤ (2 + 1) * max 1 (pathOf s true).xfer := by decide +kernel

theorem wit_SessionsAndOwner : ∀ fin : Bool, pathUp (sessioned fin) true = true ∧ (sessioned fin).boot.identity.isSome = true
    ∧ (pathOf (sessioned fin) true).xfer = 0 ∧ (pathOf (sessioned fin) true).agreed = true ∧ (sessioned fin).sec.sessions.length < 4
    ∧ sessionOn (sessioned fin) true 3 = some ⟨3, true, some 8, fin, 0⟩ := by
  intro fin
  cases fin <;> decide +kernel
theorem wit_SessionsAndOwner_full :
    4 ≤ ({ (sessioned true) with sec := { (sessioned true).sec with sessions := List.replicate 4 ⟨3, true, some 8, true, 0⟩ } }).sec.sessions.length := by
  decide +kernel
def owned (d : Option Nat) : State := { sessioned true with sec := { (sessioned true).sec with owner := d } }
theorem wit_SessionsAndOwner_owner : ∀ d ∈ [none, some 8, some 9], (owned d).sec.owner = d
    ∧ (owned d).sec.sessions.find? (·.num == 3) = some ⟨3, true, some 8, true, 0⟩ ∧ (partOf (owned d) 0).configured = true
    ∧ (partOf (owned d) 0).wrapKey = none ∧ (partOf (setPart (owned d) 0 fun P => { P with wrapKey := some 1 }) 0).wrapKey ≠ none
    ∧ (owned d).sec.minSvn ≤ 0 ∧ portEnabled (owned d) (7 / 2) = true := by decide +kernel

theorem wit_ManagementAnswers : bindingUp live true = true ∧ bindingUp live false = true ∧ live.boot.dev = .run ∧ live.mgmt.ready = true
    ∧ live.boot.identity = some 7 ∧ relayUp live = true ∧ live.boot.profile = some wholeProfile
    ∧ relayUp (setBoot live fun b => { b with fwReady := false }) = false ∧ (lookupKey 4 pldmCommands).isSome = true
    ∧ sensors[8]?.isSome = true ∧ (sensors[0]?.bind (numericReading live)).isSome = true
    ∧ (sensors[8]?.bind (stateReading live)).isSome = true := by decide +kernel

/-! ### Numbers and memory -/

theorem wit_ElementsRoundTrip : ∀ f ∈ [Fmt.bf16, .fp16, .fp32, .e4m3, .e5m2, .int8], 1 < 2 ^ elemBits f ∧ isNan (elemFV f 1) = false
    ∧ isInf (elemFV f 1) = false := by decide +kernel
theorem wit_StoresTouchTheirSpan : isOkB (storeBytes live 0 1 0x1FFFF [1, 2]) = true
    ∧ (∀ va ∈ [0x1FFFF, 0x20000], (lookupKey (va / plotBytes) (partOf live 0).plots).map (·.home) = some (.loam (va / plotBytes - 1)))
    ∧ isOkB (physByte live (loamAddr 5)) = true ∧ bitOf live.sec.ideRequired 0 = false := by decide +kernel
theorem wit_StoresTouchTheirSpan_combining : combiningOk live := by
  unfold combiningOk
  decide +kernel

end Sys2Proof.Tests
end

section
/-! Narrowing gives back what a scalar format can hold (R35, R49 to R52): the fields of an element, the quantum and the bits of a value
that a format holds, and from these the round trip. -/

namespace Sys2Proof.Machine

/-! ### The fields of an element (Table 2-1) -/

/-- The scalar formats with an exponent field. -/
def isFloat (f : Fmt) : Prop := f = .bf16 ∨ f = .fp16 ∨ f = .fp32 ∨ f = .e4m3 ∨ f = .e5m2

theorem isFloat.ne_int8 {f : Fmt} (hf : isFloat f) : f ≠ .int8 := by
  rcases hf with rfl | rfl | rfl | rfl | rfl <;> decide

theorem isFloat.elemBits_eq {f : Fmt} (hf : isFloat f) : elemBits f = manBits f + expBits f + 1 := by
  rcases hf with rfl | rfl | rfl | rfl | rfl <;> rfl

/-- The quantum of a format's subnormal range. -/
def subQuantum (f : Fmt) : Int := 1 - expBias f - manBits f

def elemSign (f : Fmt) (bits : Nat) : Bool := bitOf bits (manBits f + expBits f)
def elemExp (f : Fmt) (bits : Nat) : Nat := fld bits (manBits f) (expBits f)
def elemMan (f : Fmt) (bits : Nat) : Nat := fld bits 0 (manBits f)

theorem elemMan_lt (f : Fmt) (bits : Nat) : elemMan f bits < 2 ^ manBits f := Nat.mod_lt _ (by positivity)
theorem elemExp_lt (f : Fmt) (bits : Nat) : elemExp f bits < 2 ^ expBits f := Nat.mod_lt _ (by positivity)

/-- The place of the sign bit in an element. -/
def signPart (f : Fmt) (neg : Bool) : Nat := (if neg then 1 else 0) * 2 ^ (manBits f + expBits f)

/-- An element is its three fields side by side. -/
theorem fields_join {f : Fmt} {bits : Nat} (h : bits < 2 ^ (manBits f + expBits f + 1)) :
    signPart f (elemSign f bits) + elemExp f bits * 2 ^ manBits f + elemMan f bits = bits := by
  have hs : bits / 2 ^ (manBits f + expBits f) < 2 := Nat.div_lt_of_lt_mul (by rwa [pow_succ] at h)
  have sign : (if elemSign f bits then 1 else 0) = bits / 2 ^ (manBits f + expBits f) := by
    unfold elemSign bitOf fld
    generalize bits / 2 ^ (manBits f + expBits f) = x at hs
    interval_cases x <;> rfl
  have low := Nat.div_add_mod bits (2 ^ manBits f)
  have high := Nat.div_add_mod (bits / 2 ^ manBits f) (2 ^ expBits f)
  rw [Nat.div_div_eq_div_mul, ← pow_add] at high
  have man : elemMan f bits = bits % 2 ^ manBits f := by simp [elemMan, fld]
  unfold signPart
  rw [sign, man]
  unfold elemExp fld
  calc _ = 2 ^ manBits f * (2 ^ expBits f * (bits / 2 ^ (manBits f + expBits f)) + bits / 2 ^ manBits f % 2 ^ expBits f)
        + bits % 2 ^ manBits f := by rw [pow_add]; ring
    _ = bits := by rw [high, low]

/-- The value of an element that is neither an infinity nor NaN: without a hidden bit in the subnormal range, else with it. -/
def finiteFV (f : Fmt) (bits : Nat) : FV :=
  if elemExp f bits = 0 then .fin (elemSign f bits) (elemMan f bits) (subQuantum f)
  else .fin (elemSign f bits) (elemMan f bits + 2 ^ manBits f) (elemExp f bits - expBias f - manBits f)

/-- Below the top exponent every element is finite. -/
theorem elemFV_below_top {f : Fmt} (hf : isFloat f) {bits : Nat} (h : elemExp f bits ≠ 2 ^ expBits f - 1) :
    elemFV f bits = finiteFV f bits := by
  unfold elemExp at h
  rcases hf with rfl | rfl | rfl | rfl | rfl <;> exact if_neg h

/-- At the top exponent a format other than E4M3 has its infinities and NaN alone. -/
theorem elemFV_top_special {f : Fmt} (hf : isFloat f) (h4 : f ≠ .e4m3) {bits : Nat} (h : elemExp f bits = 2 ^ expBits f - 1) :
    elemFV f bits = if elemMan f bits = 0 then .inf (elemSign f bits) else .nan := by
  rcases hf with rfl | rfl | rfl | rfl | rfl
  case inr.inr.inr.inl => exact absurd rfl h4
  all_goals exact if_pos h

/-- E4M3 has there finite elements and, with a mantissa of ones, NaN. -/
theorem elemFV_top_e4m3 {bits : Nat} (h : elemExp .e4m3 bits = 15) :
    elemFV .e4m3 bits = if elemMan .e4m3 bits = 7 then .nan else finiteFV .e4m3 bits := if_pos h

/-- So a finite element with the top exponent is E4M3's. -/
theorem elemFV_top {f : Fmt} (hf : isFloat f) {bits : Nat} (hn : isNan (elemFV f bits) = false) (hi : isInf (elemFV f bits) = false)
    (h : elemExp f bits = 2 ^ expBits f - 1) : f = .e4m3 ∧ elemMan f bits ≠ 7 ∧ elemFV f bits = finiteFV f bits := by
  by_cases h4 : f = .e4m3
  · subst h4
    have hv := elemFV_top_e4m3 h
    split at hv
    · rw [hv] at hn
      cases hn
    · exact ⟨rfl, ‹_›, hv⟩
  · rw [elemFV_top_special hf h4 h] at hn hi
    split at hn <;> simp_all [isNan, isInf]

/-! ### What a format holds -/

/-- The magnitude `m * 2^e` as format `f` spells it: with the hidden bit unless the quantum is that of the subnormal range, and not
above the largest finite magnitude. -/
structure Spelt (f : Fmt) (m : Nat) (e : Int) : Prop where
  fits : m < 2 ^ (manBits f + 1)
  least : subQuantum f ≤ e
  hidden : 2 ^ manBits f ≤ m ∨ e = subQuantum f
  top : e ≤ (maxFinite f).2
  finite : m ≤ (maxFinite f).1 * 2 ^ ((maxFinite f).2 - e).toNat

theorem spelt_subnormal {f : Fmt} (hf : isFloat f) {m : Nat} (hm : m < 2 ^ manBits f) : Spelt f m (subQuantum f) where
  fits := hm.trans (Nat.pow_lt_pow_right (by decide) (Nat.lt_succ_self _))
  least := le_rfl
  hidden := .inr rfl
  top := by rcases hf with rfl | rfl | rfl | rfl | rfl <;> decide
  finite := by
    have : 2 ^ manBits f ≤ (maxFinite f).1 := by rcases hf with rfl | rfl | rfl | rfl | rfl <;> decide
    exact hm.le.trans (this.trans (Nat.le_mul_of_pos_right _ (by positivity)))

theorem spelt_normal {f : Fmt} (hf : isFloat f) {x m : Nat} (hx : x ≠ 0) (hm : m < 2 ^ manBits f)
    (ht : x < 2 ^ expBits f - 1 ∨ f = .e4m3 ∧ x = 15 ∧ m < 7) : Spelt f (m + 2 ^ manBits f) (x - expBias f - manBits f) where
  fits := by rw [pow_succ]; omega
  least := by unfold subQuantum; omega
  hidden := .inl (Nat.le_add_left _ _)
  top := by
    rcases hf with rfl | rfl | rfl | rfl | rfl <;> simp [expBits, manBits, expBias, maxFinite] at ht ⊢ <;> omega
  finite := by
    by_cases ones : m + 2 ^ manBits f ≤ (maxFinite f).1
    · exact ones.trans (Nat.le_mul_of_pos_right _ (by positivity))
    · obtain ⟨rfl, hlt⟩ : f = .e4m3 ∧ x < 15 := by
        rcases hf with rfl | rfl | rfl | rfl | rfl <;> simp [manBits, expBits, maxFinite] at hm ht ones ⊢ <;> omega
      have shift : 2 ^ 1 ≤ 2 ^ ((5 : Int) - (x - 7 - 3)).toNat := Nat.pow_le_pow_right (by decide) (by omega)
      exact (show m + 8 ≤ 14 * 2 by have : m < 8 := hm; omega).trans (Nat.mul_le_mul_left 14 shift)

/-! ### Rounding a value that is held -/

/-- The quantum of a spelt value is its own. -/
theorem quantum_spelt {f : Fmt} (hf : f ≠ .int8) {m : Nat} {e : Int} (hm : m ≠ 0) (h : Spelt f m e) : quantum f m e = e := by
  have hq : quantum f m e = max (leadExp m e - manBits f) (subQuantum f) := by
    unfold quantum
    split
    · exact absurd rfl hf
    · rfl
  have hlead : Nat.log2 m < manBits f + 1 := (Nat.log2_lt hm).2 h.fits
  have hleast := h.least
  rw [hq, leadExp]
  rcases h.hidden with hb | he
  · have := (Nat.le_log2 hm).2 hb
    omega
  · omega

/-- A multiple of the quantum is not rounded, in any mode. -/
theorem roundTo_exact (mode : RMode) (m : Nat) (e src : Int) : roundTo mode m e e src = m := by
  cases mode <;> simp [roundTo]

theorem magLt_le {m M : Nat} {e E : Int} (he : e ≤ E) (hm : m ≤ M * 2 ^ (E - e).toNat) : magLt M E m e = false := by
  simp [magLt, min_eq_right he, hm]

theorem exceeds_spelt {f : Fmt} (hf : f ≠ .int8) (neg : Bool) {m : Nat} {e : Int} (h : Spelt f m e) : exceeds f neg m e = false := by
  unfold exceeds
  split
  · exact absurd rfl hf
  · exact magLt_le h.top h.finite

/-- A value that needs no rounding and does not exceed its format is narrowed to its code, with no event (R49, R51). -/
theorem narrow_exact {f : Fmt} (mode : RMode) (sat neg : Bool) {m : Nat} {e : Int} (hm : m ≠ 0) (hq : quantum f m e = e)
    (hx : exceeds f neg m e = false) : narrow f mode sat (.fin neg m e) = (encodeFin f neg m e, .none) := by
  simp [narrow, narrowAt, hm, hq, roundTo_exact, hx]

/-! ### The code of a value that is held -/

theorem encodeFin_zero {f : Fmt} (hf : f ≠ .int8) (neg : Bool) : encodeFin f neg 0 0 = signPart f neg := by
  unfold encodeFin
  split
  · exact absurd rfl hf
  · exact if_pos rfl

/-- Without the hidden bit the exponent field is 0 and the mantissa is the magnitude. -/
theorem encodeFin_subnormal {f : Fmt} (hf : f ≠ .int8) (neg : Bool) {m : Nat} (h0 : m ≠ 0) (hm : m < 2 ^ manBits f) :
    encodeFin f neg m (subQuantum f) = signPart f neg + m := by
  have lead : leadExp m (subQuantum f) < 1 - expBias f := by
    have := (Nat.log2_lt h0).2 hm
    unfold leadExp subQuantum
    omega
  unfold encodeFin
  split
  · exact absurd rfl hf
  · simp only [h0, if_false, lead, if_true]
    simp [signPart, subQuantum]

/-- With it the exponent field is the biased exponent and the mantissa the rest. -/
theorem encodeFin_normal {f : Fmt} (hf : f ≠ .int8) (neg : Bool) {x m : Nat} (hx : x ≠ 0) (hm : m < 2 ^ manBits f) :
    encodeFin f neg (m + 2 ^ manBits f) (x - expBias f - manBits f) = signPart f neg + x * 2 ^ manBits f + m := by
  have h0 : m + 2 ^ manBits f ≠ 0 := by positivity
  have hlog : Nat.log2 (m + 2 ^ manBits f) = manBits f :=
    (Nat.log2_eq_iff h0).2 ⟨Nat.le_add_left _ _, by rw [pow_succ]; omega⟩
  have lead : leadExp (m + 2 ^ manBits f) (x - expBias f - manBits f) = x - expBias f := by
    unfold leadExp
    omega
  have hge : ¬ (x : Int) - expBias f < 1 - expBias f := by omega
  unfold encodeFin
  split
  · exact absurd rfl hf
  · simp [lead, hge, signPart]

/-! ### The round trip -/

/-- What a finite element of a floating-point format encodes is narrowed to that element. -/
theorem narrow_finiteFV {f : Fmt} (hf : isFloat f) (mode : RMode) (sat : Bool) {bits : Nat} (hb : bits < 2 ^ elemBits f)
    (ht : elemExp f bits < 2 ^ expBits f - 1 ∨ f = .e4m3 ∧ elemExp f bits = 15 ∧ elemMan f bits < 7) :
    narrow f mode sat (finiteFV f bits) = (bits, .none) := by
  have join := fields_join (hf.elemBits_eq ▸ hb)
  have hman := elemMan_lt f bits
  have hi := hf.ne_int8
  unfold finiteFV
  split
  next zero =>
    rw [zero, Nat.zero_mul, Nat.add_zero] at join
    by_cases h0 : elemMan f bits = 0
    · rw [h0, Nat.add_zero] at join
      have hs : (elemSign f bits && f != .int8) = elemSign f bits := by simp [bne, beq_eq_false_iff_ne.2 hi]
      simp [narrow, narrowAt, h0, hs, encodeFin_zero hi, join]
    · have h := spelt_subnormal hf hman
      rw [narrow_exact mode sat _ h0 (quantum_spelt hi h0 h) (exceeds_spelt hi _ h), encodeFin_subnormal hi _ h0 hman, join]
  next hx =>
    have h := spelt_normal hf hx hman ht
    have h0 : elemMan f bits + 2 ^ manBits f ≠ 0 := by positivity
    rw [narrow_exact mode sat _ h0 (quantum_spelt hi h0 h) (exceeds_spelt hi _ h), encodeFin_normal hi _ hx hman, join]

theorem narrow_elemFV_float {f : Fmt} (hf : isFloat f) (mode : RMode) (sat : Bool) {bits : Nat} (hb : bits < 2 ^ elemBits f)
    (hn : isNan (elemFV f bits) = false) (hi : isInf (elemFV f bits) = false) : narrow f mode sat (elemFV f bits) = (bits, .none) := by
  by_cases htop : elemExp f bits = 2 ^ expBits f - 1
  · obtain ⟨rfl, hman, hv⟩ := elemFV_top hf hn hi htop
    have : elemMan .e4m3 bits < 8 := elemMan_lt .e4m3 bits
    exact hv ▸ narrow_finiteFV hf mode sat hb (.inr ⟨rfl, htop, by omega⟩)
  · have := elemExp_lt f bits
    exact elemFV_below_top hf htop ▸ narrow_finiteFV hf mode sat hb (.inl (by omega))

theorem exceeds_int8 {neg : Bool} {m : Nat} (h : m ≤ if neg then 128 else 127) : exceeds .int8 neg m 0 = false :=
  magLt_le le_rfl (by simpa using h)

/-- INT8's elements are the integers from -128 to 127 in two's complement. -/
theorem narrow_elemFV_int8 (mode : RMode) (sat : Bool) {bits : Nat} (hb : bits < 256) :
    narrow .int8 mode sat (elemFV .int8 bits) = (bits, .none) := by
  have hv : elemFV .int8 bits = if bits < 128 then .fin false bits 0 else .fin true (256 - bits) 0 := by
    by_cases h : bits < 128
    · simp [elemFV, signed, Nat.mod_eq_of_lt hb, h]
    · simp [elemFV, signed, Nat.mod_eq_of_lt hb, h]
      omega
  rw [hv]
  split
  next hlt =>
    by_cases h0 : bits = 0
    · subst h0
      rfl
    · rw [narrow_exact mode sat false h0 rfl (exceeds_int8 (by simp; omega))]
      simp [encodeFin, Nat.mod_eq_of_lt hb]
  next hge =>
    rw [narrow_exact mode sat true (by omega) rfl (exceeds_int8 (by simp; omega))]
    simp [encodeFin]
    omega

/-- Settles O59: a finite element spells its value at the value's own quantum, so nothing is rounded, and the code is put together from
the fields that the value was read from. -/
theorem elementsRoundTrip : Obligations.ElementsRoundTrip := by
  intro f mode sat bits hf hb hn hi
  by_cases h : f = .int8
  · subst h
    exact narrow_elemFV_int8 mode sat hb
  · have hfl : isFloat f := by
      unfold isFloat
      tauto
    exact narrow_elemFV_float hfl mode sat hb hn hi

end Sys2Proof.Machine
end

section
/-! A store that changes what a reader sees of a byte it does not name: `memSet` of a zero byte removes a listing only where the listing
stands in order, and `combiningOk` does not ask that device memory be in canonical form (`Memory.wf`). -/

namespace Sys2Proof.Machine

/-- Device memory out of its canonical form: the byte 1 of subsoil stands behind the byte 2. -/
def unorderedPhys : Memory := [(subBase + 2, 1), (subBase + 1, 7)]

/-- An entry over the first subsoil line to which two queues have contributed a zero at byte 1. -/
def zeroEntry : WcbEntry := { line := subBase / 64, bytes := [(1, 0)], part := 0, queues := [1, 2], lastMerge := 0 }

/-- Plot 0 of partition 0, in the first subsoil frame. -/
def firstFramePlot : Plot :=
  { home := .subsoil 0, anchor := none, read := true, write := true, auto := false, moving := false, uses := 0, lastUse := 0 }

def unorderedState : State :=
  { State.reset with
    parts := [{ noPartition with plots := [(0, firstFramePlot)] }]
    mem := { State.reset.mem with phys := unorderedPhys, wcb := [zeroEntry] } }

theorem unorderedState_combiningOk : combiningOk unorderedState := by
  unfold combiningOk
  decide

theorem locate_unorderedState : locate unorderedState 0 0 = .ok (.phys subBase) := rfl

/-- A byte that a third queue stores at the line's byte 0 goes to the write-combining buffer, whose entry drains (R337, R338). -/
theorem storeBytes_unorderedState : storeBytes unorderedState 0 3 0 [9] = .ok (wcbMerge unorderedState 0 3 subBase [9]) := rfl

/-- Before the store a reader sees the entry's zero at byte 1 (R339). -/
theorem physByte_before_drain : physByte unorderedState (subBase + 1) = .ok 0 := rfl

/-- After it the reader sees the listing that the drained zero did not reach. -/
theorem physByte_after_drain : physByte (wcbMerge unorderedState 0 3 subBase [9]) (subBase + 1) = .ok 7 := rfl

/-- No plot of the state is a window's. -/
theorem unorderedState_no_window {n w : Nat} {pl : Plot} (h : lookupKey n (partOf unorderedState 0).plots = some pl) :
    pl.home ≠ .window w := by
  have hp : (partOf unorderedState 0).plots = [(0, firstFramePlot)] := rfl
  rw [hp] at h
  simp only [lookupKey] at h
  split at h
  · cases h
    exact Home.noConfusion
  · cases h

/-- Refutes O60: in a device memory out of its canonical form, which the premises allow, the drain that a store causes loses the zero byte
of another byte's entry, and its reader sees an older byte. -/
theorem not_storesTouchTheirSpan : ¬ Obligations.StoresTouchTheirSpan := by
  intro h
  obtain ⟨-, unnamed, -⟩ := h unorderedState _ 0 3 0 [9] unorderedState_combiningOk storeBytes_unorderedState
    fun _ _ _ _ hl => unorderedState_no_window hl
  have other : ∀ i, i < [(9 : Byte)].length → locate unorderedState 0 (0 + i) ≠ .ok (.phys (subBase + 1)) := by
    intro i hi
    obtain rfl : i = 0 := by simpa using hi
    rw [Nat.add_zero, locate_unorderedState]
    simp
  have kept := unnamed (subBase + 1) 0 other physByte_before_drain
  rw [physByte_after_drain] at kept
  exact absurd kept (by simp)

end Sys2Proof.Machine
end

section
/-! What the operations of chapter 3 read and leave: a queue, a partition and a fence after an update, the waiters that a signal releases
(R74 to R76), and the frame of a command's start. -/

namespace Sys2Proof.Machine

/-! ### Units after an update -/

/-- Changes that agree on the unit are one change. -/
theorem modifyAt_congr {α : Type} {f g : α → α} (d : α) : ∀ {xs : List α} {i : Nat}, f (xs.getD i d) = g (xs.getD i d) →
    modifyAt i f xs = modifyAt i g xs
  | [], i, _ => by simp [modifyAt]
  | x :: xs, 0, h => congrArg (· :: xs) h
  | x :: xs, i + 1, h => congrArg (x :: ·) (modifyAt_congr d (by simpa using h))

theorem modifyAt_id {α : Type} : ∀ (xs : List α) (i : Nat), modifyAt i id xs = xs
  | [], i => by simp [modifyAt]
  | _ :: _, 0 => rfl
  | x :: xs, i + 1 => congrArg (x :: ·) (modifyAt_id xs i)

theorem setQueue_congr {s : State} {q : Nat} {f g : Queue → Queue} (h : f (queueOf s q) = g (queueOf s q)) :
    setQueue s q f = setQueue s q g :=
  congrArg (fun qs => { s with queues := qs }) (modifyAt_congr noQueue h)

/-- A change that leaves the queue as it is leaves the state. -/
theorem setQueue_unchanged {s : State} {q : Nat} {f : Queue → Queue} (h : f (queueOf s q) = queueOf s q) : setQueue s q f = s :=
  (setQueue_congr (g := id) h).trans (congrArg (fun qs => { s with queues := qs }) (modifyAt_id s.queues q))

theorem queueOf_beyond {s : State} {q : Nat} (h : s.queues.length ≤ q) : queueOf s q = noQueue := List.getD_eq_default _ _ h

theorem partOf_beyond {s : State} {p : Nat} (h : s.parts.length ≤ p) : partOf s p = noPartition := List.getD_eq_default _ _ h

/-- A queue that is not DISABLED is one of the device's. -/
theorem queue_exists {s : State} {q : Nat} (h : (queueOf s q).state ≠ .disabled) : q < s.queues.length := by
  by_contra hq
  exact h (by rw [queueOf_beyond (Nat.le_of_not_lt hq)]; rfl)

/-! ### Fences (R73) -/

theorem fenceOf_insertKey_same (P : Partition) (f : Nat) (F : Fence) : fenceOf { P with fences := insertKey f F P.fences } f = F := by
  simp [fenceOf, lookupKey_insertKey_same]

theorem fenceOf_insertKey_other (P : Partition) {f g : Nat} (F : Fence) (h : g ≠ f) :
    fenceOf { P with fences := insertKey f F P.fences } g = fenceOf P g := by
  simp [fenceOf, lookupKey_insertKey_other F P.fences h]

/-- Setting a fence leaves every other fence of the device. -/
theorem fenceOf_setPart_other (s : State) {p f r g : Nat} (F : Partition → Fence) (h : r ≠ p ∨ g ≠ f) :
    fenceOf (partOf (setPart s p fun P => { P with fences := insertKey f (F P) P.fences }) r) g = fenceOf (partOf s r) g := by
  by_cases hr : r = p
  · subst hr
    have hg : g ≠ f := h.resolve_left fun ne => ne rfl
    by_cases hp : r < s.parts.length
    · rw [partOf_setPart_same s r _ hp, fenceOf_insertKey_other _ _ hg]
    · rw [partOf_beyond (s := s) (by omega), partOf_beyond (by simp; omega)]
  · rw [partOf_setPart_other s _ hr]

/-! ### Waiters (R74 to R76) -/

/-- What a queue is once the waiters of partition `p` have been released at `now`. -/
def waiterReleased (P : Partition) (now p : Nat) (Q : Queue) : Queue :=
  if Q.state == .wait && Q.result.isNone && Q.cfg.part == p && Q.cmd.any (fun c => waitMet P c.hdr)
  then { leaveWait P Q with since := now } else Q

theorem releaseWaiters_queues (s : State) (p : Nat) :
    (releaseWaiters s p).queues = s.queues.map (waiterReleased (partOf s p) s.now p) := by
  refine List.map_congr_left fun Q _ => ?_
  unfold waiterReleased
  cases Q.cmd <;> rfl

theorem queueOf_releaseWaiters (s : State) (p q : Nat) :
    queueOf (releaseWaiters s p) q = waiterReleased (partOf s p) s.now p (queueOf s q) := by
  unfold queueOf
  rw [releaseWaiters_queues]
  exact List.getD_map s.queues noQueue (waiterReleased (partOf s p) s.now p)

theorem waiterReleased_met {P : Partition} {now p : Nat} {Q : Queue} {c : Cmd} (hc : Q.cmd = some c) (hs : Q.state = .wait)
    (hr : Q.result = none) (hp : Q.cfg.part = p) (hm : waitMet P c.hdr = true) :
    waiterReleased P now p Q = { leaveWait P Q with since := now } := by
  simp [waiterReleased, hc, hs, hr, hp, hm]

theorem waiterReleased_unmet {P : Partition} {now p : Nat} {Q : Queue} {c : Cmd} (hc : Q.cmd = some c) (hm : waitMet P c.hdr = false) :
    waiterReleased P now p Q = Q := by
  simp [waiterReleased, hc, hm]

theorem waiterReleased_other {P : Partition} {now p : Nat} {Q : Queue} (h : Q.state ≠ .wait ∨ Q.result ≠ none ∨ Q.cfg.part ≠ p) :
    waiterReleased P now p Q = Q := by
  unfold waiterReleased
  rw [if_neg]
  rcases h with h | h | h <;> simp [h]

/-- A command that leaves WAIT goes to CHECK, with ABORT_UPSTREAM where its fence has the error bit and it minds errors. -/
theorem leaveWait_eq {P : Partition} {Q : Queue} {c : Cmd} (hc : Q.cmd = some c) :
    leaveWait P Q = { Q with
      state := .check
      result := if (fenceOf P (hWaitFence c.hdr)).err = true ∧ hIgnoreErr c.hdr = false then some ⟨.abortUpstream, 0, 0, 0⟩
        else Q.result } := by
  by_cases he : (fenceOf P (hWaitFence c.hdr)).err = true ∧ hIgnoreErr c.hdr = false
  · simp [leaveWait, hc, he]
  · rw [if_neg he]
    simp only [leaveWait, hc]
    rw [if_neg (by simpa using he)]

/-! ### A signal (R75) -/

theorem queueOf_signalCore (s : State) (p f v : Nat) (err : Bool) (q : Nat) :
    queueOf (signalCore s p f v err) q = waiterReleased (partOf (signalCore s p f v err) p) s.now p (queueOf s q) :=
  queueOf_releaseWaiters ..

theorem fenceOf_signalCore_same {s : State} {p : Nat} (hp : p < s.parts.length) (f v : Nat) (err : Bool) :
    fenceOf (partOf (signalCore s p f v err) p) f
      = ⟨max (fenceOf (partOf s p) f).value v, (fenceOf (partOf s p) f).err || err⟩ := by
  have hP : partOf (signalCore s p f v err) p = _ := partOf_setPart_same s p _ hp
  rw [hP, fenceOf_insertKey_same]

theorem fenceOf_signalCore_other (s : State) {p f r g : Nat} (v : Nat) (err : Bool) (h : r ≠ p ∨ g ≠ f) :
    fenceOf (partOf (signalCore s p f v err) r) g = fenceOf (partOf s r) g :=
  fenceOf_setPart_other s (fun P => { value := max (fenceOf P f).value v, err := (fenceOf P f).err || err }) h

/-- Settles O30: the signalled fence is read back from the insertion, and each queue is what the release makes of it. -/
theorem signalRaisesFence : Obligations.SignalRaisesFence := by
  intro s p f v err hp t
  have hF := fenceOf_signalCore_same hp f v err
  have hQ := queueOf_signalCore s p f v err
  refine ⟨congrArg Fence.value hF, congrArg Fence.err hF, fun r g h => fenceOf_signalCore_other s v err h, ?_, ?_, rfl, rfl⟩
  · intro q c hc hs hr hp
    constructor
    · intro hm
      have ht : queueOf t q = _ := (hQ q).trans ((waiterReleased_met hc hs hr hp hm).trans (by rw [leaveWait_eq hc]))
      rw [ht]
      exact ⟨rfl, rfl, by rw [hr]⟩
    · exact fun hm => (hQ q).trans (waiterReleased_unmet hc hm)
  · exact fun q h => (hQ q).trans (waiterReleased_other h)

end Sys2Proof.Machine
end

section
/-! Writes to the doorbells and to the fence window (R66, R77, R432, R433). -/

namespace Sys2Proof.Machine

/-! ### The fence window -/

/-- A write that reaches the window acts on the fences of its function's partition. -/
theorem exec_fenceWrite {s : State} {fn p : Nat} (off size val : Nat) (hw : canWrite s fn) (hp : fnPart s fn = some p) :
    exec (.fenceWrite fn off size val) s = .next
      (if size = 8 ∧ off % 8 = 0 ∧ off < 0x8000 ∧ val % 2 ^ 64 < 2 ^ 63 then signalFence s p (off / 8) (val % 2 ^ 64) false
        else s) := by
  have he : (pciFn s fn).enabled = true := by
    obtain ⟨-, -, he, -⟩ := hw
    exact he
  have hb : exec (.fenceWrite fn off size val) s = .next (fenceWrite s fn off size val) :=
    congrArg Host.Outcome.next (barWrite_reaches _ hw)
  rw [hb]
  simp [fenceWrite, he, hp]

/-- Settles O29: the conditions of the two clauses are those of the model's one test. -/
theorem fenceWriteSignals : Obligations.FenceWriteSignals := by
  intro s fn off size val p hw hp
  constructor
  · intro hsize halign hoff hval
    have hmod : val % 2 ^ 64 = val := Nat.mod_eq_of_lt (by omega)
    rw [exec_fenceWrite off size val hw hp, hmod, if_pos ⟨hsize, halign, hoff, hval⟩, signalFence]
  · intro h
    rw [exec_fenceWrite off size val hw hp, if_neg (by omega)]

/-! ### Doorbells -/

/-- Whether a doorbell write of partition `p` finds its queue and carries a count (R66, R432, R521). -/
def ringsQueue (s : State) (p q size val : Nat) : Prop :=
  (queueOf s q).state ≠ .disabled ∧ s.flt.halted = false ∧ (queueOf s q).cfg.part = p
    ∧ (size = 4 ∨ (size = 8 ∧ val % 2 ^ 64 < 2 ^ 32))

/-- The queue with a new tail: an EMPTY one that then has work goes to FETCH. -/
def withTail (now t : Nat) (Q : Queue) : Queue :=
  { Q with
    tail := t
    state := if Q.state = .empty ∧ ringDiff t Q.head ≠ 0 then .fetch else Q.state
    since := if Q.state = .empty ∧ ringDiff t Q.head ≠ 0 then now else Q.since }

/-- A doorbell write comes to its queue, from a function through its window and from a tender without one. -/
theorem exec_doorbellWrite {s : State} {sender : Sender} (q size val : Nat) (hw : ∀ fn, sender = .function fn → canWrite s fn) :
    exec (.doorbellWrite sender q size val) s = .next (doorbellWrite s sender q size val) := by
  cases sender with
  | function fn => exact congrArg Host.Outcome.next (barWrite_reaches _ (hw fn rfl))
  | tender f => rfl

theorem doorbellWrite_unreached {s : State} {sender : Sender} {p q size val : Nat} (hp : senderPart s sender = some p)
    (h : ¬ ringsQueue s p q size val) : doorbellWrite s sender q size val = rejectDoorbell s p := by
  simp only [doorbellWrite, hp]
  rw [if_pos]
  by_contra hn
  simp only [Bool.or_eq_true, beq_iff_eq, bne_iff_ne, ne_eq, Bool.and_eq_true, decide_eq_true_eq, Bool.not_eq_true', not_or,
    Bool.not_eq_true, Decidable.not_not, not_and, not_le, Bool.not_eq_false] at hn
  obtain ⟨⟨⟨⟨⟨hs, hh⟩, hpart⟩, hsize⟩, hval⟩, -⟩ := hn
  exact h ⟨hs, hh, hpart, by omega⟩

theorem doorbellWrite_refused {s : State} {sender : Sender} {p q : Nat} (size val : Nat) (hp : senderPart s sender = some p)
    (h : tailOk (queueOf s q) (val % 2 ^ 32) = false) : doorbellWrite s sender q size val = rejectDoorbell s p := by
  simp only [doorbellWrite, hp]
  rw [if_pos (by rw [h]; simp)]

theorem doorbellWrite_taken {s : State} {sender : Sender} {p q size val : Nat} (hp : senderPart s sender = some p)
    (h : ringsQueue s p q size val) (ht : tailOk (queueOf s q) (val % 2 ^ 32) = true) :
    doorbellWrite s sender q size val = setQueue s q (withTail s.now (val % 2 ^ 32)) := by
  obtain ⟨hs, hh, hpart, hsize⟩ := h
  simp only [doorbellWrite, hp]
  rw [if_neg]
  · exact setQueue_congr (by simp [withTail])
  · rw [ht]
    simp [hs, hh, hpart]
    omega

/-- Counts below 2^32 differ as R66 says. -/
theorem ringDiff_eq {a b : Nat} (h : b < 2 ^ 32) : ringDiff a b = (a + 2 ^ 32 - b) % 2 ^ 32 := by
  rw [ringDiff, Nat.mod_eq_of_lt h]

theorem tailOk_iff (Q : Queue) (t : Nat) :
    tailOk Q t = true ↔ ringDiff t Q.head ≤ ringUnits Q ∧ ringDiff Q.tail Q.head ≤ ringDiff t Q.head := by
  simp [tailOk]

/-- The tail that the queue has already leaves it as it is, unless it is EMPTY with work. -/
theorem withTail_same {Q : Queue} (now : Nat) (h : Q.state = .empty → ringDiff Q.tail Q.head = 0) : withTail now Q.tail Q = Q := by
  have hidle : ¬ (Q.state = .empty ∧ ringDiff Q.tail Q.head ≠ 0) := fun ⟨he, hne⟩ => hne (h he)
  simp only [withTail, if_neg hidle]

/-- Settles O28: a write that reaches its queue is taken or refused as `tailOk` decides, and any other is refused. -/
theorem doorbellSetsTail : Obligations.DoorbellSetsTail := by
  intro s sender q size val p hw hp Q new S reached ahead refused hhead htail
  have hahead : ringDiff new Q.head = ahead := ringDiff_eq hhead
  have hbehind : ringDiff Q.tail Q.head = (Q.tail + 2 ^ 32 - Q.head) % 2 ^ 32 := ringDiff_eq hhead
  have hok : tailOk Q new = true ↔ ahead ≤ S ∧ (Q.tail + 2 ^ 32 - Q.head) % 2 ^ 32 ≤ ahead := by
    rw [tailOk_iff, hahead, hbehind]
    rfl
  have hrefuse (h : ¬ (ahead ≤ S ∧ (Q.tail + 2 ^ 32 - Q.head) % 2 ^ 32 ≤ ahead)) : doorbellWrite s sender q size val = refused :=
    doorbellWrite_refused size val hp (Bool.eq_false_iff.2 fun ht => h (hok.1 ht))
  rw [exec_doorbellWrite q size val hw]
  refine ⟨fun hr hs hb => ?_, fun _ h => ?_, fun _ h => ?_, fun hr hnew hs hidle => ?_, fun h => ?_⟩
  · rw [doorbellWrite_taken hp hr (hok.2 ⟨hs, hb⟩)]
    refine congrArg _ (setQueue_congr ?_)
    show withTail s.now new Q = _
    simp only [withTail, hahead]
    rfl
  · rw [hrefuse (by omega)]
  · rw [hrefuse (by omega)]
  · have hsame : ahead = (Q.tail + 2 ^ 32 - Q.head) % 2 ^ 32 := by rw [← hnew]
    rw [doorbellWrite_taken hp hr (hok.2 ⟨hs, hsame.ge⟩)]
    refine congrArg _ (setQueue_unchanged ?_)
    show withTail s.now new Q = Q
    rw [hnew]
    exact withTail_same s.now fun he => by rw [hbehind, ← hsame, hidle he]
  · rw [doorbellWrite_unreached hp h]
    rfl

end Sys2Proof.Machine
end

section
/-! The fetch of a command (R67, R74, R76) and its commit (R78, R81, Table 3-1). -/

namespace Sys2Proof.Machine

/-! ### The fetch -/

/-- A queue in FETCH whose tail covers a command that its ring holds reads it. -/
theorem queueFetch_reads {s x : State} {q h body : Nat} (hs : (queueOf s q).state = .fetch) (hc : (queueOf s q).cmd = none)
    (ht : ringDiff (queueOf s q).tail (queueOf s q).head ≠ 0) (hd : (pciFn s (queueOf s q).cfg.owner).d3hot = false)
    (hh : loadNat s (queueOf s q).cfg.part (ringAddr (queueOf s q) (queueOf s q).head) 64 = .ok h)
    (hring : 1 + hUnits h ≤ ringUnits (queueOf s q)) (hwhole : 1 + hUnits h ≤ ringDiff (queueOf s q).tail (queueOf s q).head)
    (huse : useRing s (queueOf s q) (1 + hUnits h) = (none, x))
    (hagain : loadNat x (queueOf s q).cfg.part (ringAddr (queueOf s q) (queueOf s q).head) 64 = .ok h)
    (hbody : loadBody x (queueOf s q) (1 + hUnits h - 1) = .ok body) : queueFetch s q = accept x q h body := by
  have hfits : ¬ ringUnits (queueOf s q) < 1 + hUnits h := Nat.not_lt.2 hring
  have hcovers : ¬ ringDiff (queueOf s q).tail (queueOf s q).head < 1 + hUnits h := Nat.not_lt.2 hwhole
  unfold queueFetch
  rw [if_neg (by simp [hs, hc, ht, hd])]
  simp only [hh, hfits, hcovers, decide_false, Bool.not_false, Bool.and_false, Bool.false_eq_true, if_false, huse, hagain, hbody]

/-- A command that fails a check of stage A keeps that check's status. -/
theorem accept_fails {s : State} {q h : Nat} (body : Nat) {f : Fail} (hd : lookupKey (queueOf s q).seq (queueOf s q).doomed = none)
    (hf : firstFail (stageA s (queueOf s q) h) = some f) :
    accept s q h body = setQueue s q fun X => { X with cmd := some (newCmd h body), result := some (failResult f 0) } := by
  simp only [accept, hd, hf]

/-- One that passes them goes on by its wait. -/
theorem accept_passes {s : State} {q h : Nat} (body : Nat) (hd : lookupKey (queueOf s q).seq (queueOf s q).doomed = none)
    (hf : firstFail (stageA s (queueOf s q) h) = none) :
    accept s q h body = setQueue s q fun X =>
      afterStageA (partOf s X.cfg.part) { X with cmd := some (newCmd h body) } (newCmd h body) := by
  simp only [accept, hd, hf]

theorem afterStageA_no_wait (P : Partition) (Q : Queue) {c : Cmd} (h : hWait c.hdr = false) :
    afterStageA P Q c = { Q with state := .check } := by
  simp [afterStageA, h]

theorem afterStageA_unmet {P : Partition} (Q : Queue) {c : Cmd} (h : hWait c.hdr = true) (hm : waitMet P c.hdr = false) :
    afterStageA P Q c = { Q with state := .wait } := by
  simp [afterStageA, h, hm]

theorem afterStageA_met {P : Partition} (Q : Queue) {c : Cmd} (h : hWait c.hdr = true) (hm : waitMet P c.hdr = true) :
    afterStageA P Q c = leaveWait P Q := by
  simp [afterStageA, h, hm]

/-- Whichever way it goes, it stays at the head. -/
theorem afterStageA_cmd (P : Partition) {Q : Queue} {c : Cmd} (hc : Q.cmd = some c) : (afterStageA P Q c).cmd = some c := by
  cases hw : hWait c.hdr with
  | false => rw [afterStageA_no_wait P Q hw, hc]
  | true =>
    cases hm : waitMet P c.hdr with
    | false => rw [afterStageA_unmet Q hw hm, hc]
    | true => rw [afterStageA_met Q hw hm, leaveWait_eq hc, hc]

/-- What stands at the head of a queue that has read a command is that command, and no other queue and no byte of memory changes. -/
theorem accept_keeps {s : State} {q h : Nat} (body : Nat) (hq : q < s.queues.length)
    (hd : lookupKey (queueOf s q).seq (queueOf s q).doomed = none) :
    (queueOf (accept s q h body) q).cmd = some (newCmd h body) ∧ (∀ r, r ≠ q → queueOf (accept s q h body) r = queueOf s r)
      ∧ (accept s q h body).mem = s.mem := by
  cases hf : firstFail (stageA s (queueOf s q) h) with
  | some f =>
    rw [accept_fails body hd hf, queueOf_setQueue_same s q _ hq]
    exact ⟨rfl, fun r hr => queueOf_setQueue_other s _ hr, rfl⟩
  | none =>
    rw [accept_passes body hd hf, queueOf_setQueue_same s q _ hq]
    exact ⟨afterStageA_cmd _ rfl, fun r hr => queueOf_setQueue_other s _ hr, rfl⟩

/-- Settles O23: the fetch comes to `accept`, whose outcome the checks of stage A and the command's wait decide. -/
theorem queueFetchReads : Obligations.QueueFetchReads := by
  intro s q h n body x Q hs hc ht hd hh hring hwhole hn huse hagain hbody hdoom hq
  subst hn
  obtain ⟨hcmd, hother, hmem⟩ := accept_keeps (h := h) body hq hdoom
  refine ⟨accept x q h body, congrArg _ (queueFetch_reads hs hc ht hd hh hring hwhole huse hagain hbody), hcmd, fun f hf => ?_,
    fun hf => ?_, hother, hmem⟩
  · rw [accept_fails body hdoom hf, queueOf_setQueue_same x q _ hq]
  · rw [accept_passes body hdoom hf, queueOf_setQueue_same x q _ hq]
    refine ⟨fun hw => ?_, fun hw hm => ?_, fun hw hm => ?_⟩
    · rw [afterStageA_no_wait _ _ hw]
    · rw [afterStageA_unmet _ hw hm]
    · rw [afterStageA_met _ hw hm, leaveWait_eq rfl]
      exact ⟨rfl, fun he hi => if_pos ⟨he, hi⟩⟩

/-! ### What comes before a commit -/

/-- Without a move of its own a command waits for no page. -/
theorem endPages_no_moves {s : State} {q : Nat} (h : movesLeft s q = false) : endPages s q = s := by
  have hnone : (s.mem.moves.find? fun m => m.active && pageMove m && moveQueue m == some q) = none := by
    refine List.find?_eq_none.2 fun m hm => ?_
    have := List.any_eq_false.1 h m hm
    simp [this]
  unfold endPages
  cases s.mem.moves.length with
  | zero => rfl
  | succ n => simp only [finishPages, hnone]

/-- Only DRILL_COPY and DRILL_CHAIN work through descriptors. -/
theorem finishDrill_no_descriptors {s : State} {q : Nat} {c : Cmd} (hc : (queueOf s q).cmd = some c) (h0 : hOpcode c.hdr ≠ 0x200)
    (h1 : hOpcode c.hdr ≠ 0x201) : finishDrill s q = s := by
  have hdesc : currentDesc s q = none := by simp [currentDesc, hc, h0, h1]
  unfold finishDrill
  generalize (channelNo s (queueOf s q).cfg.channel).store.length = n
  cases n with
  | zero => rfl
  | succ k => simp [advanceTo, hc, hdesc]

/-- Only DRILL_VISIBLE waits for acknowledgements. -/
theorem settleVisible_other {s : State} {q : Nat} {c : Cmd} (hc : (queueOf s q).cmd = some c) (h : hOpcode c.hdr ≠ 0x210) :
    settleVisible s q = s := by
  cases hr : (queueOf s q).result with
  | none => simp only [settleVisible, hc, hr]
  | some r =>
    simp only [settleVisible, hc, hr]
    rw [if_pos (by simp [h])]

theorem beforeCommit_idle {s : State} {q : Nat} {c : Cmd} (hc : (queueOf s q).cmd = some c) (h0 : hOpcode c.hdr ≠ 0x200)
    (h1 : hOpcode c.hdr ≠ 0x201) (h2 : hOpcode c.hdr ≠ 0x210) (hm : movesLeft s q = false) : beforeCommit s q = s := by
  rw [beforeCommit, endPages_no_moves hm, finishDrill_no_descriptors hc h0 h1, settleVisible_other hc h2]

/-! ### What a commit makes of its queue -/

theorem headStep_fits {Q : Queue} {n : Nat} (h : 1 + n ≤ ringUnits Q) : headStep Q n = 1 + n := if_neg (Nat.not_lt.2 h)

theorem afterCommit_head (now : Nat) {Q : Queue} {c : Cmd} (r : Result) (h : 1 + hUnits c.hdr ≤ ringUnits Q) :
    (afterCommit now Q c r).head = (Q.head + 1 + hUnits c.hdr) % 2 ^ 32 := by
  rw [Nat.add_assoc, ← headStep_fits h]
  rfl

/-- An error halts a queue with HALT_ON_ERROR. -/
theorem afterCommit_halts (now : Nat) {Q : Queue} (c : Cmd) {r : Result} (hh : Q.cfg.halt = true) (he : isError r.status = true) :
    (afterCommit now Q c r).state = .halted :=
  if_pos (by rw [hh, he]; rfl)

/-- Otherwise the queue is EMPTY or in FETCH, as its new head says. -/
theorem afterCommit_goes_on (now : Nat) {Q : Queue} (c : Cmd) {r : Result} (h : Q.cfg.halt = false ∨ isError r.status = false) :
    (afterCommit now Q c r).state = if ringDiff Q.tail (afterCommit now Q c r).head = 0 then .empty else .fetch :=
  if_neg (by rcases h with h | h <;> simp [h])

theorem afterCommit_captures (now : Nat) {Q : Queue} (c : Cmd) {r : Result} (he : isError r.status = true) (h0 : Q.err.count = 0) :
    (afterCommit now Q c r).err = ⟨1, statusCode r.status, Q.seq, hOpcode c.hdr⟩ := by
  simp [afterCommit, he, captureErr, h0]

theorem afterCommit_no_error (now : Nat) (Q : Queue) (c : Cmd) {r : Result} (he : isError r.status = false) :
    (afterCommit now Q c r).err = Q.err := by
  simp [afterCommit, he]

/-- Settles O24: the commit branches on `committable`, what comes before it does nothing for the commands named, and `afterCommit` gives
the queue. -/
theorem commandsCommit : Obligations.CommandsCommit := by
  refine ⟨fun s q => ⟨fun h => congrArg _ (if_pos h), fun h => congrArg _ (if_neg (by simp [h])),
    fun c hc h0 h1 h2 hm => beforeCommit_idle hc h0 h1 h2 hm⟩, fun now Q c r _ hring => ?_⟩
  refine ⟨afterCommit_head now r hring, rfl, rfl, rfl, rfl, rfl, afterCommit_halts now c, fun h hz => ?_, fun h hz => ?_,
    afterCommit_captures now c, afterCommit_no_error now Q c, rfl, rfl⟩
  · rw [afterCommit_goes_on now c h, if_pos hz]
  · rw [afterCommit_goes_on now c h, if_neg hz]

end Sys2Proof.Machine
end

section
/-! A command of a queue before it stands in CHECK (R68, R429), and the four commands of engine kind 0x0 (R86). -/

namespace Sys2Proof.Machine

/-! ### Before CHECK -/

section
variable {s : State} {q op : Nat} {checks : State → Queue → Cmd → List (Bool × Fail)} {eff : State → Queue → Cmd → State}

/-- A row that runs a command changes nothing before the command stands in CHECK. -/
theorem next_runCommand_waits (h : inCheck s q op = none) :
    Host.Outcome.next (runCommand s q op checks eff) = (.next s : Host.Outcome State Fault Refusal) :=
  congrArg _ (runCommand_waits checks eff h)

/-- The same for a command that a condition of its own may hold back. -/
theorem runCommand_waits_unless {b : Prop} [Decidable b] (h : inCheck s q op = none) : (if b then s else runCommand s q op checks eff) = s :=
  ite_eq_left_iff.2 fun _ => runCommand_waits checks eff h

theorem next_runCommand_waits_unless {b : Prop} [Decidable b] (h : inCheck s q op = none) :
    (if b then .next s else .next (runCommand s q op checks eff)) = (.next s : Host.Outcome State Fault Refusal) :=
  ite_eq_left_iff.2 fun _ => next_runCommand_waits h

/-- The same for a command that needs its grant. -/
theorem runCommand_waits_granted {b : Prop} [Decidable b] (h : inCheck s q op = none) : (if b then runCommand s q op checks eff else s) = s :=
  ite_eq_right_iff.2 fun _ => runCommand_waits checks eff h

end

/-- TIMESTAMP commits nothing that has not begun. -/
theorem timestamp_waits {s : State} {q : Nat} (h : inCheck s q 0x003 = none) : timestamp s q = s := by
  simp only [timestamp, h]

/-- The loader reads no chain before DRILL_CHAIN begins. -/
theorem execDrillChain_waits {s : State} {q : Nat} (h : inCheck s q 0x201 = none) : execDrillChain q s = .next s := by
  cases hc : holdsChannel s q <;> simp only [execDrillChain, h, hc]

/-- Settles O8: each command runs through `runCommand`, some of them behind a condition of their own under which nothing happens
either. -/
theorem commandsWaitForCheck : Obligations.CommandsWaitForCheck := by
  intro s q
  exact ⟨
    -- any queue: TIMESTAMP commits besides
    next_runCommand_waits, next_runCommand_waits, next_runCommand_waits, fun h => congrArg _ (timestamp_waits h),
    -- COMPUTE: those on streams may be held back
    next_runCommand_waits, next_runCommand_waits, next_runCommand_waits,
    next_runCommand_waits_unless, next_runCommand_waits_unless, next_runCommand_waits_unless,
    next_runCommand_waits, next_runCommand_waits, next_runCommand_waits, next_runCommand_waits, next_runCommand_waits,
    -- DRILL: a command needs its channel, but for PLOT_MOVE
    fun h => congrArg _ (runCommand_waits_granted h), execDrillChain_waits, fun h => congrArg _ (runCommand_waits_granted h),
    next_runCommand_waits,
    -- SWATH_STEP and NET: others may come first
    fun h => congrArg _ (runCommand_waits_unless h), fun h => congrArg _ (runCommand_waits_unless h),
    fun h => congrArg _ (runCommand_waits_unless h), fun h => congrArg _ (runCommand_waits_unless h)⟩

/-! ### The record's times (Table 3-3) -/

/-- A field is read back from between what lies below it and what lies above it. -/
theorem fld_between {a b lo len : Nat} (v : Nat) (ha : a < 2 ^ lo) (hb : 2 ^ (lo + len) ∣ b) :
    fld (a + putFld v lo len + b) lo len = v % 2 ^ len := by
  obtain ⟨k, rfl⟩ := hb
  have hsplit : a + putFld v lo len + 2 ^ (lo + len) * k = a + 2 ^ lo * (v % 2 ^ len + 2 ^ len * k) := by
    rw [putFld, pow_add]
    ring
  rw [fld, hsplit, Nat.add_mul_div_left _ _ (by positivity), Nat.div_eq_of_lt ha, Nat.zero_add, Nat.add_mul_mod_self_left, Nat.mod_mod]

/-- A field has no bits below its lowest one. -/
theorem dvd_putFld {k lo : Nat} (v len : Nat) (h : k ≤ lo) : 2 ^ k ∣ putFld v lo len := Dvd.dvd.mul_left (pow_dvd_pow 2 h) _

/-- A field above what lies below it has no bits beyond its highest one. -/
theorem add_putFld_lt {a lo len hi : Nat} (v : Nat) (ha : a < 2 ^ lo) (h : lo + len ≤ hi) : a + putFld v lo len < 2 ^ hi := by
  have hv : v % 2 ^ len < 2 ^ len := Nat.mod_lt _ (by positivity)
  calc a + putFld v lo len < (v % 2 ^ len + 1) * 2 ^ lo := by rw [putFld, Nat.add_mul]; omega
    _ ≤ 2 ^ len * 2 ^ lo := Nat.mul_le_mul_right _ hv
    _ = 2 ^ (lo + len) := by rw [pow_add, Nat.mul_comm]
    _ ≤ 2 ^ hi := Nat.pow_le_pow_right (by decide) h

/-- The record below its start time. -/
def recordHead (q : Nat) (Q : Queue) (c : Cmd) (r : Result) : Nat :=
  putFld (statusCode r.status) 0 16 + putFld (hOpcode c.hdr) 28 12 + putFld q 40 8 + putFld Q.cfg.part 48 2 + putFld 1 63 1
    + putFld Q.seq 128 64 + putFld (hUserTag c.hdr) 192 64

/-- The record above its end time. -/
def recordTail (r : Result) : Nat := putFld r.a 384 32 + putFld r.b 416 32 + putFld r.work 448 32

theorem dvd_recordTail (r : Result) : 2 ^ (320 + 64) ∣ recordTail r :=
  ((dvd_putFld r.a 32 le_rfl).add (dvd_putFld r.b 32 (by decide))).add (dvd_putFld r.work 32 (by decide))

theorem recordHead_lt (q : Nat) (Q : Queue) (c : Cmd) (r : Result) : recordHead q Q c r < 2 ^ 256 := by
  have status : putFld (statusCode r.status) 0 16 < 2 ^ 28 := by
    simpa using add_putFld_lt (a := 0) (lo := 0) (len := 16) (hi := 28) (statusCode r.status) (by decide) (by decide)
  have opcode := add_putFld_lt (len := 12) (hi := 40) (hOpcode c.hdr) status (by decide)
  have queue := add_putFld_lt (len := 8) (hi := 48) q opcode (by decide)
  have part := add_putFld_lt (len := 2) (hi := 63) Q.cfg.part queue (by decide)
  have valid := add_putFld_lt (len := 1) (hi := 128) 1 part (by decide)
  have seq := add_putFld_lt (len := 64) (hi := 192) Q.seq valid (by decide)
  exact add_putFld_lt (hUserTag c.hdr) seq (by decide)

/-- The record is its head, its two times and its tail. -/
theorem recordBits_eq (s : State) (q : Nat) (Q : Queue) (c : Cmd) (r : Result) :
    recordBits s q Q c r = recordHead q Q c r + putFld (startTime s c) 256 64 + (putFld s.now 320 64 + recordTail r) := by
  simp only [recordBits, recordHead, recordTail, Nat.add_assoc]

theorem recordBits_start (s : State) (q : Nat) (Q : Queue) (c : Cmd) (r : Result) :
    fld (recordBits s q Q c r) 256 64 = startTime s c % 2 ^ 64 := by
  rw [recordBits_eq]
  exact fld_between _ (recordHead_lt q Q c r)
    ((dvd_putFld s.now 64 le_rfl).add ((pow_dvd_pow 2 (by decide)).trans (dvd_recordTail r)))

theorem recordBits_end (s : State) (q : Nat) (Q : Queue) (c : Cmd) (r : Result) :
    fld (recordBits s q Q c r) 320 64 = s.now % 2 ^ 64 := by
  rw [recordBits_eq, ← Nat.add_assoc]
  exact fld_between _ (add_putFld_lt _ (recordHead_lt q Q c r) (by decide)) (dvd_recordTail r)

/-! ### The four commands -/

/-- Engine kind 0x0 is every queue's. -/
theorem opKind_zero {op : Nat} (h : op < 4) : opKind op = 0 := by
  simp only [opKind, fld]
  omega

/-- The check of the engine kind is the only one with its status, and it passes for kind 0x0. -/
theorem not_wrongEngine (s : State) (Q : Queue) {h : Nat} (hop : hOpcode h < 4) :
    (true, failAt .loadWrongEngine 0 0) ∉ stageA s Q h := by
  simp [stageA, headReserved, headZero, failAt, opKind_zero hop]

/-- TIMESTAMP commits as it completes. -/
theorem exec_timestamp_starts {s : State} {q : Nat} {Q : Queue} {c : Cmd} (h : starts s q 0x003 noChecks Q c) :
    exec (.timestamp q) s = .next (commitQueue (setResult (running s q c) q ⟨.completed, 0, 0, 0⟩) q) := by
  have hcheck := h.1
  have ht : timestamp s q = commitQueue (runCommand s q 0x003 noChecks fun st => effectDone st q) q := by
    simp only [timestamp, hcheck]
  exact congrArg _ (ht.trans (congrArg (commitQueue · q) (runCommand_starts _ h)))

/-- Its record starts and ends at the time of its commit. -/
theorem recordBits_timestamp {t : State} (q : Nat) (Q : Queue) {c : Cmd} (r : Result) (hop : hOpcode c.hdr = 0x003) (ht : t.now < 2 ^ 64) :
    fld (recordBits t q Q c r) 256 64 = t.now ∧ fld (recordBits t q Q c r) 320 64 = t.now := by
  have hs : startTime t c = t.now := if_pos hop
  rw [recordBits_start, recordBits_end, hs, Nat.mod_eq_of_lt ht]
  exact ⟨rfl, rfl⟩

/-- FENCE_RESET points to no structure, so the loader reads nothing. -/
theorem atChecks_fenceReset (s : State) (q : Nat) (Q : Queue) {c : Cmd} (h : hOpcode c.hdr = 0x002) :
    atChecks s q Q c = enterStageB s q c := by
  simp [atChecks, useLoader, loaderSpans, loaderFields, h]

/-- Two states with the same fences, memory, streams and time, and the same queues but for `q`. -/
def sameButQueue (s t : State) (q : Nat) : Prop :=
  t.parts = s.parts ∧ t.mem = s.mem ∧ t.streams = s.streams ∧ t.now = s.now ∧ t.queues.length = s.queues.length
    ∧ ∀ r, r ≠ q → queueOf t r = queueOf s r

/-- At its stage B a command gives back no more than its queue's held slots. -/
theorem enterStageB_sameButQueue (s : State) (q : Nat) (c : Cmd) : sameButQueue s (enterStageB s q c) q := by
  unfold enterStageB
  split
  · exact ⟨rfl, rfl, rfl, rfl, rfl, fun _ _ => rfl⟩
  · exact ⟨rfl, rfl, rfl, rfl, modifyAt_length _ _ _, fun r hr => modifyAt_getD_other _ _ _ hr⟩

theorem setQueue_sameButQueue {s t : State} {q : Nat} (f : Queue → Queue) (h : sameButQueue s t q) : sameButQueue s (setQueue t q f) q := by
  obtain ⟨hparts, hmem, hstreams, hnow, hlen, hother⟩ := h
  exact ⟨hparts, hmem, hstreams, hnow, (modifyAt_length _ _ _).trans hlen,
    fun r hr => (queueOf_setQueue_other t f hr).trans (hother r hr)⟩

/-- FENCE_RESET begins. -/
theorem running_fenceReset {s : State} {q : Nat} {c : Cmd} (hop : hOpcode c.hdr = 0x002) (hq : q < s.queues.length) :
    sameButQueue s (running s q c) q ∧ (queueOf (running s q c) q).state = .run := by
  have henter := enterStageB_sameButQueue s q c
  rw [running, atChecks_fenceReset s q _ hop, beginRun]
  refine ⟨setQueue_sameButQueue _ henter, ?_⟩
  obtain ⟨-, -, -, -, hlen, -⟩ := henter
  rw [queueOf_setQueue_same _ q _ (hlen ▸ hq)]

/-- A reset fence is 0 without its error bit; a partition that the device does not have has no other. -/
theorem fenceOf_setPart_zero (s : State) (p f : Nat) :
    fenceOf (partOf (setPart s p fun P => { P with fences := insertKey f { value := 0, err := false } P.fences }) p) f = ⟨0, false⟩ := by
  by_cases hp : p < s.parts.length
  · rw [partOf_setPart_same s p _ hp, fenceOf_insertKey_same]
  · rw [partOf_beyond (by simp; omega)]
    rfl

/-- FENCE_RESET resets its fence, completes, and leaves the rest as it is. -/
theorem exec_fenceReset_starts {s : State} {q : Nat} {Q : Queue} {c : Cmd} (h : starts s q 0x002 checksFenceReset Q c) :
    ∃ t, exec (.fenceReset q) s = .next t
      ∧ fenceOf (partOf t Q.cfg.part) (fld c.body 0 12) = ⟨0, false⟩
      ∧ (∀ p f, (p ≠ Q.cfg.part ∨ f ≠ fld c.body 0 12) → fenceOf (partOf t p) f = fenceOf (partOf s p) f)
      ∧ (∀ r, r ≠ q → queueOf t r = queueOf s r)
      ∧ (queueOf t q).state = .run ∧ (queueOf t q).result = some ⟨.completed, 0, 0, 0⟩
      ∧ t.mem = s.mem ∧ t.streams = s.streams ∧ t.now = s.now := by
  have hcheck := h.1
  obtain ⟨rfl, -, hstate, -, hop, -⟩ := inCheck_some hcheck
  have hq : q < s.queues.length := queue_exists (by rw [hstate]; decide)
  obtain ⟨⟨hparts, hmem, hstreams, hnow, hlen, hother⟩, hrun⟩ := running_fenceReset hop hq
  have hpart (p : Nat) : partOf (running s q c) p = partOf s p := by unfold partOf; rw [hparts]
  have hqueue := queueOf_setQueue_same (running s q c) q (fun Q => { Q with result := some ⟨.completed, 0, 0, 0⟩ }) (hlen ▸ hq)
  refine ⟨effectFenceReset (running s q c) q _ c, congrArg _ (runCommand_starts _ h), fenceOf_setPart_zero _ _ _,
    fun p f hne => ?_, fun r hr => (queueOf_setQueue_other _ _ hr).trans (hother r hr), ?_, ?_, hmem, hstreams, hnow⟩
  · rw [← hpart]
    exact fenceOf_setPart_other (running s q c) (fun _ => ⟨0, false⟩) hne
  · exact (congrArg Queue.state hqueue).trans hrun
  · exact congrArg Queue.result hqueue

/-- Settles O5: each command is its effect on the state in which it runs, and FENCE_RESET's first check is that of its reserved bits. -/
theorem fenceCommandsRun : Obligations.FenceCommandsRun := by
  refine ⟨fun s Q h => not_wrongEngine s Q, fun s q Q c => ⟨fun h => congrArg _ (runCommand_starts _ h),
    fun h => congrArg _ (runCommand_starts _ h), fun h => ⟨exec_timestamp_starts h, fun t r => ?_⟩, exec_fenceReset_starts⟩,
    fun s Q c h => if_pos (by simpa using h)⟩
  obtain ⟨-, -, -, -, hop, -⟩ := inCheck_some h.1
  exact recordBits_timestamp q Q r hop

end Sys2Proof.Machine
end

section
/-! Commands of the COMPUTE engines once they start (R130, R321): what the window fence lets through, and what is written of the rows
computed behind it. -/

namespace Sys2Proof.Machine

/-! ### Through the window fence to the written rows -/

/-- A command whose positions are READY and whose reads do not fail computes in the state that its reads leave. -/
theorem gated_readsThrough {z y : State} {q p : Nat} {reads : List (Nat × Nat)} {e : Cmd} (compute : State → State)
    (h : readsThrough z q p reads y e) : gated z q p reads compute = compute y := by
  obtain ⟨hfail, hready, hkind, hread, -, -⟩ := h
  simp only [gated, hfail, hready, if_true, afterReads, if_neg hkind, onceRead, hread]

/-- A row that starts a command behind the window fence computes once the fence and the reads let it through. -/
theorem computes_of_gated {i : Instr} {s z y v : State} {q p : Nat} {reads : List (Nat × Nat)} {e : Cmd} {compute : State → State}
    (hstart : exec i s = .next (gated z q p reads compute)) (hread : readsThrough z q p reads y e) (hv : compute y = v) :
    exec i s = .next v := by
  rw [hstart, gated_readsThrough compute hread, hv]

/-- In state `y` queue `q` of partition `p` executes the command `e` with body `b`. -/
structure Computes (y : State) (q p : Nat) (e : Cmd) (b : Nat) : Prop where
  cmd : (queueOf y q).cmd = some e
  part : (queueOf y q).cfg.part = p
  body : e.body = b

theorem computes_of_reads {z y : State} {q p b : Nat} {reads : List (Nat × Nat)} {e : Cmd} (h : readsThrough z q p reads y e)
    (hb : e.body = b) : Computes y q p e b := by
  obtain ⟨-, -, -, -, hcmd, hpart⟩ := h
  exact ⟨hcmd, hpart, hb⟩

/-- Rows that can all be stored are stored, and the command completes. -/
theorem writeRows_stored {s t : State} {q p : Nat} {rs : List OutRow} (outs : List (Nat × Nat)) (stall : Option Nat) (work : Nat)
    (h : storeAll s p q (outWrites rs) = .ok t) :
    writeRows s q p (.ok rs) outs stall work = setResult t q (completedResult (outEvent rs) stall none work) := by
  simp only [writeRows, h]

/-! ### What the harrow commands compute (R188, R195, R199, R293) -/

section
variable {y t : State} {q p b : Nat} {e : Cmd} {rs : List OutRow} (h : Computes y q p e b)
include h

/-- The map form of ELTWISE. -/
theorem computeEltwise_map (hf : eForm b ≠ 1) (hrs : eMapRows y p b e.seed = .ok rs) (ht : storeAll y p q (outWrites rs) = .ok t) :
    computeEltwise y q = setResult t q (completedResult (outEvent rs) none none (eTiles b (partOf y p).cfg.repeatable)) := by
  simp only [computeEltwise, h.cmd, h.part, h.body, if_neg hf, hrs, writeRows_stored _ _ _ ht]

theorem computeNormRow_rows {n : Nat} (hrs : nOutRows y p b e.seed = .ok (rs, n))
    (ht : storeAll (setCounts y q fun k => { k with normClamp := satAdd 32 k.normClamp n }) p q (outWrites rs) = .ok t) :
    computeNormRow y q = setResult t q (completedResult (outEvent rs) none none (ceilDiv (nRows b) 8)) := by
  simp only [computeNormRow, h.cmd, h.part, h.body, hrs, writeRows_stored _ _ _ ht]

/-- SOFTMAX_ROW goes from its lengths to the columns below them. -/
theorem softmaxReads_lengths (hr : e.reads = xLenReads b) :
    softmaxReads y q = gated y q p (xRowReads y p b) fun st => computeSoftmaxRow st q := by
  simp only [softmaxReads, h.cmd, h.part, h.body, if_pos hr]

theorem computeSoftmaxRow_rows (hrs : xOutRows y p b e.seed = .ok rs) (ht : storeAll y p q (outWrites rs) = .ok t) :
    computeSoftmaxRow y q = setResult t q (completedResult (outEvent rs) none none (ceilDiv (xRows b) 8)) := by
  simp only [computeSoftmaxRow, h.cmd, h.part, h.body, hrs, writeRows_stored _ _ _ ht]

/-- SAMPLE in mode 1 is dropout. -/
theorem computeSample_dropout (hm : spMode b = 1) (hrs : spDropRows y p b e.seed = .ok rs) (ht : storeAll y p q (outWrites rs) = .ok t) :
    computeSample y q = setResult t q (completedResult (outEvent rs) none none (spItems b)) := by
  simp only [computeSample, h.cmd, h.part, h.body, if_pos hm, hrs, writeRows_stored _ _ _ ht]

/-- In mode 0 it draws tokens, and its result counts the rows without one. -/
theorem computeSample_tokens {ds : List Draw} (hm : spMode b ≠ 1) (hds : spDrawsOf y p b e.seed = .ok ds)
    (ht : storeAll y p q (outWrites (spTokenRows b ds)) = .ok t) :
    computeSample y q = setDetails (setResult t q (completedResult (outEvent (spTokenRows b ds)) none none (spItems b))) q
      (ds.filter fun d => d.token == 0xFFFFFFFF).length (ds.filter (·.bad)).length := by
  simp only [computeSample, h.cmd, h.part, h.body, if_neg hm, hds, writeRows_stored _ _ _ ht]

end

/-- Settles O10: each command is its start in the state in which it runs, and then what it computes behind the fence. -/
theorem harrowCommandsStart : Obligations.HarrowCommandsStart := by
  intro s q Q c b p x opened sampled done
  refine ⟨fun h => ?eltwise, fun h => ?normRow, fun h => ?softmaxRow, fun h => ?sample⟩
  case eltwise =>
    have hstart : exec (.eltwise q) s = .next (gated (opened (eTiles b (partOf x p).cfg.repeatable) (eOuts b)) q p (eReads b)
        fun st => computeEltwise st q) := congrArg _ (runCommand_starts _ h)
    exact ⟨hstart, fun y e rs t hread hb hf hrs ht =>
      computes_of_gated hstart hread (computeEltwise_map (computes_of_reads hread hb) hf hrs ht)⟩
  case normRow =>
    have hstart : exec (.normRow q) s = .next (gated (opened (ceilDiv (nRows b) 8) (nOuts b)) q p (nReads b)
        fun st => computeNormRow st q) := congrArg _ (runCommand_starts _ h)
    exact ⟨hstart, fun y e rs n t hread hb hrs ht =>
      computes_of_gated hstart hread (computeNormRow_rows (computes_of_reads hread hb) hrs ht)⟩
  case softmaxRow =>
    have hstart : exec (.softmaxRow q) s = .next (gated (opened (ceilDiv (xRows b) 8) (xOuts b)) q p (xLenReads b)
        fun st => softmaxReads st q) := congrArg _ (runCommand_starts _ h)
    refine ⟨hstart, fun y e z d rs t hlengths hb hr hcols hd hrs ht => computes_of_gated hstart hlengths ?_⟩
    calc softmaxReads y q = gated y q p (xRowReads y p b) fun st => computeSoftmaxRow st q :=
          softmaxReads_lengths (computes_of_reads hlengths hb) hr
      _ = computeSoftmaxRow z q := gated_readsThrough _ hcols
      _ = done t rs (ceilDiv (xRows b) 8) := computeSoftmaxRow_rows (computes_of_reads hcols hd) hrs ht
  case sample =>
    have hstart : exec (.sample q) s = .next (gated (opened (spItems b) (spOuts b)) q p sampled fun st => computeSample st q) :=
      congrArg _ (runCommand_starts _ h)
    refine ⟨hstart, fun y e t hread hb => ⟨fun rs hm hrs ht => ?dropout, fun ds hm hds ht => ?tokens⟩⟩
    case dropout => exact computes_of_gated hstart hread (computeSample_dropout (computes_of_reads hread hb) hm hrs ht)
    case tokens => exact computes_of_gated hstart hread (computeSample_tokens (computes_of_reads hread hb) hm hds ht)

/-! ### What the tiled commands compute (R109, R119, R135, R147, R163) -/

/-- The state in which an unsplit MX_GEMM has its words: they stand in the held slots, unless its out_mode is 0. -/
def gemmHeld (y : State) (q b d : Nat) (ws : List (Nat × Nat × Nat × List FV)) : State :=
  if gOutMode b = 0 then y else setAccum y (gHeldWrites d (heldSlots y q) ws)

section
variable {y t : State} {q p b d : Nat} {e : Cmd} {rs : List OutRow} {ws : List (Nat × Nat × Nat × List FV)} (h : Computes y q p e b)
  (hd : e.loaded = [d])
include h hd

/-- A split MX_GEMM leaves its partials to its reducers. -/
theorem computeMxGemm_split (hk : dKc d ≠ 0) : computeMxGemm y q = keepPartials y q e (gPartials y p b d) (dT d) := by
  simp only [computeMxGemm, h.cmd, h.part, h.body, hd]
  rw [if_pos (bne_iff_ne.2 hk)]

/-- Out_mode 1 writes no rows. -/
theorem computeMxGemm_held (hk : dKc d = 0) (hws : gWords y p b d (if gInitSel b = 2 then heldSlots y q else []) = .ok ws)
    (hm : gOutMode b = 1) : computeMxGemm y q = setResult (gemmHeld y q b d ws) q (completedResult .none none none (dT d)) := by
  simp only [computeMxGemm, h.cmd, h.part, h.body, hd, hk, bne_self_eq_false, Bool.false_eq_true, if_false, hws, if_pos hm, gemmHeld]

theorem computeMxGemm_rows (hk : dKc d = 0) (hws : gWords y p b d (if gInitSel b = 2 then heldSlots y q else []) = .ok ws)
    (hm : gOutMode b ≠ 1) (hrs : gOutRows y p b d e.seed ws = .ok rs) (ht : storeAll (gemmHeld y q b d ws) p q (outWrites rs) = .ok t) :
    computeMxGemm y q = setResult t q (completedResult (outEvent rs) e.stall none (dT d)) := by
  simp only [computeMxGemm, h.cmd, h.part, h.body, hd, hk, bne_self_eq_false, Bool.false_eq_true, if_false, hws, if_neg hm, hrs]
  exact writeRows_stored _ _ _ ht

/-- A split CONV2D leaves its partials to its reducers. -/
theorem computeConv2d_split (hk : dKc d ≠ 0) : computeConv2d y q = keepPartials y q e (cPartials y p b d) (dT d) := by
  simp only [computeConv2d, h.cmd, h.part, h.body, hd]
  rw [if_pos (bne_iff_ne.2 hk)]

theorem computeConv2d_rows (hk : dKc d = 0)
    (hrs : cOutRows y p b d e.seed (xformRuns b d (match e.work with | some w => w.grantEngines.length | none => 0)) = .ok rs)
    (ht : storeAll y p q (outWrites rs) = .ok t) :
    computeConv2d y q = setResult t q (completedResult (outEvent rs) e.stall none (dT d)) := by
  simp only [computeConv2d, h.cmd, h.part, h.body, hd, hk, bne_self_eq_false, Bool.false_eq_true, if_false]
  exact (congrArg (fun r => writeRows y q p r e.outs e.stall (dT d)) hrs).trans (writeRows_stored _ _ _ ht)

theorem computePool_rows (hrs : plOutRows y p b d e.seed = .ok rs) (ht : storeAll y p q (outWrites rs) = .ok t) :
    computePool y q = setResult t q (completedResult (outEvent rs) none none (dT d)) := by
  simp only [computePool, h.cmd, h.part, h.body, hd, hrs, writeRows_stored _ _ _ ht]

end

/-! ### How the tiled commands start (R82, R109, R112) -/

/-- MX_GEMM finds a lost tile among those that it consumes. -/
theorem startMxGemm_lost {x : State} {q t d : Nat} {Q : Queue} {c : Cmd} (hd : readDesc x Q.cfg.part c.body 256 = .ok (some d))
    (hc : (gInitSel c.body == 2) = true) (ht : lostTile x q = some t) :
    startMxGemm x q Q c = setResult (unrun x q) q ⟨.faultUnrecovered, t, 0, 0⟩ := by
  simp only [startMxGemm, hd, hc, if_true, ht]

/-- The state in which MX_GEMM stands at the window fence: its slots reserved, its scratch charged, its grid open. -/
def gemmOpened (x : State) (q p b d : Nat) : State :=
  let n := (grantEngines x p).length
  let consume := gInitSel b == 2
  let holds := gOutMode b == 1 || gOutMode b == 2
  let h := if holds && !consume then holdSlots x q (dT d) (slotSupply x (grantEngines x p)) (heldShape d) else x
  let w := newWork h p (descGrid d false (holds || consume) (gPasses x p b) (gBanks b d) 0 [])
  let tags := if holds || consume then (heldSlots h q).map fun (t, e, _) => (e, t) else []
  setCmd (openWork (charge h p (tiledUnits d n) 0) q { w with bound := tags }) q fun y =>
    { y with outs := gOuts b d, chargeLoam := tiledUnits d n, loaded := [d] }

theorem startMxGemm_opens {x : State} {q d : Nat} {Q : Queue} {c : Cmd} (hd : readDesc x Q.cfg.part c.body 256 = .ok (some d))
    (hl : (gInitSel c.body == 2) = true → lostTile x q = none) :
    startMxGemm x q Q c
      = gated (gemmOpened x q Q.cfg.part c.body d) q Q.cfg.part (gReads c.body d) fun st => computeMxGemm st q := by
  have hnone : (if gInitSel c.body == 2 then lostTile x q else none) = none := ite_eq_right_iff.2 hl
  simp only [startMxGemm, hd, hnone, gemmOpened]

theorem startConv2d_opens {x : State} {q d : Nat} {Q : Queue} {c : Cmd} (hd : readDesc x Q.cfg.part c.body 256 = .ok (some d)) :
    let n := (grantEngines x Q.cfg.part).length
    startConv2d x q Q c = startTiled x q Q.cfg.part d (tiledUnits d n) false (cPasses x Q.cfg.part c.body) (cBanks c.body d)
      (geoTW (cGeo c.body)) (haloSides d) (cOuts c.body d) (cReads c.body d (xformRuns c.body d n)) fun st => computeConv2d st q := by
  simp only [startConv2d, hd]

theorem startPool_opens {x : State} {q d : Nat} {Q : Queue} {c : Cmd} (hd : readDesc x Q.cfg.part c.body 128 = .ok (some d)) :
    let g := plGeo c.body
    startPool x q Q c = startTiled x q Q.cfg.part d 0 true 1 (plBanks c.body d) (geoTW g) (haloSides d)
      (imageSpans d 2 (fld c.body 64 48) g.ho g.wo g.outRow g.outCol (rowBytes (fmtOf (plFmtOut c.body)) (dM d)))
      (imageReads d 1 (fld c.body 0 48) g.inRow g.inCol (rowBytes (fmtOf (plFmtIn c.body)) (dM d)) (usedRows g) (usedCols g))
      fun st => computePool st q := by
  simp only [startPool, hd]

/-- Settles O11: each command is its start with the descriptor that it reads, and then what it computes behind the fence. -/
theorem tiledCommandsStart : Obligations.TiledCommandsStart := by
  intro s q Q c d b p x n opened
  refine ⟨fun h hdesc => ?mxGemm, fun h hdesc => ?conv2d, fun h hdesc => ?pool⟩
  case mxGemm =>
    have hrun : exec (.mxGemm q) s = .next (startMxGemm x q Q c) := congrArg _ (runCommand_starts _ h)
    refine ⟨fun t hc ht => hrun.trans (congrArg _ (startMxGemm_lost hdesc hc ht)), fun hl => ?_⟩
    have hstart := hrun.trans (congrArg _ (startMxGemm_opens hdesc hl))
    refine ⟨hstart, fun y e hread hb hd => ⟨fun hk => ?_, fun ws hk hws => ⟨fun hm => ?_, fun rs t hm hrs ht => ?_⟩⟩⟩
    · exact computes_of_gated hstart hread (computeMxGemm_split (computes_of_reads hread hb) hd hk)
    · exact computes_of_gated hstart hread (computeMxGemm_held (computes_of_reads hread hb) hd hk hws hm)
    · exact computes_of_gated hstart hread (computeMxGemm_rows (computes_of_reads hread hb) hd hk hws hm hrs ht)
  case conv2d =>
    have hrun : exec (.conv2d q) s = .next (startConv2d x q Q c) := congrArg _ (runCommand_starts _ h)
    have hstart := hrun.trans (congrArg Host.Outcome.next (startConv2d_opens hdesc))
    refine ⟨hstart, fun y e hread hb hd => ⟨fun hk => ?_, fun rs t hk hrs ht => ?_⟩⟩
    · exact computes_of_gated hstart hread (computeConv2d_split (computes_of_reads hread hb) hd hk)
    · exact computes_of_gated hstart hread (computeConv2d_rows (computes_of_reads hread hb) hd hk hrs ht)
  case pool =>
    have hrun : exec (.pool q) s = .next (startPool x q Q c) := congrArg _ (runCommand_starts _ h)
    have hstart := hrun.trans (congrArg Host.Outcome.next (startPool_opens hdesc))
    exact ⟨hstart, fun y e rs t hread hb hd hrs ht =>
      computes_of_gated hstart hread (computePool_rows (computes_of_reads hread hb) hd hrs ht)⟩

end Sys2Proof.Machine
end

section
/-! The steps in which tiles finish (R135, R136, R168), the room of an intake buffer, and phase 2 of a scan (R224). -/

namespace Sys2Proof.Machine

/-! ### A tile leaves its engine (R168) -/

/-- What a drained tile changes at its engine and its command: it is dropped with its slot, and counted as written. -/
def tileLeaves (e : Nat) (it : Item) (t : Nat) (holds : Bool) (x : State) : State :=
  countWritten (leaveSlots (dropTile
    (setCmd x it.q fun k => { k with work := k.work.map fun v => noteFinished v it t }) e it.q t) e it.q t holds) it.q 1

section
variable {s : State} {e t : Nat} {it : Item} {c : Cmd} {w : Work} (ht : nextTile s e = some (it, t)) (hc : (queueOf s it.q).cmd = some c)
  (hw : c.work = some w) (hsplit : w.grid.split = false)
include ht hc hw hsplit

/-- A tile that no harrow reads leaves at once. -/
theorem tileDrain_holding (hd : drainsTiles c = false) : tileDrain s e = tileLeaves e it t w.grid.holds s := by
  simp [tileDrain, ht, hc, hw, hsplit, hd, tileLeaves]

/-- One for which the intake buffer has room enters it. -/
theorem tileDrain_room {xs : List Drained} (hd : drainsTiles c = true)
    (hroom : intakeTile s.now e it.q (tileWords w.grid it.index t) w.grid (harrowOf s (e / 2)).intake = some xs) :
    tileDrain s e = tileLeaves e it t w.grid.holds (setHarrow s (e / 2) fun H => { H with intake := xs }) := by
  simp [tileDrain, ht, hc, hw, hsplit, hd, hroom, tileLeaves]

/-- One for which it has none stays. -/
theorem tileDrain_full (hd : drainsTiles c = true)
    (hroom : intakeTile s.now e it.q (tileWords w.grid it.index t) w.grid (harrowOf s (e / 2)).intake = none) : tileDrain s e = s := by
  simp [tileDrain, ht, hc, hw, hsplit, hd, hroom]

end

/-! ### The partials of a tile (R135, R136) -/

section
variable {s : State} {e t a : Nat} {it : Item} {rest : List Item} {w v : Work} (hit : (engineOf s e).items = it :: rest)
  (hw : (queueOf s it.q).cmd.bind (·.work) = some w) (hsplit : w.grid.split = true)
  (ht : it.tiles.find? (fun t => lookupKey t w.reducers != some e) = some t) (hdraw : drawArrival w it.index t = (a, v))
include hit hw hsplit ht hdraw

/-- An engine below the last arrival leaves its partial in scratch and frees the slot. -/
theorem splitkArrival_below (ha : a + 1 < w.grid.chunks) :
    splitkArrival s e = leaveSlots
      (dropTile (setCmd s it.q fun c => { c with work := some (writePartial v it.index t a) }) e it.q t) e it.q t false := by
  simp [splitkArrival, hit, hw, hsplit, ht, hdraw, ha]

/-- The last becomes the reducer. -/
theorem splitkArrival_last (ha : w.grid.chunks ≤ a + 1) :
    splitkArrival s e = setCmd s it.q fun c => { c with work := some { v with reducers := insertKey t e v.reducers } } := by
  simp [splitkArrival, hit, hw, hsplit, ht, hdraw, Nat.not_lt.2 ha]

end

/-- A reducer whose partials are ready gives up the tile and writes the rows that they make. -/
theorem splitkReduce_ready {s : State} {q t e : Nat} {c : Cmd} {w : Work} {it : Item} (hopen : openWorkOf (queueOf s q) = some (c, w))
    (he : lookupKey t w.reducers = some e) (hit : holdingItem s e q t = some it) (hready : allReady w t = true) :
    splitkReduce s q t = writeReduced
      (countWritten (leaveSlots (dropTile
        (setCounts (setCmd s q fun c => { c with work := some { w with reducers := eraseKey t w.reducers } }) q
          fun c => { c with splitReduce := satAdd 48 c.splitReduce 1 }) e q t) e q t false) q 1)
      q (queueOf s q).cfg.part c (reducedRows s (queueOf s q).cfg.part t c (gatherPartials w t (itemChunk w.grid it.index))) := by
  simp [splitkReduce, hopen, he, hit, hready]

theorem writeReduced_stored {s z : State} {q p : Nat} (c : Cmd) {rs : List OutRow} (h : storeAll s p q (outWrites rs) = .ok z) :
    writeReduced s q p c (.ok rs) = setQueue z q fun Q => { Q with result := Q.result.map (withEvent (outEvent rs)) } := by
  simp only [writeReduced, h]

/-! ### The room of an intake buffer (R168) -/

theorem intakeUsed_eq_sum (xs : List Drained) : intakeUsed xs = (xs.map intakeWords).sum := List.sum_eq_foldl.symm

/-- A new entry takes its own words wherever it goes. -/
theorem intakeUsed_insertDrained (d : Drained) (xs : List Drained) : intakeUsed (insertDrained d xs) = intakeUsed xs + intakeWords d := by
  have hsplit (f : Drained → Bool) : ((xs.takeWhile f).map intakeWords).sum + ((xs.dropWhile f).map intakeWords).sum
      = (xs.map intakeWords).sum := by
    rw [← List.sum_append, ← List.map_append, List.takeWhile_append_dropWhile]
  simp only [intakeUsed_eq_sum, insertDrained, List.map_append, List.map_cons, List.sum_append, List.sum_cons, ← hsplit
    (fun x => !(d.engine % 2 == 0 && x.engine % 2 == 1 && x.start == d.start))]
  omega

/-- Where no set of gate tiles is open, a tile enters the buffer as an entry of its own, and only within its 16384 words. -/
theorem intakeUsed_intakeTile {now e q words : Nat} {g : Grid} {xs ys : List Drained}
    (hwhole : (xs.all fun d => decide (d.need ≤ d.gates)) = true) (h : intakeTile now e q words g xs = some ys) :
    intakeUsed ys ≤ 16384 := by
  have hopen : (xs.any fun x => x.engine == e && x.q == q && decide (x.gates < x.need)) = false := by
    refine List.any_eq_false.2 fun x hx => ?_
    have := List.all_eq_true.1 hwhole x hx
    simp only [decide_eq_true_eq] at this
    simp [this]
  simp only [intakeTile, hopen, Bool.false_eq_true, if_false, Option.ite_none_left_eq_some, Option.some.injEq] at h
  obtain ⟨hroom, rfl⟩ := h
  rw [intakeUsed_insertDrained]
  omega

/-! ### Phase 2 of a scan (R224) -/

/-- The work of a pair whose phase 2 has run. -/
def pairScanned (s : State) (p pair : Nat) (c : Cmd) (w : Work) : Work :=
  { w with
    phase2 := w.phase2 ++ [pair]
    scanner := match phase2Furrow s p pair c w with | some f => insertKey pair f w.scanner | none => w.scanner }

/-- The queue once phase 2 of a pair has run: the pair's phase-3 items are on the redispatch list. -/
def pairScannedQueue (s : State) (pair : Nat) (c : Cmd) (w : Work) (Q : Queue) : Queue :=
  { Q with
    redispatch := sortBy (Q.redispatch ++ rangeFrom (w.grid.items + pair * w.grid.scan) w.grid.scan) fun a b => decide (a ≤ b)
    cmd := Q.cmd.map fun x => { x with work := some (pairScanned s Q.cfg.part pair c w) } }

/-- A queue with a command is one of the device's. -/
theorem queue_exists_of_cmd {s : State} {q : Nat} {c : Cmd} (h : (queueOf s q).cmd = some c) : q < s.queues.length := by
  by_contra hq
  rw [queueOf_beyond (Nat.le_of_not_lt hq)] at h
  cases h

theorem openWorkOf_some {Q : Queue} {c : Cmd} {w : Work} (h : openWorkOf Q = some (c, w)) : Q.cmd = some c ∧ c.work = some w := by
  unfold openWorkOf at h
  split at h
  · cases h
  · next d hd =>
    split at h
    · cases h
    · next v hv =>
      obtain ⟨-, heq⟩ := Option.ite_none_right_eq_some.1 h
      cases heq
      exact ⟨hd, hv⟩

theorem scanPhase2_runs {s : State} {q pair : Nat} {c : Cmd} {w : Work} (hopen : openWorkOf (queueOf s q) = some (c, w))
    (hscan : w.grid.scan ≠ 0) (hpair : pair * w.grid.scan < w.grid.items) (hnew : w.phase2.contains pair = false)
    (hdone : pairFinished w pair = true) :
    scanPhase2 s q pair = setQueue s q (pairScannedQueue s pair c w) := by
  have hgo : ¬ (w.grid.scan = 0 ∨ w.grid.items ≤ pair * w.grid.scan ∨ w.phase2.contains pair ∨ pairFinished w pair = false) := by
    rw [hnew, hdone]
    simp [hscan, Nat.not_le.2 hpair]
  simp only [scanPhase2, hopen]
  exact if_neg hgo

/-- Settles O26: each step comes to the one branch that its conditions leave open. -/
theorem tilesFinish : Obligations.TilesFinish := by
  refine ⟨fun s => ⟨fun e it t c w ht hc hw hsplit => ?drain, fun e it rest w t a v hit hw hsplit ht hdraw => ?arrival,
    fun q t c w e it rs z hopen he hit hready => ?reduce⟩, fun _ _ _ _ _ _ _ hwhole h => intakeUsed_intakeTile hwhole h,
    fun s q pair c w hopen hscan hpair hnew hdone => ?phase2⟩
  case drain =>
    exact ⟨fun hd => congrArg _ (tileDrain_holding ht hc hw hsplit hd), fun hd =>
      ⟨fun xs hroom => congrArg _ (tileDrain_room ht hc hw hsplit hd hroom),
        fun hroom => congrArg _ (tileDrain_full ht hc hw hsplit hd hroom)⟩⟩
  case arrival =>
    exact ⟨fun ha => congrArg _ (splitkArrival_below hit hw hsplit ht hdraw ha),
      fun ha => congrArg _ (splitkArrival_last hit hw hsplit ht hdraw ha)⟩
  case reduce =>
    intro p x y hrs hz
    refine congrArg Host.Outcome.next ((splitkReduce_ready hopen he hit hready).trans ?_)
    rw [hrs]
    exact writeReduced_stored c hz
  case phase2 =>
    obtain ⟨hc, -⟩ := openWorkOf_some hopen
    have hq := queue_exists_of_cmd hc
    have hqueue := queueOf_setQueue_same s q (pairScannedQueue s pair c w) hq
    exact ⟨setQueue s q (pairScannedQueue s pair c w), congrArg _ (scanPhase2_runs hopen hscan hpair hnew hdone),
      congrArg Queue.redispatch hqueue, ⟨_, (congrArg Queue.cmd hqueue).trans (congrArg (Option.map _) hc), rfl⟩,
      fun r hr => queueOf_setQueue_other s _ hr, rfl⟩

end Sys2Proof.Machine
end

section
/-! FRAME. Stores, undefined outputs, undone streams and early ends of commands leave the functions and the drill channels alone; hence so
does an abort (R87 to R92). -/

namespace Sys2Proof.Machine

/-- The units that only the host and the drill's own steps change: functions and drill channels. -/
def edge (s : State) : List Function × List Channel := (s.fns, s.drill)

theorem edge_foldl {α : Type} {f : State → α → State} (hf : ∀ s a, edge (f s a) = edge s) : ∀ (xs : List α) (s : State),
    edge (xs.foldl f s) = edge s
  | [], _ => rfl
  | x :: xs, s => (edge_foldl hf xs (f s x)).trans (hf s x)

theorem edge_ite {b : Prop} [Decidable b] {s t u : State} (ht : edge t = edge s) (hu : edge u = edge s) :
    edge (if b then t else u) = edge s := by
  split
  · exact ht
  · exact hu

theorem edge_foldlM {α : Type} {f : State → α → Except Fail State} (hf : ∀ {s t a}, f s a = .ok t → edge t = edge s) :
    ∀ {xs : List α} {s t : State}, xs.foldlM f s = .ok t → edge t = edge s
  | [], _, _, h => by cases h; rfl
  | x :: xs, s, t, h => by
    rw [List.foldlM_cons] at h
    cases hx : f s x with
    | error e => rw [hx] at h; cases h
    | ok u =>
      rw [hx] at h
      exact (edge_foldlM hf h).trans (hf hx)

/-! ### Stores -/

theorem edge_keyLine (s : State) (line : Nat) : edge (keyLine s line) = edge s := by
  unfold keyLine
  split <;> rfl

theorem edge_putPhys (s : State) (a : Nat) (bs : List Byte) : edge (putPhys s a bs) = edge s := edge_keyLine ..

theorem edge_poisonCmds (s : State) (e : WcbEntry) : edge (poisonCmds s e) = edge s :=
  edge_foldl (f := fun x q => failLate x q (uncorrectable (e.line * 64))) (fun _ _ => rfl) _ _

theorem edge_drainEntry (s : State) (e : WcbEntry) : edge (drainEntry s e) = edge s := by
  unfold drainEntry
  dsimp only
  split
  · exact edge_poisonCmds ..
  · split
    · exact edge_keyLine ..
    · exact edge_keyLine ..

theorem edge_drainOldest (s : State) (p : Nat) : edge (drainOldest s p) = edge s := by
  unfold drainOldest
  split
  · rfl
  · exact edge_drainEntry ..

theorem edge_wcbMerge (s : State) (p q a : Nat) (bs : List Byte) : edge (wcbMerge s p q a bs) = edge s := by
  unfold wcbMerge
  dsimp only
  split
  · split
    · split
      · exact edge_drainEntry ..
      · rfl
    · exact edge_drainEntry ..
  · split
    · exact edge_drainOldest ..
    · rfl

theorem edge_physStoreLine {s t : State} {p q a : Nat} {bs : List Byte} (h : physStoreLine s p q a bs = .ok t) : edge t = edge s := by
  unfold physStoreLine at h
  dsimp only at h
  split at h
  · split at h
    · cases h; exact edge_putPhys ..
    · cases h; exact edge_wcbMerge ..
  · split at h
    · cases h
    · cases h; exact edge_putPhys ..

theorem edge_storeHome {s t : State} {p q va : Nat} {bs : List Byte} (h : storeHome s p q va bs = .ok t) : edge t = edge s := by
  unfold storeHome at h
  split at h
  · cases h
  · exact edge_physStoreLine h
  · cases h; rfl
  · cases h; rfl
  · cases h

theorem edge_storeLine {s t : State} {p q va : Nat} {bs : List Byte} (h : storeLine s p q va bs = .ok t) : edge t = edge s := by
  unfold storeLine at h
  split at h
  · cases h; rfl
  · exact edge_storeHome h

theorem edge_storeBytes {s t : State} {p q va : Nat} {bs : List Byte} (h : storeBytes s p q va bs = .ok t) : edge t = edge s :=
  edge_foldlM edge_storeLine h

theorem edge_havoc (s : State) (p q : Nat) (spans : List (Nat × Nat)) : edge (havoc s p q spans) = edge s := by
  refine edge_foldl (fun x a => ?_) _ _
  dsimp only
  split
  · next h => exact (edge_storeBytes h :)
  · rfl

/-! ### Streams -/

theorem edge_setStream (s : State) (id : Nat) (f : Stream → Stream) : edge (setStream s id f) = edge s := by
  unfold setStream
  split <;> rfl

theorem edge_havocState (s : State) (st : Stream) : edge (havocState s st) = edge s := by
  refine edge_foldl (fun x a => ?_) _ _
  rfl

theorem edge_markUndef (s : State) (id : Nat) : edge (markUndef s id) = edge s := by
  unfold markUndef
  split
  · split
    · exact (edge_setStream ..).trans (edge_havocState ..)
    · rfl
  · rfl

theorem edge_leaveState (s : State) (gs : List Nat) : edge (leaveState s gs) = edge s := by
  refine edge_foldl (fun x g => ?_) _ _
  split <;> rfl

theorem edge_releaseRow (s : State) (n row id : Nat) : edge (releaseRow s n row id) = edge s := by
  unfold releaseRow
  split
  · rfl
  · split
    · rfl
    · dsimp only
      split
      · exact edge_leaveState ..
      · rfl

theorem edge_leaveCohort (s : State) (id : Nat) : edge (leaveCohort s id) = edge s := by
  unfold leaveCohort
  split
  · rfl
  · split
    · rfl
    · exact (edge_releaseRow ..).trans (edge_setStream ..)

theorem edge_freeImage (s : State) (id : Nat) : edge (freeImage s id) = edge s := by
  unfold freeImage
  split
  · rfl
  · split
    · rfl
    · exact edge_setStream ..

theorem edge_releaseKv (s : State) (id : Nat) : edge (releaseKv s id) = edge s := by
  unfold releaseKv
  split
  · rfl
  · split
    · rfl
    · refine (edge_setStream ..).trans (edge_foldl (fun x e => ?_) _ _)
      rfl

theorem edge_restoreStream (s : State) (id : Nat) (prior : Option Stream) : edge (restoreStream s id prior) = edge s := by
  unfold restoreStream
  split <;> rfl

theorem edge_undoChild (s : State) (id : Nat) (prior : Option Stream) : edge (undoChild s id prior) = edge s :=
  (edge_restoreStream ..).trans ((edge_releaseKv ..).trans ((edge_freeImage ..).trans (edge_leaveCohort ..)))

theorem edge_undoPark (s : State) (id : Nat) (prior : Stream) : edge (undoPark s id prior) = edge s := by
  unfold undoPark
  split
  · rfl
  · split
    · exact edge_freeImage ..
    · rfl

theorem edge_undoResume (s : State) (q id : Nat) (prior : Stream) : edge (undoResume s q id prior) = edge s := by
  unfold undoResume
  split
  · rfl
  · split
    · rfl
    · exact edge_leaveCohort ..

theorem edge_undoStreams (s : State) (q : Nat) (c : Cmd) : edge (undoStreams s q c) = edge s := by
  refine edge_foldl (fun x a => ?_) _ _
  dsimp only
  split
  · exact edge_undoPark ..
  · exact edge_undoResume ..
  · exact edge_undoChild ..

/-! ### Early ends and aborts -/

theorem edge_endEarly (s : State) (q p : Nat) (f : Fail) (outs : List (Nat × Nat)) (work : Nat) :
    edge (endEarly s q p f outs work) = edge s := by
  unfold endEarly
  split
  · exact (edge_foldl edge_markUndef _ _).trans (edge_havoc ..)
  · rfl

theorem edge_setCmd (s : State) (q : Nat) (f : Cmd → Cmd) : edge (setCmd s q f) = edge s := rfl

theorem edge_finishDesc (s : State) (q : Nat) : edge (finishDesc s q) = edge s := by
  unfold finishDesc
  split
  · rfl
  · dsimp only
    split
    · next h =>
      refine (edge_setCmd ..).trans ?_
      split at h
      · cases h; rfl
      · exact edge_storeBytes h
    · exact edge_endEarly ..

theorem edge_undefDirty (s : State) (ids : List Nat) : edge (undefDirty s ids) = edge s := by
  refine edge_foldl (fun x id => ?_) _ _
  split
  · split
    · exact edge_markUndef ..
    · rfl
  · rfl

theorem edge_stopSwath (s : State) (p : Nat) (w : Swath) (r : Result) : edge (stopSwath s p w r) = edge s := edge_undefDirty ..

theorem edge_discardItems (s : State) (q : Nat) : edge (discardItems s q) = edge s := rfl

theorem edge_stopEffects (s : State) (q : Nat) (c : Cmd) : edge (stopEffects s q c) = edge s := by
  unfold stopEffects
  dsimp only
  refine (edge_havoc ..).trans ?_
  refine edge_ite ((edge_undoStreams ..).trans ?marked) ?marked
  refine edge_ite ((edge_foldl edge_markUndef _ _).trans ?discarded) ?discarded
  refine (edge_discardItems ..).trans ?_
  split
  · refine (edge_setCmd ..).trans (edge_ite rfl rfl)
  · rfl

theorem edge_stopCmd (s : State) (q : Nat) (st : Status) (a : Nat) : edge (stopCmd s q st a) = edge s := by
  have hdesc := edge_finishDesc s q
  unfold stopCmd
  dsimp only
  split
  · exact hdesc
  · refine edge_ite hdesc ?_
    split
    · exact (edge_stopSwath ..).trans hdesc
    · exact edge_ite hdesc ((edge_ite (edge_stopEffects ..) rfl).trans hdesc)

theorem edge_endRange (s : State) (q first last : Nat) (st : Status) : edge (endRange s q first last st).2 = edge s := by
  unfold endRange
  dsimp only
  split
  · exact edge_stopCmd ..
  · rfl

theorem edge_abortRange (s : State) (q first last : Nat) : edge (abortRange s q first last).2.2 = edge s := by
  unfold abortRange
  dsimp only
  split
  · rfl
  · split
    · exact edge_endRange ..
    · exact edge_endRange ..

end Sys2Proof.Machine
end

section
/-! Trapped writes of the queue and drill-channel registers (R146, R365 to R370, R380 to R386, R563): how a write comes to the word that
firmware applies, and what that word changes. -/

namespace Sys2Proof.Machine

/-! ### A trapped write (R380 to R383) -/

/-- Firmware has taken a trapped write of a function without others. -/
def trapTaken (s : State) (fn : Nat) : State :=
  setFn s fn fun F => { F with traps := [], trapAccepted := (F.trapAccepted + 1) % 2 ^ 64 }

/-- Firmware counts the write as applied. -/
def trapCounted (s : State) (fn : Nat) : State := setFn s fn fun F => { F with trapApplied := (F.trapApplied + 1) % 2 ^ 64 }

/-- The state with the shadow of its registers as firmware has brought it up to date. -/
def showing (s : State) (sh : List (Nat × ShadowPage)) : State := { s with shadow := sh }

theorem modifyAt_modifyAt {α : Type} (f g : α → α) : ∀ (xs : List α) (i : Nat),
    modifyAt i f (modifyAt i g xs) = modifyAt i (f ∘ g) xs
  | [], i => by simp [modifyAt]
  | _ :: _, 0 => rfl
  | x :: xs, i + 1 => congrArg (x :: ·) (modifyAt_modifyAt f g xs i)

theorem setFn_setFn (s : State) (fn : Nat) (f g : Function → Function) : setFn (setFn s fn g) fn f = setFn s fn (f ∘ g) :=
  congrArg (fun fs => { s with fns := fs }) (modifyAt_modifyAt f g s.fns fn)

/-- A write that is trapped alone is applied at once. -/
theorem trapWrite_applies {s : State} {fn : Nat} (off size val : Nat) (hfn : fn < s.fns.length) (hserve : fwServes s = true)
    (htraps : (fnOf s fn).traps = []) :
    trapWrite s fn off size val = applyTrap (trapTaken s fn) fn ⟨off, size, val % 2 ^ (8 * size)⟩ := by
  have hlist : (fnOf (setFn s fn fun F => { F with
      traps := F.traps ++ [⟨off, size, val % 2 ^ (8 * size)⟩], trapAccepted := (F.trapAccepted + 1) % 2 ^ 64 }) fn).traps
        = [⟨off, size, val % 2 ^ (8 * size)⟩] := by
    rw [fnOf_setFn_same s fn _ hfn, htraps]
    rfl
  have hfree : (fnOf s fn).traps.length < 64 := by simp [htraps]
  unfold trapWrite drainTraps
  rw [if_pos hfree, if_pos (show fwServes (setFn s fn _) = true from hserve), hlist, setFn_setFn]
  rfl

/-- Pages are built into the shadow alone. -/
theorem buildPages_showing : ∀ (ks : List Nat) (s : State), ∃ sh, ks.foldl buildPage s = showing s sh
  | [], s => ⟨s.shadow, rfl⟩
  | k :: ks, s => by
    obtain ⟨sh, h⟩ := buildPages_showing ks (buildPage s k)
    exact ⟨sh, h⟩

/-- A word that firmware does not refuse is applied, counted and shown. -/
theorem applyTrap_applied {s t : State} {fn : Nat} {w : Trap}
    (h : applyWord s fn (w.off / 4096) (w.off % 4096 / 8 * 8) (wordWrite w.off w.size w.val) = some t) :
    ∃ sh, applyTrap s fn w = showing (trapCounted t fn) sh := by
  have hpages : ∃ ks : List Nat, applyTrap s fn w = ks.foldl buildPage (trapCounted t fn) := by
    refine ⟨((shownOn (w.off / 4096)).filter (· != 0)).filterMap (shadowKey (trapCounted t fn) fn) ++ [fn * 64], ?_⟩
    rw [List.foldl_append]
    simp only [applyTrap, h]
    rfl
  obtain ⟨ks, hks⟩ := hpages
  rw [hks]
  exact buildPages_showing ks _

/-- A function whose writes are trapped is one of the device's. -/
theorem canTrap_fn_lt {s : State} {fn : Nat} (h : canTrap s fn) : fn < s.fns.length := by
  obtain ⟨⟨-, -, -, hlt, -⟩, -, -, hfns⟩ := h
  omega

/-- A trapped write to a word that firmware does not refuse. -/
theorem barWrite_traps {s t : State} {fn off size val : Nat} (h : canTrap s fn)
    (ht : applyWord (trapTaken s fn) fn (off / 4096) (off % 4096 / 8 * 8) (wordWrite off size (val % 2 ^ (8 * size))) = some t) :
    ∃ sh, (barWrite s fn fun x => trapWrite x fn off size val) = showing (trapCounted t fn) sh := by
  have hfn := canTrap_fn_lt h
  obtain ⟨hwrite, hserve, htraps, -⟩ := h
  rw [barWrite_reaches _ hwrite, trapWrite_applies off size val hfn hserve htraps]
  exact applyTrap_applied ht

theorem fnOf_trapTaken {s : State} {fn : Nat} (h : fn < s.fns.length) :
    fnOf (trapTaken s fn) fn = { fnOf s fn with traps := [], trapAccepted := ((fnOf s fn).trapAccepted + 1) % 2 ^ 64 } :=
  fnOf_setFn_same s fn _ h

theorem fnOf_trapCounted {s : State} {fn : Nat} (h : fn < s.fns.length) :
    fnOf (trapCounted s fn) fn = { fnOf s fn with trapApplied := ((fnOf s fn).trapApplied + 1) % 2 ^ 64 } :=
  fnOf_setFn_same s fn _ h

theorem trapTaken_fns_length (s : State) (fn : Nat) : (trapTaken s fn).fns.length = s.fns.length := modifyAt_length ..

/-! ### The registers of page 3 (R146, R386, R563) -/

theorem applyWord_abort (s : State) (fn : Nat) (w : WordWrite) :
    applyWord s fn (0x3028 / 4096) (0x3028 % 4096 / 8 * 8) w = writeAbort s fn w := by
  simp [applyWord]

theorem applyWord_dispatchClr (s : State) (fn : Nat) (w : WordWrite) :
    applyWord s fn (0x3018 / 4096) (0x3018 % 4096 / 8 * 8) w = writeDispatchClr s fn w := by
  simp [applyWord]

/-- QUE_ABORT aborts the range from the function's first to the last written. -/
theorem writeAbort_range {s : State} {fn q last p : Nat} {w : WordWrite} (hdata : w.data = q * 2 ^ 55 + last) (hlast : last < 2 ^ 55)
    (hq : q < 256) (hqueue : queuePart s q = some p) (hfn : fnPart s fn = some p) (hle : (fnOf s fn).abortFirst ≤ last) :
    let y := abortRange s q (fnOf s fn).abortFirst last
    writeAbort s fn w = some (setAbortResult y.2.2 fn y.1 y.2.1) := by
  have htop : anySet w.data [(63, 1)] = false := by simp [anySet, fld, hdata]; omega
  have hfld : fld w.data 55 8 = q := by rw [hdata, fld]; omega
  have hlo : fld w.data 0 55 = last := by rw [hdata, fld]; omega
  simp [writeAbort, htop, hfld, hlo, hqueue, hfn, Nat.not_lt.2 hle]

/-- A write of 1 to QUE_DISPATCH_CLR clears the counters of the selected queue. -/
theorem writeDispatchClr_counts {s : State} {fn : Nat} {w : WordWrite} (hdata : w.data = 1)
    (h : seesQueue s fn (fnOf s fn).queSel = true) : writeDispatchClr s fn w = some (clearDispatch s (fnOf s fn).queSel) := by
  simp only [writeDispatchClr, hdata, h]
  rfl

/-- A write of 2 clears its error capture. -/
theorem writeDispatchClr_errors {s : State} {fn : Nat} {w : WordWrite} (hdata : w.data = 2)
    (h : seesQueue s fn (fnOf s fn).queSel = true) : writeDispatchClr s fn w = some (clearErrors s (fnOf s fn).queSel) := by
  simp only [writeDispatchClr, hdata, h]
  rfl

/-! ### Drill channels (R365, R367, R369, R370) -/

theorem channelNo_setChannel_same {s : State} {n : Nat} (f : Channel → Channel) (h : n < s.drill.length) :
    channelNo (setChannel s n f) n = f (channelNo s n) := modifyAt_getD_same f _ _ n h

theorem channelNo_setChannel_other (s : State) {n k : Nat} (f : Channel → Channel) (h : k ≠ n) :
    channelNo (setChannel s n f) k = channelNo s k := modifyAt_getD_other f _ _ h

/-- What firmware counts and shows is not on a channel. -/
theorem channelNo_shown (s : State) (fn n : Nat) (sh : List (Nat × ShadowPage)) :
    channelNo (showing (trapCounted s fn) sh) n = channelNo s n := rfl

/-- A channel that is disabled already stays as it is. -/
theorem disableChannel_disabled {s : State} {n : Nat} (h : (channelNo s n).disable = true) : disableChannel s n = s := if_pos h

/-- A disable drops what is on the channel, whatever becomes of the command that had it. -/
theorem channelNo_disableChannel {s : State} {n : Nat} (hn : n < s.drill.length) (h : (channelNo s n).disable = false) :
    (channelNo (disableChannel s n) n).disable = true ∧ (channelNo (disableChannel s n) n).st = .disabled
      ∧ (channelNo (disableChannel s n) n).store = [] ∧ (channelNo (disableChannel s n) n).crc = 0 := by
  have hdrill : ∃ f : Channel → Channel, (∀ c, (f c).disable = true ∧ (f c).st = .disabled ∧ (f c).store = [] ∧ (f c).crc = 0)
      ∧ (disableChannel s n).drill = (setChannel s n f).drill := by
    cases hcur : (channelNo s n).cur with
    | none =>
      simp only [disableChannel, h, Bool.false_eq_true, if_false, hcur]
      exact ⟨_, fun c => ⟨rfl, rfl, rfl, rfl⟩, rfl⟩
    | some q =>
      simp only [disableChannel, h, Bool.false_eq_true, if_false, hcur]
      exact ⟨_, fun c => ⟨rfl, rfl, rfl, rfl⟩, congrArg Prod.snd (edge_ite (edge_stopCmd ..) rfl)⟩
  obtain ⟨f, hf, hdrill⟩ := hdrill
  have hch : channelNo (disableChannel s n) n = f (channelNo s n) := by
    rw [← channelNo_setChannel_same f hn, channelNo, hdrill, channelNo]
  rw [hch]
  exact hf _

/-- What an enable makes of a channel (R370). -/
def channelEnabled (c : Channel) : Channel :=
  if c.part.isSome then { c with disable := false, st := if c.st == .disabled then .idle else c.st } else c

/-- What a resume makes of it (R365). -/
def channelResumed (c : Channel) : Channel := if c.st == .halted then { c with st := .idle } else c

/-- What clr_counts makes of it (R369). -/
def channelCleared (c : Channel) : Channel := { c with counts := noChCounts, loose := false }

theorem channelEnabled_bound {c : Channel} {p : Nat} (h : c.part = some p) :
    channelEnabled c = { c with disable := false, st := if c.st = .disabled then .idle else c.st } := by
  simp [channelEnabled, h]

theorem channelResumed_halted {c : Channel} (h : c.st = .halted) : channelResumed c = { c with st := .idle } := by
  simp [channelResumed, h]

theorem setChannel_setChannel (s : State) (n : Nat) (f g : Channel → Channel) :
    setChannel (setChannel s n g) n f = setChannel s n (f ∘ g) :=
  congrArg (fun cs => { s with drill := cs }) (modifyAt_modifyAt f g s.drill n)

theorem writeChannel_disable (s : State) (n : Nat) : writeChannel s n 1 = disableChannel s n := rfl
theorem writeChannel_enable (s : State) (n : Nat) : writeChannel s n 0 = setChannel s n channelEnabled := rfl

theorem writeChannel_resume (s : State) (n : Nat) : writeChannel s n 2 = setChannel s n (channelResumed ∘ channelEnabled) :=
  setChannel_setChannel s n channelResumed channelEnabled

theorem writeChannel_clear (s : State) (n : Nat) : writeChannel s n 4 = setChannel s n (channelEnabled ∘ channelCleared) :=
  setChannel_setChannel s n channelEnabled channelCleared

/-- The counters of a disabled channel are cleared while it stays so. -/
theorem writeChannel_clear_disabled {s : State} {n : Nat} (hn : n < s.drill.length) (h : (channelNo s n).disable = true) :
    writeChannel s n 5 = setChannel s n channelCleared :=
  disableChannel_disabled ((congrArg Channel.disable (channelNo_setChannel_same channelCleared hn)).trans h)

/-- A write of bits 2 to 0 of DRL_CH_CTRLn as it meets the register's word. -/
theorem wordWrite_chCtrl (n : Nat) {val : Nat} (hval : val < 8) :
    (wordWrite (chCtrlOff n) 4 (val % 2 ^ (8 * 4))).lo = true ∧ (wordWrite (chCtrlOff n) 4 (val % 2 ^ (8 * 4))).data = val := by
  have hoff : chCtrlOff n % 8 = 0 := by unfold chCtrlOff; omega
  constructor
  · simp [wordWrite, hoff]
  · simp [wordWrite, hoff]
    omega

/-- DRL_CH_CTRLn takes those bits from a function of the channel's partition. -/
theorem writeChCtrl_owned {s : State} {fn n p : Nat} {w : WordWrite} (hlo : w.lo = true) (hval : w.data < 8)
    (hp : (channelNo s n).part = some p) (hfn : fnPart s fn = some p) : writeChCtrl s fn n w = some (writeChannel s n w.data) := by
  have hset : anySet w.data [(8, 24), (3, 2), (35, 13)] = false := by simp [anySet, fld]; omega
  have hfld : fld w.data 0 32 = w.data := by rw [fld]; omega
  simp [writeChCtrl, hlo, hset, hfld, hp, hfn]

theorem applyWord_chCtrl {s : State} {fn n : Nat} (w : WordWrite) (hn : n < 16) :
    applyWord s fn (chCtrlOff n / 4096) (chCtrlOff n % 4096 / 8 * 8) w = writeChCtrl s fn n w := by
  have hpage : chCtrlOff n / 4096 = 11 := by unfold chCtrlOff; omega
  have hword : chCtrlOff n % 4096 / 8 * 8 = 0x100 + 0x40 * n := by unfold chCtrlOff; omega
  have hin : 0x100 ≤ 0x100 + 0x40 * n ∧ 0x100 + 0x40 * n < 0x500 ∧ (0x100 + 0x40 * n) % 0x40 = 0 := by omega
  have hno : (0x100 + 0x40 * n - 0x100) / 0x40 = n := by omega
  rw [hpage, hword]
  simp only [applyWord, if_pos hin, hno]

/-- A write to DRL_CH_CTRLn comes to the channel. -/
theorem channelWrite_writes {s : State} {fn n p val : Nat} (h : canTrap s fn) (hn : n < 16) (hval : val < 8)
    (hp : (channelNo s n).part = some p) (hfn : fnPart s fn = some p) :
    ∃ sh, channelWrite s fn n val = showing (trapCounted (writeChannel (trapTaken s fn) n val) fn) sh := by
  rw [channelWrite, if_pos hn]
  obtain ⟨hlo, hdata⟩ := wordWrite_chCtrl n hval
  have hword := writeChCtrl_owned (s := trapTaken s fn) hlo (hdata.trans_lt hval) hp hfn
  rw [hdata] at hword
  exact barWrite_traps h ((applyWord_chCtrl _ hn).trans hword)

/-- DRILL_CHANNEL_RESUME writes resume, with disable as it stands. -/
theorem exec_drillChannelResume_writes {s : State} {n : Nat} {d : Bool} (fn : Nat) (hd : (channelNo s n).disable = d) :
    exec (.drillChannelResume fn n) s = .next (channelWrite s fn n (2 + bit d 0)) :=
  congrArg (fun d => Host.Outcome.next (channelWrite s fn n (2 + bit d 0))) hd

/-- DRILL_CLR_COUNTS writes clr_counts, with disable as it stands. -/
theorem exec_drillClrCounts_writes {s : State} {n : Nat} {d : Bool} (fn : Nat) (hd : (channelNo s n).disable = d) :
    exec (.drillClrCounts fn n) s = .next (channelWrite s fn n (4 + bit d 0)) :=
  congrArg (fun d => Host.Outcome.next (channelWrite s fn n (4 + bit d 0))) hd

/-! ### What the writes make of the state -/

/-- QUE_ABORT: the queues as the abort leaves them, its status and count in the function's result. -/
theorem exec_queAbort {s : State} {fn q last p : Nat} (h : canTrap s fn) (hlast : last < 2 ^ 55) (hq : q < 256)
    (hqueue : queuePart s q = some p) (hfn : fnPart s fn = some p) (hle : (fnOf s fn).abortFirst ≤ last) :
    ∃ t, exec (.queAbort fn (q * 2 ^ 55 + last)) s = .next t
      ∧ (let y := abortRange (trapTaken s fn) q (fnOf s fn).abortFirst last
        t.queues = y.2.2.queues ∧ (fnOf t fn).abortResult = putFld (statusCode y.1) 0 16 + putFld y.2.1 16 32) := by
  have hlt := canTrap_fn_lt h
  have hfirst : (fnOf (trapTaken s fn) fn).abortFirst = (fnOf s fn).abortFirst := by rw [fnOf_trapTaken hlt]
  have hdata : (wordWrite 0x3028 8 ((q * 2 ^ 55 + last) % 2 ^ (8 * 8))).data = q * 2 ^ 55 + last := by simp [wordWrite]; omega
  have hword := writeAbort_range (s := trapTaken s fn) hdata hlast hq hqueue hfn (hfirst ▸ hle)
  rw [hfirst] at hword
  have hfns := congrArg Prod.fst (edge_abortRange (trapTaken s fn) q (fnOf s fn).abortFirst last)
  generalize abortRange (trapTaken s fn) q (fnOf s fn).abortFirst last = y at hword hfns ⊢
  have hkept : fn < y.2.2.fns.length := by
    rw [show y.2.2.fns = (trapTaken s fn).fns from hfns, trapTaken_fns_length]
    exact hlt
  obtain ⟨sh, hsh⟩ := barWrite_traps (off := 0x3028) (size := 8) h ((applyWord_abort ..).trans hword)
  refine ⟨_, congrArg Host.Outcome.next hsh, rfl, ?_⟩
  have hresult : fnOf (setAbortResult y.2.2 fn y.1 y.2.1) fn = _ := fnOf_setFn_same y.2.2 fn _ hkept
  show (fnOf (trapCounted (setAbortResult y.2.2 fn y.1 y.2.1) fn) fn).abortResult = _
  rw [fnOf_trapCounted (by simpa [setAbortResult] using hkept), hresult]

section
variable {s : State} {fn : Nat} (h : canTrap s fn) (hsees : seesQueue s fn (fnOf s fn).queSel = true)
  (hq : (fnOf s fn).queSel < s.queues.length)
include h hsees hq

/-- A write to QUE_DISPATCH_CLR that firmware makes a change `f` of the selected queue. -/
theorem exec_clears {i : Instr} {val : Nat} {f : Queue → Queue} (hi : exec i s = .next (rowWrite s fn 0x3018 val))
    (hword : ∀ x, seesQueue x fn (fnOf x fn).queSel = true →
      writeDispatchClr x fn (wordWrite 0x3018 8 (val % 2 ^ (8 * 8))) = some (setQueue x (fnOf x fn).queSel f)) :
    ∃ t, exec i s = .next t ∧ queueOf t (fnOf s fn).queSel = f (queueOf s (fnOf s fn).queSel)
      ∧ (∀ r, r ≠ (fnOf s fn).queSel → queueOf t r = queueOf s r) ∧ t.mem = s.mem
      ∧ (fnOf t fn).trapApplied = ((fnOf s fn).trapApplied + 1) % 2 ^ 64 := by
  have hlt := canTrap_fn_lt h
  have hsel : (fnOf (trapTaken s fn) fn).queSel = (fnOf s fn).queSel := by rw [fnOf_trapTaken hlt]
  have hset := hword (trapTaken s fn) (by rw [hsel]; exact hsees)
  rw [hsel] at hset
  obtain ⟨sh, hsh⟩ := barWrite_traps (off := 0x3018) (size := 8) h ((applyWord_dispatchClr ..).trans hset)
  refine ⟨_, hi.trans (congrArg _ hsh), queueOf_setQueue_same (trapTaken s fn) _ f hq,
    fun r hr => queueOf_setQueue_other (trapTaken s fn) f hr, rfl, ?_⟩
  have hcounted := fnOf_trapCounted (s := setQueue (trapTaken s fn) (fnOf s fn).queSel f) (fn := fn)
    ((trapTaken_fns_length s fn).symm ▸ hlt)
  have htaken : fnOf (setQueue (trapTaken s fn) (fnOf s fn).queSel f) fn = _ := fnOf_trapTaken hlt
  show (fnOf (trapCounted (setQueue (trapTaken s fn) (fnOf s fn).queSel f) fn) fn).trapApplied = _
  rw [hcounted, htaken]

end

section
variable {s : State} {fn n p : Nat} (h : canTrap s fn) (hn : n < 16) (hp : (channelNo s n).part = some p) (hfn : fnPart s fn = some p)
  (hdrill : s.drill.length = 16)
include h hn hp hfn hdrill

/-- A disabled channel, of which nothing is left if it was not disabled before. -/
theorem exec_drillChannelDisable : ∃ t, exec (.drillChannelDisable fn n) s = .next t ∧ (channelNo t n).disable = true
    ∧ ((channelNo s n).disable = false →
      (channelNo t n).st = .disabled ∧ (channelNo t n).store = [] ∧ (channelNo t n).crc = 0) := by
  have hlt : n < (trapTaken s fn).drill.length := hdrill ▸ hn
  obtain ⟨sh, hsh⟩ := channelWrite_writes (val := 1) h hn (by decide) hp hfn
  rw [writeChannel_disable] at hsh
  refine ⟨_, congrArg Host.Outcome.next hsh, ?_⟩
  rw [channelNo_shown]
  cases hd : (channelNo s n).disable with
  | true =>
    rw [disableChannel_disabled (s := trapTaken s fn) hd]
    exact ⟨hd, nofun⟩
  | false =>
    obtain ⟨hdis, hrest⟩ := channelNo_disableChannel (s := trapTaken s fn) hlt hd
    exact ⟨hdis, fun _ => hrest⟩

/-- A write that makes a change `f` of the channel alone. -/
theorem exec_changesChannel {i : Instr} {val : Nat} {f : Channel → Channel} (hval : val < 8)
    (hi : exec i s = .next (channelWrite s fn n val))
    (hf : writeChannel (trapTaken s fn) n val = setChannel (trapTaken s fn) n f) :
    ∃ t, exec i s = .next t ∧ channelNo t n = f (channelNo s n) ∧ (∀ k, k ≠ n → channelNo t k = channelNo s k)
      ∧ t.queues = s.queues ∧ t.mem = s.mem := by
  obtain ⟨sh, hsh⟩ := channelWrite_writes h hn hval hp hfn
  rw [hf] at hsh
  exact ⟨_, hi.trans (congrArg _ hsh), channelNo_setChannel_same (s := trapTaken s fn) f (hdrill ▸ hn),
    fun k hk => channelNo_setChannel_other (trapTaken s fn) f hk, rfl, rfl⟩

end

/-- Settles O31: each write is the change that its word makes, after firmware has taken it and before it counts it. -/
theorem queueAndChannelWrites : Obligations.QueueAndChannelWrites := by
  refine ⟨fun s fn h => ⟨fun q last p hlast hq hqueue hfn hle => exec_queAbort h hlast hq hqueue hfn hle,
      fun hsees hq => ⟨?counts, ?errors⟩⟩,
    fun s fn n p h hn hp hfn hdrill => ⟨exec_drillChannelDisable h hn hp hfn hdrill, ?enable, fun hd hst => ?resume, ?clear⟩⟩
  case counts => exact exec_clears h hsees hq rfl fun x hx => writeDispatchClr_counts (by decide) hx
  case errors =>
    obtain ⟨t, ht, hqueue, hother, hmem, -⟩ := exec_clears h hsees hq (i := .queErrorsClear fn) rfl
      fun x hx => writeDispatchClr_errors (by decide) hx
    exact ⟨t, ht, hqueue, hother, hmem⟩
  case enable =>
    obtain ⟨t, ht, hch, hrest⟩ := exec_changesChannel h hn hp hfn hdrill (i := .drillChannelEnable fn n) (by decide) rfl
      (writeChannel_enable _ n)
    rw [channelEnabled_bound hp] at hch
    exact ⟨t, ht, congrArg Channel.disable hch, congrArg Channel.st hch, hrest⟩
  case resume =>
    obtain ⟨t, ht, hch, hrest⟩ := exec_changesChannel h hn hp hfn hdrill (by decide) (exec_drillChannelResume_writes fn hd)
      (writeChannel_resume _ n)
    have hhalted : (channelEnabled (channelNo s n)).st = .halted := by simp [channelEnabled_bound hp, hst]
    rw [Function.comp_apply, channelResumed_halted hhalted] at hch
    exact ⟨t, ht, congrArg Channel.st hch, hrest⟩
  case clear =>
    cases hd : (channelNo s n).disable with
    | false =>
      obtain ⟨t, ht, hch, hrest⟩ := exec_changesChannel h hn hp hfn hdrill (by decide) (exec_drillClrCounts_writes fn hd)
        (writeChannel_clear _ n)
      rw [Function.comp_apply, channelEnabled_bound (c := channelCleared (channelNo s n)) hp] at hch
      exact ⟨t, ht, congrArg Channel.counts hch, congrArg Channel.disable hch, hrest⟩
    | true =>
      obtain ⟨t, ht, hch, hrest⟩ := exec_changesChannel h hn hp hfn hdrill (by decide) (exec_drillClrCounts_writes fn hd)
        (writeChannel_clear_disabled (s := trapTaken s fn) (hdrill ▸ hn) hd)
      exact ⟨t, ht, congrArg Channel.counts hch, (congrArg Channel.disable hch).trans hd, hrest⟩

end Sys2Proof.Machine
end

section
/-! The recurrent commands and attention once they start on their streams (R207, R216, R224, R265, R271): what waits in CHECK, what
opens at stage B, and what is computed behind the window fence. -/

namespace Sys2Proof.Machine

/-! ### The result of a command whose outputs are valid (R92) -/

theorem completedResult_isDone (ev : NumEvent) (stall : Option Nat) (recompute : Option (Nat × Nat)) (work : Nat) :
    isDone (completedResult ev stall recompute work).status = true := by
  cases ev with
  | none =>
    cases stall with
    | some ns => exact (by decide : isDone .completedWindowStall = true)
    | none =>
      cases recompute with
      | some r => exact (by decide : isDone .completedRecompute = true)
      | none => exact (by decide : isDone .completed = true)
  | saturated => exact (by decide : isDone .numSaturated = true)
  | inf => exact (by decide : isDone .numInfOut = true)
  | nan => exact (by decide : isDone .numNanOut = true)

theorem completedResult_work (ev : NumEvent) (stall : Option Nat) (recompute : Option (Nat × Nat)) (work : Nat) :
    (completedResult ev stall recompute work).work = work := by
  unfold completedResult
  cases ev with
  | none => cases stall <;> cases recompute <;> rfl
  | _ => rfl

/-! ### SCAN_LINEAR (R218 to R228) -/

/-- A SCAN_LINEAR that no other command or transit keeps from its streams starts. -/
theorem exec_scanLinear_starts {s : State} {q : Nat} {Q : Queue} {c : Cmd} (h : starts s q 0x110 checksScanLinear Q c)
    (hw : (lResident c.body && recurWaits s q 384 (lSeqs c.body)) = false) :
    exec (.scanLinear q) s = .next (startScanLinear (running s q c) q Q c) := by
  obtain ⟨rfl, hcmd, -⟩ := inCheck_some h.1
  have hrun : execScanLinear q s = .next (runCommand s q 0x110 checksScanLinear fun st Q c => startScanLinear st q Q c) := by
    simp only [execScanLinear, hcmd, hw, Bool.false_eq_true, if_false]
  exact hrun.trans (congrArg _ (runCommand_starts _ h))

/-- The state in which SCAN_LINEAR stands at the window fence: its scratch charged, its grid open, its streams named. -/
def scanAtFence (x : State) (q p b : Nat) (list : List Nat) : State :=
  let g := { harrowGrid (lItems b) with scan := if lSequential b then 0 else lChunks b }
  setCmd (openWork (charge x p (lUnits b) 0) q (newWork x p g)) q fun y =>
    { y with outs := lOuts b, streams := if lResident b then list else [], chargeLoam := lUnits b, loaded := list }

theorem startScanLinear_opens {x : State} {q : Nat} {Q : Queue} {c : Cmd} {list : List Nat} (hnone : lList c.body = 0 → list = [])
    (hread : lList c.body ≠ 0 → readList x Q.cfg.part c.body 384 (lSeqs c.body) = .ok (some list)) :
    startScanLinear x q Q c
      = gated (scanAtFence x q Q.cfg.part c.body list) q Q.cfg.part (lReads c.body) fun st => computeScanLinear st q := by
  by_cases hl : lList c.body = 0
  · simp only [startScanLinear, if_pos hl, hnone hl, scanAtFence]
  · simp only [startScanLinear, if_neg hl, hread hl, scanAtFence]

/-- The identifier of sequence `i`: its entry in the list, or its number where there is no list. -/
def scanIdent (b : Nat) (list : List Nat) (i : Nat) : Nat := if lList b = 0 then i else list.getD i 0

/-- Every sequence scanned: its number, its rows and its final state. -/
def scanRuns (y : State) (p b : Nat) (seed : Option W128) (list : List Nat) : Except Fail (List (Nat × List OutRow × List FV)) :=
  (List.range (lSeqs b)).mapM fun i => do
    let (rows, h) ← scanSequence y p b seed i (scanIdent b list i)
    pure (i, rows, h)

/-- The rows that a scan writes: those of its steps, and its final states where it has a place for them. -/
def scanRows (b : Nat) (seed : Option W128) (list : List Nat) (rs : List (Nat × List OutRow × List FV)) : List OutRow :=
  rs.flatMap (·.2.1) ++ (if lHTUsed b then rs.map fun (i, _, h) => scanFinalRow b seed i (scanIdent b list i) h else [])

/-- The states that a scan writes back to its streams. -/
def scanAdvances (y : State) (p b : Nat) (seed : Option W128) (list : List Nat) (rs : List (Nat × List OutRow × List FV)) : List Advance :=
  if lWriteBack b then rs.filterMap fun (i, _, h) => scanAdvance y p b seed (scanIdent b list i) h else []

/-- A scan whose streams still hold their states, whose sequences can be scanned and whose rows can be stored completes. -/
theorem computeScanLinear_rows {y t : State} {q p b : Nat} {e : Cmd} {list ids : List Nat} {rs : List (Nat × List OutRow × List FV)}
    (h : Computes y q p e b) (hlist : e.loaded = list) (hids : e.streams = ids)
    (hkept : lResident b = true → lostStream y p (lSlot b) ids = none) (hrs : scanRuns y p b e.seed list = .ok rs)
    (ht : storeAll y p q (outWrites (scanRows b e.seed list rs)) = .ok t) :
    ∃ ev, computeScanLinear y q = setResult (recurStates t p (lSlot b) (scanAdvances y p b e.seed list rs)) q
      (completedResult ev none none (lItems b)) := by
  have hlost : (if lResident b then lostStream y p (lSlot b) ids else none) = none := ite_eq_right_iff.2 hkept
  simp only [computeScanLinear, h.cmd, h.part, h.body, hids, hlist, hlost]
  split
  next heq => cases heq
  next herr => cases hrs.symm.trans herr
  next hok =>
    cases hrs.symm.trans hok
    split
    next herr => cases ht.symm.trans herr
    next hst =>
      cases ht.symm.trans hst
      exact ⟨_, rfl⟩

/-! ### RECUR_CELL (R213 to R217, R227, R228) -/

theorem exec_recurCell_starts {s : State} {q : Nat} {Q : Queue} {c : Cmd} (h : starts s q 0x111 checksRecurCell Q c)
    (hw : recurWaits s q 320 (rCount c.body) = false) :
    exec (.recurCell q) s = .next (startRecurCell (running s q c) q Q c) := by
  obtain ⟨rfl, hcmd, -⟩ := inCheck_some h.1
  have hrun : execRecurCell q s = .next (runCommand s q 0x111 checksRecurCell fun st Q c => startRecurCell st q Q c) := by
    simp only [execRecurCell, hcmd, hw, Bool.false_eq_true, if_false]
  exact hrun.trans (congrArg _ (runCommand_starts _ h))

/-- The state in which RECUR_CELL stands at the window fence: an item for each group, bound to the engine that holds its granules. -/
def cellAtFence (x : State) (q p b : Nat) (ids : List Nat) (rc : Record) : State :=
  let groups := recurGroups x (rSlot b) (cohortsOf x ids)
  let w := newWork x p (recurGrid (groups.map (·.2.2.length)) (rLive b rc) (rGates b) (rPasses (partOf x p).cfg.zg40 b))
  setCmd (openWork x q { w with bound := (List.range groups.length).zip groups |>.map fun (i, g) => (g.2.1, i) }) q fun y =>
    { y with outs := rowSpans (fld b 128 48) (rOutRow b) (rCount b) (rowBytes (recFmt rc) rc.n), streams := ids }

theorem startRecurCell_opens {x : State} {q : Nat} {Q : Queue} {c : Cmd} {ids : List Nat} {rc : Record}
    (hids : namedStreams x Q.cfg.part c.hdr c.body 320 (rCount c.body) = .ok (some ids))
    (hrc : firstRecord x Q.cfg.part (rSlot c.body) ids = some rc) :
    startRecurCell x q Q c
      = gated (cellAtFence x q Q.cfg.part c.body ids rc) q Q.cfg.part (rReads c.body rc.n) fun st => computeRecurCell st q := by
  simp only [startRecurCell, hids, hrc]
  rfl

/-- Every entry of the list stepped once. -/
def cellSteps (y : State) (p b : Nat) (seed : Option W128) (ws : List (List FV)) (bias : List FV) (ids : List Nat) :
    Except Fail (List (Nat × Option Advance)) :=
  ((List.range ids.length).zip ids).mapM fun (r, id) => do
    let a ← recurEntry y p b seed ws bias r id
    pure (r, a)

/-- What RECUR_CELL makes of its entries: those whose record stands. -/
def cellAdvances (y : State) (p b : Nat) (seed : Option W128) (ids : List Nat) (rc : Record) : Except Fail (List (Nat × Advance)) := do
  let ws ← rWeights y p b rc.n
  let bias ← rBiases y p b rc.n
  let xs ← cellSteps y p b seed ws bias ids
  pure (xs.filterMap fun (r, a) => a.map fun v => (r, v))

theorem cellAdvances_ok {y : State} {p b : Nat} {seed : Option W128} {ids : List Nat} {rc : Record} {ws : List (List FV)} {bias : List FV}
    {adv : List (Nat × Advance)} (hws : rWeights y p b rc.n = .ok ws) (hbias : rBiases y p b rc.n = .ok bias)
    (hsteps : cellSteps y p b seed ws bias ids = .ok (adv.map fun (r, a) => (r, some a))) :
    cellAdvances y p b seed ids rc = .ok adv := by
  have hall : (adv.map fun (r, a) => (r, some a)).filterMap (fun (r, a) => a.map fun v => (r, v)) = adv :=
    (List.filterMap_map ..).trans List.filterMap_some
  calc cellAdvances y p b seed ids rc
      = .ok ((adv.map fun (r, a) => (r, some a)).filterMap fun (r, a) => a.map fun v => (r, v)) := by
        simp only [cellAdvances, hws, hbias, hsteps, bind, pure, Except.bind, Except.pure]
    _ = .ok adv := congrArg _ hall

/-- A step of a cell whose streams still hold their states and whose rows can be stored completes, with the new states written. -/
theorem computeRecurCell_rows {y t : State} {q p b : Nat} {e : Cmd} {ids : List Nat} {rc : Record} {adv : List (Nat × Advance)}
    (h : Computes y q p e b) (hids : e.streams = ids) (hkept : lostStream y p (rSlot b) ids = none)
    (hrc : firstRecord y p (rSlot b) ids = some rc) (hadv : cellAdvances y p b e.seed ids rc = .ok adv)
    (ht : storeAll y p q (outWrites (recurRows b adv)) = .ok t) :
    computeRecurCell y q = setResult (recurStates t p (rSlot b) (adv.map (·.2))) q
      (completedResult (outEvent (recurRows b adv)) (weightStall y p e (fld b 192 48)) none
        ((recurGroups y (rSlot b) (cohortsOf y ids)).length * rLive b rc)) := by
  simp only [computeRecurCell, h.cmd, h.part, h.body, hids, hkept, hrc]
  split
  next herr => cases hadv.symm.trans herr
  next hok =>
    cases hadv.symm.trans hok
    simp only [ht]

/-! ### ATTEND (R259 to R274) -/

theorem exec_attend_starts {s : State} {q : Nat} {Q : Queue} {c : Cmd} (h : starts s q 0x120 checksAttend Q c)
    (hw : attendWaits s q = false) : exec (.attend q) s = .next (startAttend (running s q c) q Q c) := by
  have hrun : execAttend q s = .next (runCommand s q 0x120 checksAttend fun st Q c => startAttend st q Q c) := by
    simp only [execAttend, hw, Bool.false_eq_true, if_false]
  exact hrun.trans (congrArg _ (runCommand_starts _ h))

/-- The state in which ATTEND stands at the window fence: what its streams need of the pool reserved, its grid open. -/
def attendAtFence (x : State) (q p b : Nat) (K : Pool) (ids : List Nat) : State :=
  let need := attendNeeds x K b ids
  setCmd (openWork x q { newWork x p (attendGrid b K) with after := attendAfter b K }) q fun y =>
    { y with outs := aOuts b K, streams := ids, reserved := [(aPool b, need.1), (aPool b + 8, need.2.1), (aPool b + 16, need.2.2)] }

theorem startAttend_opens {x : State} {q : Nat} {Q : Queue} {c : Cmd} {K : Pool} {ids : List Nat}
    (hK : poolOf x Q.cfg.part (aPool c.body) = some K)
    (hids : namedStreams x Q.cfg.part c.hdr c.body 320 (aStreams c.body) = .ok (some ids)) :
    startAttend x q Q c
      = gated (attendAtFence x q Q.cfg.part c.body K ids) q Q.cfg.part (aReads c.body K) fun st => computeAttend st q := by
  simp only [startAttend, hK, hids, attendAtFence]

/-- The columns of W. -/
def attendWeights (y : State) (p b : Nat) (K : Pool) : Except Fail (List (List FV)) :=
  (List.range (aCols K)).mapM fun i => loadRow y p (fmtOf (aFmtW b)) (fld b 192 48 + i * aWCol b) K.inDim

/-- An evaluation without a bias. -/
def attendCtx (y : State) (q p b : Nat) (e : Cmd) (K : Pool) (ws : List (List FV)) : AttendCtx :=
  { p := p, q := q, b := b, k := aPool b, ws := ws, bias := List.replicate (aCols K) pzero, us := (e.start.getD y.now) / 1000,
    seed := e.seed }

/-- Phase 1 of every stream, then the attention of every stream. -/
def attendAll (cx : AttendCtx) (y : State) (ids : List Nat) : Kv × List OutRow :=
  let entries := (List.range ids.length).zip ids
  entries.foldl (fun v (r, id) => attendStream cx v r id)
    (entries.foldl (fun v (r, id) => appendStream cx v r id)
      { s := y, fail := none, rebuilt := 0, ns := 0, appends := [], rows := [], slots := 0, ids := 0, ev := .none }, [])

/-- What the evaluation appends is kept with the command, and what it has taken of pool `k` is reserved no longer. -/
def attendKept (x : Kv) (q k : Nat) : State :=
  setCmd x.s q fun y => { y with
    appends := x.appends
    reserved := y.reserved.map fun r => (r.1, r.2 - (if r.1 = k then x.slots else if r.1 = k + 8 then x.ids else 0)) }

/-- An evaluation that does not fail and whose rows can be stored completes. -/
theorem computeAttend_rows {y t : State} {q p b : Nat} {e : Cmd} {ids : List Nat} {K : Pool} {ws : List (List FV)} {a : Kv × List OutRow}
    (h : Computes y q p e b) (hids : e.streams = ids) (hK : poolOf y p (aPool b) = some K) (hbias : aBias b = 0)
    (hws : attendWeights y p b K = .ok ws) (ha : attendAll (attendCtx y q p b e K ws) y ids = a) (hfail : a.1.fail = none)
    (ht : storeAll (attendKept a.1 q (aPool b)) p q (outWrites a.2) = .ok t) :
    ∃ ev stall recompute, computeAttend y q = setResult t q (completedResult ev stall recompute (aItems b K)) := by
  subst ha
  simp only [attendWeights] at hws
  simp only [computeAttend, h.cmd, h.part, h.body, hids, hK, if_pos hbias, hws]
  split
  next herr => cases hfail.symm.trans herr
  next =>
    split
    next herr => cases ht.symm.trans herr
    next hst =>
      cases ht.symm.trans hst
      exact ⟨_, _, _, rfl⟩

/-! ### The statement -/

/-- Settles O12: each command is its start on the streams that it names, and then what it computes behind the fence. -/
theorem streamComputeStarts : Obligations.StreamComputeStarts := by
  intro s q Q c b p x
  refine ⟨fun h hw list hnone hread => ?scanLinear, fun h hw ids rc hids hrc => ?recurCell, fun h hw K ids hK hids => ?attend⟩
  case scanLinear =>
    have hstart : exec (.scanLinear q) s = .next (gated (scanAtFence x q p b list) q p (lReads b) fun st => computeScanLinear st q) :=
      (exec_scanLinear_starts h hw).trans (congrArg _ (startScanLinear_opens hnone hread))
    refine ⟨hstart, ?_⟩
    intro y e rs t hthrough hb hlist hids ident hkept hrs rows ht
    obtain ⟨ev, hv⟩ := computeScanLinear_rows (computes_of_reads hthrough hb) hlist hids hkept hrs ht
    refine ⟨_, _, computes_of_gated hstart hthrough hv, completedResult_isDone .., completedResult_work .., fun hback => ?_⟩
    have hadv : scanAdvances y p b e.seed list rs = [] := if_neg (Bool.eq_false_iff.1 hback)
    rw [hadv]
  case recurCell =>
    have hstart : exec (.recurCell q) s
        = .next (gated (cellAtFence x q p b ids rc) q p (rReads b rc.n) fun st => computeRecurCell st q) :=
      (exec_recurCell_starts h hw).trans (congrArg _ (startRecurCell_opens hids hrc))
    exact ⟨hstart, fun y e ws bias adv t hthrough hb hstreams hkept hfirst hws hbias hsteps ht =>
      computes_of_gated hstart hthrough
        (computeRecurCell_rows (computes_of_reads hthrough hb) hstreams hkept hfirst (cellAdvances_ok hws hbias hsteps) ht)⟩
  case attend =>
    have hstart : exec (.attend q) s = .next (gated (attendAtFence x q p b K ids) q p (aReads b K) fun st => computeAttend st q) :=
      (exec_attend_starts h hw).trans (congrArg _ (startAttend_opens hK hids))
    refine ⟨hstart, ?_⟩
    intro y e ws hthrough hb hstreams hpool hbias hws cx entries a hfail t ht
    obtain ⟨ev, stall, recompute, hv⟩ := computeAttend_rows (computes_of_reads hthrough hb) hstreams hpool hbias hws rfl hfail ht
    exact ⟨_, computes_of_gated hstart hthrough hv, completedResult_isDone .., completedResult_work ..⟩

end Sys2Proof.Machine
end

section
/-! FRAME. What an image's bytes, reads of lines, and moves of streams leave: the stream table where they only read or write lines, and
everywhere the states of the queues. -/

namespace Sys2Proof.Machine

/-! ### The states of the queues -/

/-- The state of every queue, in order. -/
def queueStates (s : State) : List QState := s.queues.map (·.state)

theorem queueOf_state_of_queueStates {s t : State} (h : queueStates t = queueStates s) (q : Nat) :
    (queueOf t q).state = (queueOf s q).state := by
  have hstate (u : State) : (queueOf u q).state = (queueStates u).getD q noQueue.state := (List.getD_map u.queues noQueue Queue.state).symm
  rw [hstate, hstate, h]

theorem queues_length_of_queueStates {s t : State} (h : queueStates t = queueStates s) : t.queues.length = s.queues.length := by
  simpa [queueStates] using congrArg List.length h

/-- A change of one queue that leaves its state leaves those of all. -/
theorem map_modifyAt {α β : Type} {f : α → α} {g : α → β} (h : ∀ x, g (f x) = g x) : ∀ (xs : List α) (i : Nat),
    (modifyAt i f xs).map g = xs.map g
  | [], i => by simp [modifyAt]
  | x :: xs, 0 => by simp [modifyAt, h]
  | x :: xs, i + 1 => by simp [modifyAt, map_modifyAt h xs i]

theorem queueStates_setQueue {s : State} (q : Nat) {f : Queue → Queue} (h : ∀ Q, (f Q).state = Q.state) :
    queueStates (setQueue s q f) = queueStates s := map_modifyAt h _ _

theorem queueStates_setCmd (s : State) (q : Nat) (f : Cmd → Cmd) : queueStates (setCmd s q f) = queueStates s :=
  queueStates_setQueue q fun _ => rfl

/-- The stream table beside the states of the queues. -/
def standing (s : State) : List (Nat × Stream) × List QState := (s.streams, queueStates s)

theorem streamOf_of_standing {s t : State} (h : standing t = standing s) (id : Nat) : streamOf t id = streamOf s id :=
  congrArg (lookupKey id) (congrArg Prod.fst h)

theorem queueStates_of_standing {s t : State} (h : standing t = standing s) : queueStates t = queueStates s := congrArg Prod.snd h

/-- A fold of steps that each leave some part of the state leaves it. -/
theorem frame_foldl {α β γ : Type} {view : β → γ} {f : β → α → β} (hf : ∀ x a, view (f x a) = view x) : ∀ (xs : List α) (x : β),
    view (xs.foldl f x) = view x
  | [], _ => rfl
  | a :: xs, x => (frame_foldl hf xs (f x a)).trans (hf x a)

theorem frame_foldlM {α γ : Type} {view : State → γ} {f : State → α → Except Fail State}
    (hf : ∀ {s t a}, f s a = .ok t → view t = view s) : ∀ {xs : List α} {s t : State}, xs.foldlM f s = .ok t → view t = view s
  | [], _, _, h => by cases h; rfl
  | a :: xs, s, t, h => by
    rw [List.foldlM_cons] at h
    cases ha : f s a with
    | error e => rw [ha] at h; cases h
    | ok u => rw [ha] at h; exact (frame_foldlM hf h).trans (hf ha)

theorem standing_setCmd (s : State) (q : Nat) (f : Cmd → Cmd) : standing (setCmd s q f) = standing s :=
  congrArg (s.streams, ·) (queueStates_setCmd s q f)

/-! ### Writes of lines -/

theorem standing_keyLine (s : State) (line : Nat) : standing (keyLine s line) = standing s := by
  unfold keyLine
  split <;> rfl

theorem standing_putPhys (s : State) (a : Nat) (bs : List Byte) : standing (putPhys s a bs) = standing s := standing_keyLine ..

theorem standing_poisonCmds (s : State) (e : WcbEntry) : standing (poisonCmds s e) = standing s :=
  frame_foldl (fun x q => standing_setCmd x q _) _ _

theorem standing_drainEntry (s : State) (e : WcbEntry) : standing (drainEntry s e) = standing s := by
  unfold drainEntry
  dsimp only
  split
  · exact standing_poisonCmds ..
  · split
    · exact standing_keyLine ..
    · exact standing_keyLine ..

theorem standing_drainOldest (s : State) (p : Nat) : standing (drainOldest s p) = standing s := by
  unfold drainOldest
  split
  · rfl
  · exact standing_drainEntry ..

theorem standing_wcbMerge (s : State) (p q a : Nat) (bs : List Byte) : standing (wcbMerge s p q a bs) = standing s := by
  unfold wcbMerge
  dsimp only
  split
  · split
    · split
      · exact standing_drainEntry ..
      · rfl
    · exact standing_drainEntry ..
  · split
    · exact standing_drainOldest ..
    · rfl

theorem standing_physStoreLine {s t : State} {p q a : Nat} {bs : List Byte} (h : physStoreLine s p q a bs = .ok t) :
    standing t = standing s := by
  unfold physStoreLine at h
  dsimp only at h
  split at h
  · split at h <;> cases h
    · exact standing_putPhys ..
    · exact standing_wcbMerge ..
  · split at h <;> cases h
    exact standing_putPhys ..

theorem standing_physStore {s t : State} {p q a : Nat} {bs : List Byte} (h : physStore s p q a bs = .ok t) : standing t = standing s :=
  frame_foldlM standing_physStoreLine h

theorem standing_storeHome {s t : State} {p q va : Nat} {bs : List Byte} (h : storeHome s p q va bs = .ok t) : standing t = standing s := by
  unfold storeHome at h
  split at h
  · cases h
  · exact standing_physStoreLine h
  · cases h; rfl
  · cases h; rfl
  · cases h

theorem standing_storeLine {s t : State} {p q va : Nat} {bs : List Byte} (h : storeLine s p q va bs = .ok t) : standing t = standing s := by
  unfold storeLine at h
  split at h
  · cases h; rfl
  · exact standing_storeHome h

theorem standing_storeBytes {s t : State} {p q va : Nat} {bs : List Byte} (h : storeBytes s p q va bs = .ok t) : standing t = standing s :=
  frame_foldlM standing_storeLine h

theorem standing_storeOnce {s t : State} {p q va : Nat} {bs : List Byte} (h : storeOnce s p q va bs = .ok t) : standing t = standing s := by
  unfold storeOnce at h
  split at h <;> cases h
  next h => exact (standing_storeBytes h :)

theorem standing_havoc (s : State) (p q : Nat) (spans : List (Nat × Nat)) : standing (havoc s p q spans) = standing s := by
  refine frame_foldl (fun x a => ?_) _ _
  dsimp only
  split
  · next h => exact (standing_storeBytes h :)
  · rfl

/-! ### Reads of lines, and the points that they fire (R334, R529) -/

theorem standing_raiseEventFn (s : State) (bit fn : Nat) : standing (raiseEventFn s bit fn) = standing s := by
  unfold raiseEventFn raiseMsix
  split
  · rfl
  · split
    · rfl
    · split <;> rfl

theorem standing_raiseFenced (s : State) (u : FailUnit) : standing (raiseFenced s u) = standing s :=
  frame_foldl (fun x fn => standing_raiseEventFn x 4 fn) _ _

theorem standing_markFenced (s : State) (u : FailUnit) : standing (markFenced s u) = standing s := by
  cases u with
  | channel h => exact frame_foldl (fun x fn => standing_raiseEventFn x 2 fn) _ _
  | _ => rfl

theorem standing_latchStorage (s : State) (u : FailUnit) (det : Nat) (inj : Bool) : standing (latchStorage s u det inj) = standing s := by
  unfold latchStorage
  split
  · rfl
  · dsimp only
    split
    · exact (standing_raiseFenced ..).trans (standing_markFenced ..)
    · rfl

theorem standing_injected (s : State) (point target : Nat) : standing (injected s point target).2 = standing s := by
  unfold injected
  split <;> rfl

theorem standing_countLoamLine (s : State) (n : Nat) (inj : Bool) : standing (countLoamLine s n inj) = standing s := by
  have hcount : standing (secondLine s n 16).2 = standing s := by
    unfold secondLine
    dsimp only
    split <;> rfl
  unfold countLoamLine
  dsimp only
  split
  · exact (standing_latchStorage ..).trans hcount
  · exact hcount

theorem standing_countSubLine (s : State) (h : Nat) (inj : Bool) : standing (countSubLine s h inj) = standing s := by
  unfold countSubLine
  dsimp only
  split
  · exact standing_latchStorage ..
  · rfl

theorem standing_readFires (s : State) (point target line : Nat) : standing (readFires s point target line) = standing s := by
  refine Eq.trans ?_ (standing_injected s point target)
  unfold readFires
  dsimp only
  split
  · rfl
  · split
    · exact standing_countLoamLine ..
    · split
      · rfl
      · exact standing_countSubLine ..

theorem standing_fireReads (s : State) (line : (Nat → Bool) → Option Nat) : standing (fireReads s line) = standing s := by
  refine frame_foldl (fun x a => ?_) _ _
  dsimp only
  split
  · split
    · exact standing_readFires ..
    · rfl
  · rfl

theorem standing_useLines (s : State) (p : Nat) (lines : List Nat) : standing (useLines s p lines) = standing s := by
  refine (standing_fireReads ..).trans ?_
  split <;> rfl

theorem standing_useImage (s : State) (st : Stream) : standing (useImage s st) = standing s := by
  unfold useImage
  split
  · exact standing_useLines ..
  · rfl

end Sys2Proof.Machine
end

section
/-! What moves of a stream between its states do (R233 to R242, Table 10-2): an entry of the stream table after an update, parking,
joining a cohort, and what the effects of STREAM_PARK and STREAM_RESUME come to. -/

namespace Sys2Proof.Machine

/-! ### An entry of the stream table -/

theorem setStream_some {s : State} {id : Nat} {st : Stream} (f : Stream → Stream) (h : streamOf s id = some st) :
    setStream s id f = { s with streams := insertKey id (f st) s.streams } := by
  simp only [setStream, h]

theorem streamOf_setStream_same {s : State} {id : Nat} {st : Stream} (f : Stream → Stream) (h : streamOf s id = some st) :
    streamOf (setStream s id f) id = some (f st) := by
  rw [setStream_some f h]
  exact lookupKey_insertKey_same ..

theorem streamOf_setStream_other (s : State) {id j : Nat} (f : Stream → Stream) (h : j ≠ id) :
    streamOf (setStream s id f) j = streamOf s j := by
  unfold setStream
  split
  · rfl
  · exact lookupKey_insertKey_other _ _ h

theorem queueStates_setStream (s : State) (id : Nat) (f : Stream → Stream) : queueStates (setStream s id f) = queueStates s := by
  unfold setStream
  split <;> rfl

/-- The result that a command leaves stands at the head of its queue. -/
theorem result_setResult {s : State} {q : Nat} (r : Result) (h : q < s.queues.length) : (queueOf (setResult s q r) q).result = some r :=
  congrArg Queue.result (queueOf_setQueue_same s q _ h)

/-! ### Parking -/

theorem standing_claimImage (s : State) (p q units : Nat) (frames : List Nat) (rs : List Record) :
    standing (claimImage s p q units frames rs).2 = standing s := by
  have hdrop : standing (dropReservation s p q units frames) = standing s := standing_setCmd (uncharge s p units 0) q _
  unfold claimImage
  dsimp only
  split
  · exact hdrop
  · split
    · exact hdrop
    · split <;> exact hdrop

/-- A stream whose state is stored in an image is PARKED there, in transit. -/
def parkedIn (fs : List Nat) (st : Stream) : Stream :=
  { st with st := .parked, cohort := 0, row := 0, image := fs, imageAddr := loamAddr (fs.headD 0), transit := true }

/-- The state in which the bytes of an image stand. -/
theorem storeParked_stores {s : State} {id : Nat} {st : Stream} (q : Nat) (fs : List Nat) (bs : List Byte) (h : streamOf s id = some st) :
    ∃ t, standing t = standing s ∧ storeParked s q id fs bs = setStream t id (parkedIn fs) := by
  simp only [storeParked, h]
  cases hstore : physStore s st.part q (loamAddr (fs.headD 0)) bs with
  | ok t => exact ⟨t, standing_physStore hstore, rfl⟩
  | error f => exact ⟨s, rfl, rfl⟩

/-- The effect of STREAM_PARK on a stream that may be parked. -/
theorem effectStreamPark_parks {s y : State} {q : Nat} {c : Cmd} {st : Stream} {fs : List Nat}
    (hst : streamOf s (hStreamId c.hdr) = some st) (hp : parkable st = true)
    (hclaim : claimImage s (queueOf s q).cfg.part q c.chargeLoam c.resFrames (recordsOf s st) = (some fs, y)) :
    effectStreamPark s q c = setResult (setCmd (setStream (storeParked y q (hStreamId c.hdr) fs (stateImage s st)) (hStreamId c.hdr)
      fun x => { x with lastStatus := 0 }) q fun x => { x with undo := snapshot s [hStreamId c.hdr] }) q ⟨.completed, 0, 0, 1⟩ := by
  simp [effectStreamPark, hst, hp, hclaim]

theorem effectStreamPark_refused {s : State} {q : Nat} {c : Cmd} {st : Stream} (hst : streamOf s (hStreamId c.hdr) = some st)
    (hp : parkable st = false) : effectStreamPark s q c = setResult s q (failResult (failAt .streamBadState 0 0) 0) := by
  simp [effectStreamPark, hst, hp, failCmd]

/-! ### Joining a cohort (R239) -/

theorem queueStates_releaseRow (s : State) (n row id : Nat) : queueStates (releaseRow s n row id) = queueStates s := by
  have hleave (t : State) (gs : List Nat) : queueStates (leaveState t gs) = queueStates t :=
    frame_foldl (fun x g => by split <;> rfl) _ _
  unfold releaseRow
  split
  · rfl
  · split
    · rfl
    · dsimp only
      split
      · exact hleave _ _
      · rfl

theorem queueStates_leaveCohort (s : State) (id : Nat) : queueStates (leaveCohort s id) = queueStates s := by
  unfold leaveCohort
  split
  · rfl
  · split
    · rfl
    · exact (queueStates_releaseRow ..).trans (queueStates_setStream ..)

theorem queueStates_freeImage (s : State) (id : Nat) : queueStates (freeImage s id) = queueStates s := by
  unfold freeImage
  split
  · rfl
  · split
    · rfl
    · exact queueStates_setStream ..

/-- A stream keeps its entry when its image is given back. -/
theorem streamOf_freeImage {s : State} {id : Nat} (h : (streamOf s id).isSome) : (streamOf (freeImage s id) id).isSome := by
  obtain ⟨st, hst⟩ := Option.isSome_iff_exists.1 h
  simp only [freeImage, hst]
  split
  · exact h
  · rw [streamOf_setStream_same (s := uncharge ..) _ hst]
    rfl

theorem standing_enterState (s : State) (gs : List Nat) : standing (enterState s gs) = standing s := by
  refine frame_foldl (fun _ _ => ?_) _ _
  rfl

/-- A stream that joins a cohort keeps its entry, and the queues their states. -/
theorem joinCohort_keeps {s t : State} {id : Nat} (h : joinCohort s id = some t) :
    (streamOf t id).isSome ∧ queueStates t = queueStates s := by
  unfold joinCohort at h
  split at h
  · cases h
  next st hst =>
    have placed (x : State) (cs : List (Nat × Cohort)) (f : Stream → Stream) (hx : standing x = standing s) :
        (streamOf (setStream { x with cohorts := cs } id f) id).isSome
          ∧ queueStates (setStream { x with cohorts := cs } id f) = queueStates s := by
      have hid : streamOf { x with cohorts := cs } id = some st := (streamOf_of_standing hx id).trans hst
      exact ⟨by rw [streamOf_setStream_same f hid]; rfl, (queueStates_setStream ..).trans (queueStates_of_standing hx)⟩
    dsimp only at h
    split at h
    · obtain ⟨row, -, rfl⟩ := Option.map_eq_some_iff.1 h
      exact placed s _ _ rfl
    · split at h
      · cases h
        exact placed _ _ _ (standing_enterState s _)
      · cases h

theorem standing_loadImage (s : State) (st : Stream) (bs : List Byte) : standing (loadImage s st bs) = standing s := by
  refine frame_foldl (view := fun x : State × List Byte => standing x.1) (fun _ _ => ?_) _ (s, bs)
  rfl

/-- A stream that becomes RESIDENT is found so. -/
theorem toResident_resident {s t : State} {id : Nat} (h : toResident s id = (none, t)) :
    (∃ u, streamOf t id = some u ∧ u.st = .resident) ∧ queueStates t = queueStates s := by
  unfold toResident at h
  split at h
  · cases h
  next st hst =>
    split at h
    · cases h
    next x hjoin =>
      obtain ⟨hentry, hstates⟩ := joinCohort_keeps hjoin
      dsimp only at h
      split at h
      · cases h
      next bs _ =>
        obtain ⟨v, hv⟩ := Option.isSome_iff_exists.1 (streamOf_freeImage hentry)
        have hset := streamOf_setStream_same (fun y : Stream =>
          { y with st := .resident, lost := false, transit := st.st == .parked }) hv
        simp only [hset, Prod.mk.injEq, true_and] at h
        subst h
        refine ⟨⟨_, (streamOf_of_standing (standing_loadImage ..) id).trans hset, rfl⟩, ?_⟩
        calc queueStates _ = queueStates _ := queueStates_of_standing (standing_loadImage ..)
          _ = queueStates (freeImage x id) := queueStates_setStream ..
          _ = queueStates x := queueStates_freeImage ..
          _ = queueStates (useImage s st) := hstates
          _ = queueStates s := queueStates_of_standing (standing_useImage ..)

/-- The effect of STREAM_RESUME on a stream that may be resumed, once it has joined its cohort. -/
theorem effectStreamResume_resumes {s y : State} {q : Nat} {c : Cmd} {st : Stream} (hst : streamOf s (hStreamId c.hdr) = some st)
    (hr : resumable st (bitOf c.body 0) = true)
    (hres : toResident (if st.st = .parked then keepImage s q st else s) (hStreamId c.hdr) = (none, y)) :
    effectStreamResume s q c = setResult (setCmd (setStream y (hStreamId c.hdr) fun x => { x with lastStatus := 0 }) q
      fun x => { x with undo := snapshot s [hStreamId c.hdr] }) q ⟨.completed, 0, 0, 1⟩ := by
  simp [effectStreamResume, hst, hr, hres]

theorem effectStreamResume_refused {s : State} {q : Nat} {c : Cmd} {st : Stream} (hst : streamOf s (hStreamId c.hdr) = some st)
    (hr : resumable st (bitOf c.body 0) = false) :
    effectStreamResume s q c = setResult s q (failResult (failAt .streamBadState 0 0) 0) := by
  simp [effectStreamResume, hst, hr, failCmd]

/-- What an effect leaves that completes with its stream's last_status cleared: the entry, and the result of its queue. -/
theorem completes_with_stream {s t : State} {q id : Nat} {st : Stream} (f : Cmd → Cmd) (r : Result) (hq : q < s.queues.length)
    (ht : queueStates t = queueStates s) (hst : streamOf t id = some st) :
    let u := setResult (setCmd (setStream t id fun x => { x with lastStatus := 0 }) q f) q r
    streamOf u id = some { st with lastStatus := 0 } ∧ (queueOf u q).result = some r := by
  refine ⟨streamOf_setStream_same _ hst, result_setResult r ?_⟩
  rw [queues_length_of_queueStates ((queueStates_setCmd ..).trans ((queueStates_setStream ..).trans ht))]
  exact hq

/-! ### Boundary moves (R249) -/

/-- A move that its stream's state does not allow releases its reservation. -/
theorem boundaryMove_refused {s : State} {m : BMove} (p q : Nat) (h : moveAccepted s m = false) :
    boundaryMove s p q m = (.streamBadState, dropReservation s p q m.units m.frames) := by
  cases hst : streamOf s m.id with
  | none => simp only [boundaryMove, hst]
  | some st =>
    simp only [moveAccepted, hst] at h
    by_cases hpark : m.op = 1
    · rw [if_pos hpark] at h
      simp [boundaryMove, hst, hpark, h]
    · by_cases hresume : m.op = 2
      · rw [if_neg hpark, if_pos hresume] at h
        simp [boundaryMove, hst, hresume, beq_eq_false_iff_ne.1 h]
      · rw [if_neg hpark, if_neg hresume] at h
        simp [boundaryMove, hst, hpark, hresume, h]

/-- Settles O20: each effect comes to the branch that the stream's state selects, and the frames give back its entry and its result. -/
theorem streamStatesChange : Obligations.StreamStatesChange := by
  constructor
  · intro s q c st id p hst hq
    refine ⟨fun hp fs y hclaim _ => ?park, effectStreamPark_refused hst, fun y hr hres => ?resume, effectStreamResume_refused hst⟩
    case park =>
      have hclaimed : standing y = standing s := by simpa [hclaim] using standing_claimImage s p q c.chargeLoam c.resFrames (recordsOf s st)
      obtain ⟨t, ht, hstore⟩ := storeParked_stores q fs (stateImage s st) ((streamOf_of_standing hclaimed id).trans hst)
      have hkept : standing t = standing s := ht.trans hclaimed
      have hparked := streamOf_setStream_same (parkedIn fs) ((streamOf_of_standing hkept id).trans hst)
      obtain ⟨hentry, hresult⟩ := completes_with_stream (fun x => { x with undo := snapshot s [id] }) ⟨.completed, 0, 0, 1⟩ hq
        ((queueStates_setStream ..).trans (queueStates_of_standing hkept)) hparked
      rw [effectStreamPark_parks hst hp hclaim, hstore]
      exact ⟨⟨_, hentry, rfl, rfl, rfl, rfl⟩, hresult⟩
    case resume =>
      obtain ⟨⟨u, hu, hresident⟩, hstates⟩ := toResident_resident hres
      have hkeep : queueStates (if st.st = .parked then keepImage s q st else s) = queueStates s := by
        split
        · exact queueStates_setCmd (charge ..) q _
        · rfl
      obtain ⟨hentry, hresult⟩ := completes_with_stream (fun x => { x with undo := snapshot s [id] }) ⟨.completed, 0, 0, 1⟩ hq
        (hstates.trans hkeep) hu
      rw [effectStreamResume_resumes hst hr hres]
      exact ⟨⟨_, hentry, hresident, rfl⟩, hresult⟩
  · intro s p q m refused
    refine ⟨fun hnone => boundaryMove_refused p q (by simp [moveAccepted, hnone]), fun st hst =>
      ⟨fun hop hp => ?_, fun hop hp => ?_, fun hop hp => ?_, fun hop hp => ?_, fun hop hp fs y hclaim => ?_⟩⟩
    · exact boundaryMove_refused p q (by simp [moveAccepted, hst, hop, hp])
    · exact boundaryMove_refused p q (by simp [moveAccepted, hst, hop, hp])
    · exact boundaryMove_refused p q (by simp [moveAccepted, hst, hop, hp])
    · simp [boundaryMove, hst, hop, hp]
    · simp [boundaryMove, hst, hop, hp, hclaim]

end Sys2Proof.Machine
end

section
/-! The commands of the STREAM engine once they take effect (R233 to R246, R251, R252): how a command's event comes to its effect (R234,
R235), and what STREAM_CREATE, STREAM_RETIRE, STREAM_PARK, STREAM_RESUME and STREAM_FORK make of the state in which it does. -/

namespace Sys2Proof.Machine

/-! ### The event of a STREAM command (R234, R235) -/

section
variable {s x : State} {q op : Nat} {d : Cmd} {checks : State → Queue → Cmd → List (Bool × Fail)} {start : State → Nat → Cmd → State}
  (h : streamActs s q op checks start x) (hd : (queueOf x q).cmd = some d)
include h hd

/-- A command whose event lets it act has its effect, and commits with it where it may. -/
theorem streamEvent_acts (now : Bool) (effect : State → Nat → Cmd → State) :
    streamEvent s q op now checks start effect = commitIfDone now (effect x q d) q := by
  obtain ⟨hacts, hfree⟩ := h
  rcases hacts with ⟨Q, c, hstarts, htransit, hslot, rfl⟩ | ⟨c, hstate, hcmd, hresult, hop, hending, hwaiting, rfl⟩
  · have hcheck := hstarts.1
    simp only [streamEvent, hcheck, htransit, hslot, Bool.or_self, Bool.false_eq_true, if_false, runCommand_starts _ hstarts, hd, hfree]
  · have hcheck : inCheck x q op = none := by simp [inCheck, hstate]
    obtain rfl : d = c := Option.some.inj (hd.symm.trans hcmd)
    simp [streamEvent, hcheck, hstate, hcmd, hresult, hop, hending, hwaiting, hfree]

/-- One that waits for its data leaves its result. -/
theorem streamEvent_leaves (effect : State → Nat → Cmd → State) : streamEvent s q op false checks start effect = effect x q d :=
  (streamEvent_acts h hd false effect).trans (by simp [commitIfDone])

/-- One that commits with its effect does so in RUN. -/
theorem streamEvent_commits {t : State} {r : Result} {effect : State → Nat → Cmd → State} (heffect : effect x q d = setResult t q r)
    (hrun : (queueOf t q).state = .run) :
    streamEvent s q op true checks start effect = commitQueue (setResult t q r) q := by
  have hresult : queueOf (setResult t q r) q = { queueOf t q with result := some r } :=
    queueOf_setQueue_same t q _ (queue_exists (by rw [hrun]; decide))
  rw [streamEvent_acts h hd, heffect]
  simp [commitIfDone, hresult, hrun]

/-- The queue of a command that acts is in RUN. -/
theorem streamActs_run (hstart : ∀ y r c, queueStates (start y r c) = queueStates y) : (queueOf x q).state = .run := by
  obtain ⟨⟨Q, c, -, -, -, rfl⟩ | ⟨c, hstate, -, -, -, -, -, rfl⟩, -⟩ := h
  · have hsame := (queueStates_setCmd (start (running s q c) q c) q fun y => { y with streams := streamNames op c }).trans (hstart ..)
    have hlength : _ = (atChecks s q (queueOf s q) c).queues.length :=
      (queues_length_of_queueStates hsame).trans (modifyAt_length _ _ q)
    have hq : q < (atChecks s q (queueOf s q) c).queues.length := hlength ▸ queue_exists_of_cmd hd
    rw [queueOf_state_of_queueStates hsame]
    exact congrArg Queue.state (queueOf_setQueue_same _ q _ hq)
  · exact hstate

end

/-! ### STREAM_CREATE and STREAM_RETIRE (R238, Table 10-7) -/

theorem queueStates_releaseKv (s : State) (id : Nat) : queueStates (releaseKv s id) = queueStates s := by
  have hunref (p k : Nat) (es : List (Nat × DirEntry)) : queueStates (es.foldl (fun x e => unref x p k e.2) s) = queueStates s := by
    refine frame_foldl (fun _ _ => ?_) _ _
    rfl
  unfold releaseKv
  split
  · rfl
  · split
    · rfl
    · exact (queueStates_setStream ..).trans (hunref _ _ _)

theorem queueStates_retireStream (s : State) (id : Nat) : queueStates (retireStream s id) = queueStates s :=
  calc queueStates (retireStream s id) = queueStates (releaseKv (freeImage (leaveCohort s id) id) id) := queueStates_setStream ..
    _ = queueStates (freeImage (leaveCohort s id) id) := queueStates_releaseKv ..
    _ = queueStates (leaveCohort s id) := queueStates_freeImage ..
    _ = queueStates s := queueStates_leaveCohort ..

/-- A new stream's identifier is written where the body asks for it. -/
theorem effectStreamCreate_creates {x t : State} {q id : Nat} {ids : List Nat} {d : Cmd}
    (halloc : allocIds x (partOf x (queueOf x q).cfg.part) 1 = some (id :: ids))
    (hwrite : writeId (putStream x id (newStream (queueOf x q).cfg.part (fld d.body 0 6)
      (layoutOf x (queueOf x q).cfg.part (fld d.body 0 6)).model id (fld d.body 64 32))) (queueOf x q).cfg.part q (fld d.body 128 48) id = .ok t) :
    effectStreamCreate x q d = setResult t q ⟨.completed, id, 0, 1⟩ := by
  simp only [effectStreamCreate, halloc, hwrite]

theorem effectStreamCreate_full {x : State} {q : Nat} (d : Cmd) (halloc : allocIds x (partOf x (queueOf x q).cfg.part) 1 = none) :
    effectStreamCreate x q d = setResult x q (failResult (failAt .streamTableFull 0 0) 0) := by
  simp only [effectStreamCreate, halloc, failCmd]

theorem effectStreamRetire_retires {x : State} {q : Nat} {d : Cmd} {st : Stream} (hst : streamOf x (hStreamId d.hdr) = some st)
    (hr : retirable st = true) :
    effectStreamRetire x q d = setResult (setStream (retireStream x (hStreamId d.hdr)) (hStreamId d.hdr) fun y => { y with lastStatus := 0 }) q
      ⟨.completed, 0, 0, 1⟩ := by
  simp [effectStreamRetire, hst, hr]

/-- Settles O18: the event comes to the effect, which leaves the queue in RUN, so that the command commits. -/
theorem streamsComeAndGo : Obligations.StreamsComeAndGo := by
  intro s x q d hd p slot
  constructor
  · intro h
    have hrun := streamActs_run h hd fun _ _ _ => rfl
    refine ⟨fun id ids halloc => ⟨fun hnone => ?_, fun t haddr hstore => ?_⟩, fun halloc => ?_⟩
    · exact congrArg _ (streamEvent_commits h hd (effectStreamCreate_creates halloc (if_pos hnone)) hrun)
    · have hstored := queueStates_of_standing (standing_storeOnce hstore)
      exact congrArg _ (streamEvent_commits h hd (effectStreamCreate_creates halloc ((if_neg haddr).trans hstore))
        ((queueOf_state_of_queueStates hstored q).trans hrun))
    · exact congrArg _ (streamEvent_commits h hd (effectStreamCreate_full d halloc) hrun)
  · intro st h hst hr
    have hrun := streamActs_run h hd fun _ _ _ => rfl
    refine congrArg _ (streamEvent_commits h hd (effectStreamRetire_retires hst hr) ?_)
    exact (queueOf_state_of_queueStates ((queueStates_setStream ..).trans (queueStates_retireStream ..)) q).trans hrun

/-! ### STREAM_FORK (R242) -/

/-- The children of a fork, placed with bytes `bs` in the state `y` in which the parent's image has been read. -/
def forkRun (y : State) (p q : Nat) (d : Cmd) (st : Stream) (ids : List Nat) (bs : List Byte) : Except Fail State :=
  forkChildren p q d (hStreamId d.hdr) st bs (if fkParked d.body then imageUnits (recordsOf y st) else 0) (imageFrames (recordsOf y st))
    d.resFrames ids 0 y

/-- A fork that finds room for its children places them, from the bytes of their parent, and writes their identifiers. -/
theorem effectStreamFork_forks {x t u : State} {q : Nat} {d : Cmd} {st : Stream} {ids : List Nat} {bytes : List Byte}
    (hst : streamOf x (hStreamId d.hdr) = some st) (hcount : fkCount d.body ≤ 256) (hparent : st.st = .parked ∨ parkable st = true)
    (halloc : allocIds x (partOf x (queueOf x q).cfg.part) (fkCount d.body) = some ids)
    (hroom : ∀ f, forkRun (useImage x st) (queueOf x q).cfg.part q d st ids [] = .error f → f.status ≠ .streamNoRoom)
    (hbytes : recordBytes (useImage x st) st = .ok bytes)
    (hrun : forkRun (useImage x st) (queueOf x q).cfg.part q d st ids bytes = .ok t)
    (hstore : storeOnce t (queueOf x q).cfg.part q (fld d.body 0 48) (ids.flatMap (toLe 4)) = .ok u) :
    effectStreamFork x q d = setResult (setCmd (setStream u (hStreamId d.hdr) fun k => { k with lastStatus := 0 }) q fun k =>
      { k with streams := hStreamId d.hdr :: ids, undo := snapshot (useImage x st) ids, outs := [(fld d.body 0 48, 4 * ids.length)] }) q
      ⟨.completed, ids.headD 0, 0, ids.length⟩ := by
  have hallowed : (!(st.st == .parked || (st.st == .resident && !st.undef))) = false := by
    rcases hparent with hparked | hparkable
    · simp [hparked]
    · unfold parkable at hparkable
      simp [hparkable]
  have hfewer : ¬ 256 < fkCount d.body := Nat.not_lt.2 hcount
  unfold forkRun at hroom hrun
  cases hempty : forkRun (useImage x st) (queueOf x q).cfg.part q d st ids [] with
  | ok v =>
    unfold forkRun at hempty
    simp only [effectStreamFork, hfewer, hst, hallowed, Bool.false_eq_true, if_false, halloc, hempty, hbytes, hrun, hstore]
  | error f =>
    unfold forkRun at hempty
    simp only [effectStreamFork, hfewer, hst, hallowed, Bool.false_eq_true, if_false, halloc, hempty, hroom f hempty, hbytes, hrun, hstore]

/-- Settles O19: each command has its effect, and the transit bit is the one field of one entry that a transit's end changes. -/
theorem streamsMove : Obligations.StreamsMove := by
  constructor
  · intro s x q d st hd hst id p ok keep
    refine ⟨fun fs t h hp hclaim => ?park, fun t h hr hres => ?resume, fun h hcount hparent ids bytes halloc => ?fork⟩
    case park => exact congrArg _ ((streamEvent_leaves h hd _).trans (effectStreamPark_parks hst hp hclaim))
    case resume => exact congrArg _ ((streamEvent_leaves h hd _).trans (effectStreamResume_resumes hst hr hres))
    case fork =>
      intro y run hroom hbytes t u hrun hstore
      exact congrArg _ ((streamEvent_leaves h hd _).trans (effectStreamFork_forks hst hcount hparent halloc hroom hbytes hrun hstore))
  · intro s id st hst
    refine ⟨_, rfl, streamOf_setStream_same _ hst, fun j hj => streamOf_setStream_other _ _ hj, ?_⟩
    rw [setStream_some _ hst]

end Sys2Proof.Machine
end

section
/-! Streams that leave the device and enter it (R243 to R245, R275, R457): what a sealed blob's writing leaves of the queues, and the
effects of STREAM_EXPORT, STREAM_IMPORT, PAGE_PIN and NET_MIGRATE. -/

namespace Sys2Proof.Machine

/-! ### Writing a blob (R243, R245) -/

theorem queueStates_loseImage (s : State) (id : Nat) (f : Fail) : queueStates (loseImage s id f) = queueStates s :=
  calc queueStates (loseImage s id f) = queueStates (toLost s id) := queueStates_setStream ..
    _ = queueStates (freeImage (leaveCohort s id) id) := queueStates_setStream ..
    _ = queueStates (leaveCohort s id) := queueStates_freeImage ..
    _ = queueStates s := queueStates_leaveCohort ..

theorem queueStates_exported (s : State) (id addr len : Nat) (keep : Bool) : queueStates (exported s id addr len keep) = queueStates s := by
  unfold exported
  split
  · exact queueStates_setStream ..
  · exact (queueStates_setStream ..).trans ((queueStates_freeImage ..).trans (queueStates_leaveCohort ..))

theorem standing_useEntry (s : State) (p : Nat) (K : Pool) (id : Nat) (g : Page) : standing (useEntry s p K id g) = standing s := by
  unfold useEntry
  dsimp only
  split <;> split
  · exact standing_useLines ..
  · rfl
  · exact (standing_useLines ..).trans (standing_useLines ..)
  · exact standing_useLines ..

theorem standing_noteErrors (s : State) (p k id : Nat) (dropped lost : Bool) : standing (noteErrors s p k id dropped lost) = standing s := by
  cases dropped <;> cases lost <;> rfl

theorem standing_kvSection (s : State) (st : Stream) : standing (kvSection s st).2 = standing s := by
  unfold kvSection
  split
  · rfl
  · split
    · rfl
    · exact frame_foldl (view := fun x : List Byte × State => standing x.2)
        (fun _ _ => (standing_noteErrors ..).trans (standing_useEntry ..)) _ _

theorem standing_sealStream {s t : State} {id key : Nat} {st : Stream} {withKv : Bool} {bs : List Byte}
    (h : sealStream s id st key withKv = .ok (bs, t)) : standing t = standing s := by
  unfold sealStream at h
  split at h
  · cases h
  · dsimp only at h
    obtain ⟨-, rfl⟩ := Prod.mk.inj (Except.ok.inj h)
    refine (standing_injected ..).trans ?_
    split
    · exact standing_kvSection s st
    · rfl

/-- Whether its writing fails or not, a blob leaves the queues in their states. -/
theorem queueStates_writeBlob (s : State) (p q id : Nat) (st : Stream) (key : Option Nat) (addr : Nat) (withKv : Bool) :
    queueStates (writeBlob s p q id st key addr withKv).2 = queueStates s := by
  unfold writeBlob
  split
  · dsimp only
    split
    · exact queueStates_of_standing (standing_havoc ..)
    · rfl
  · dsimp only
    split
    · calc queueStates _ = queueStates _ := queueStates_of_standing (standing_havoc ..)
        _ = queueStates (useImage s st) := queueStates_loseImage ..
        _ = queueStates s := queueStates_of_standing (standing_useImage ..)
    next hseal =>
      split
      · exact queueStates_of_standing (standing_havoc ..)
      next hstore =>
        exact queueStates_of_standing ((standing_storeOnce hstore).trans ((standing_sealStream hseal).trans (standing_useImage ..)))

/-- The state that a written blob gives is the one that it leaves. -/
theorem writeBlob_ok {s w t : State} {p q id addr len : Nat} {st : Stream} {key : Option Nat} {withKv : Bool}
    (h : writeBlob s p q id st key addr withKv = (.ok (len, t), w)) : t = w := by
  unfold writeBlob at h
  split at h
  · cases h
  · dsimp only at h
    split at h
    · cases h
    · split at h
      · cases h
      · cases h
        rfl

/-! ### The effects -/

section
variable {x w : State} {q : Nat} {d : Cmd} {st : Stream} (hst : streamOf x (hStreamId d.hdr) = some st)
include hst

theorem effectStreamExport_fails {f : Fail} (h : writeBlob x (queueOf x q).cfg.part q (hStreamId d.hdr) st d.key (blobAddr d.body)
    (bitOf d.body 137) = (.error f, w)) : effectStreamExport x q d = setResult w q (failResult f 0) := by
  simp only [effectStreamExport, hst, h, failCmd]

theorem effectStreamExport_exports {u : State} {len : Nat} (h : writeBlob x (queueOf x q).cfg.part q (hStreamId d.hdr) st d.key
    (blobAddr d.body) (bitOf d.body 137) = (.ok (len, u), w)) : effectStreamExport x q d
      = setResult (exported u (hStreamId d.hdr) (blobAddr d.body) len (bitOf d.body 136)) q ⟨.completed, 0, 0, 1⟩ := by
  simp only [effectStreamExport, hst, h]

/-- PAGE_PIN changes the pins of its entries, and does no more where it fetches no page. -/
theorem effectPagePin_pins (hlive : st.st ≠ .retired) (hop : ppOp d.body ≠ 2) :
    effectPagePin x q (queueOf x q) d = setResult
      ((ppEntries st d.body).foldl (fun y e => pinEntry y (hStreamId d.hdr) (ppOp d.body != 0) e.1 e.2) x) q
      ⟨.completed, 0, 0, ((ppEntries st d.body).filter fun e => e.2.pin != (ppOp d.body != 0)).length⟩ := by
  simp [effectPagePin, hst, hlive, hop]

/-- NET_MIGRATE seals its stream under the key that it has taken, and sends the blob. -/
theorem effectNetMigrate_sends {k : Nat} {bs : List Byte} {t : State} (hnew : sendStarted x q = false) (hseals : exportRefused st d.key = none)
    (hkey : d.key = some k) (hseal : sealStream (useImage x st) (hStreamId d.hdr) st k (nmWithKv d.body) = .ok (bs, t)) :
    effectNetMigrate x q d = sendOn t q (nsQp d.body) (some (fld d.body 0 64))
      (.write (nsQp d.body) (fld d.body 0 64) (some (hStreamId d.hdr)) bs) bs := by
  have hkeyed : sealStream (useImage x st) (hStreamId d.hdr) st (d.key.getD 0) (nmWithKv d.body) = .ok (bs, t) := by
    rw [hkey]
    exact hseal
  simp only [effectNetMigrate, hnew, Bool.false_eq_true, if_false, hst, hseals, hkeyed]

end

section
variable {y : State} {q p b : Nat} {e : Cmd} {bs : List Byte} (h : Computes y q p e b)
  (hbs : loadBytes y p (blobAddr b) (blobLen b) = .ok bs)
include h hbs

/-- A blob that does not open ends STREAM_IMPORT with its failure. -/
theorem computeStreamImport_unopened {f : Fail} (hopen : openBlob e.key bs = .error f) :
    computeStreamImport y q = setResult y q (failResult f 0) := by
  simp only [computeStreamImport, h.cmd, h.part, h.body, hbs, hopen, failCmd]

theorem computeStreamImport_refused {o : Opened} {f : Fail} (hopen : openBlob e.key bs = .ok o)
    (himport : importOpened y p q e o = .error (.fails f)) : computeStreamImport y q = setResult y q (failResult f 0) := by
  simp only [computeStreamImport, h.cmd, h.part, h.body, hbs, hopen, himport, failCmd]

theorem computeStreamImport_imports {o : Opened} {i : Nat} {t : State} (hopen : openBlob e.key bs = .ok o)
    (himport : importOpened y p q e o = .ok (i, t)) : computeStreamImport y q = setResult t q ⟨.completed, i, 0, 1⟩ := by
  simp only [computeStreamImport, h.cmd, h.part, h.body, hbs, hopen, himport]

end

/-! ### The statement -/

/-- Settles O21: the event comes to the effect, with which STREAM_EXPORT and STREAM_IMPORT commit in RUN and which PAGE_PIN and NET_MIGRATE leave. -/
theorem streamsLeaveAndEnter : Obligations.StreamsLeaveAndEnter := by
  intro s x q d hd p id
  refine ⟨fun st r w h hst hblob => ?sealed, fun h y e bs hread hbody hkey hrun hbs => ?opened, fun h hpaging => ?pin,
    fun st k bs t h hfirst hnew hst hseals hkey hseal => ?migrate⟩
  case sealed =>
    have hrun := streamActs_run h hd fun y r c => (queueStates_setCmd (takeKey y r _) r _).trans (queueStates_setCmd ..)
    have hwritten : (queueOf w q).state = .run := by
      refine (queueOf_state_of_queueStates ?_ q).trans hrun
      simpa [hblob] using queueStates_writeBlob x p q id st d.key (blobAddr d.body) (bitOf d.body 137)
    cases r with
    | error f => exact congrArg _ (streamEvent_commits h hd (effectStreamExport_fails hst hblob) hwritten)
    | ok v =>
      obtain ⟨len, u⟩ := v
      obtain rfl := writeBlob_ok hblob
      exact congrArg _ (streamEvent_commits h hd (effectStreamExport_exports hst hblob)
        ((queueOf_state_of_queueStates (queueStates_exported ..) q).trans hwritten))
  case opened =>
    have hcomputes := computes_of_reads hread hbody
    have heffect {z : State} (hz : computeStreamImport y q = z) : effectStreamImport x q d = z :=
      (gated_readsThrough _ hread).trans hz
    refine ⟨fun f hopen => ?_, fun o hopen => ⟨fun f himport => ?_, fun i t himport hstays => ?_⟩⟩
    · rw [← hkey] at hopen
      exact congrArg _ (streamEvent_commits h hd (heffect (computeStreamImport_unopened hcomputes hbs hopen)) hrun)
    · rw [← hkey] at hopen
      exact congrArg _ (streamEvent_commits h hd (heffect (computeStreamImport_refused hcomputes hbs hopen himport)) hrun)
    · rw [← hkey] at hopen
      exact congrArg _ (streamEvent_commits h hd (heffect (computeStreamImport_imports hcomputes hbs hopen himport)) hstays)
  case pin =>
    have hpin : exec (.pagePin q) s = .next (runMover (effectPagePin x q (queueOf x q) d)) :=
      congrArg _ ((streamEvent_leaves h hd _).trans (if_neg (by simp [hpaging])))
    exact ⟨hpin, fun st hst hlive hop => hpin.trans (by rw [effectPagePin_pins hst hlive hop])⟩
  case migrate =>
    have hgoes : ((queueOf s q).state == .check && lcNetFirst s q) = false := by
      cases hstate : (queueOf s q).state == .check with
      | false => rfl
      | true => exact hfirst (eq_of_beq hstate)
    have hexec : exec (.netMigrate q) s = .next (streamEvent s q 0x403 false checksNetMigrate
        (fun y r c => takeKey y r (nmSlot c.body)) effectNetMigrate) := congrArg _ (if_neg (by simp [hgoes]))
    rw [hexec, streamEvent_leaves h hd, effectNetMigrate_sends hst hnew hseals hkey hseal]

end Sys2Proof.Machine
end

section
/-! SWATH_STEP's opening (R247, R250), and the requests on layouts, streams and KV pools (R231, R256, R572 to R575). -/

namespace Sys2Proof.Machine

/-! ### SWATH_STEP (R247, R250) -/

/-- With its lists read and its images reserved a step opens, and is abandoned at once where its tick has passed. -/
theorem openSwath_opens {x y : State} {q : Nat} {Q : Queue} {c : Cmd} {ids ms : List Nat} {imgs : List (Nat × List Nat)}
    (hlist : readList x Q.cfg.part c.body 0 (swStreams c.body) = .ok (some ids)) (hmoves : readMoves x Q.cfg.part c.body = .ok (some ms))
    (himages : reserveImages x Q.cfg.part q (parkImages x ms) = some (imgs, y)) :
    let p := Q.cfg.part
    let b := c.body
    let z := ids.foldl (fun u id => setStream u id fun st => { st with dirty := false }) y
    let abandon := (passedEdge x (swTick b)).isSome && (partOf x p).cfg.abandon
    let w : Swath := { q := q, seq := (queueOf x q).seq, streams := ids, moves := dealMoves ms imgs, doneFence := swDoneFence b,
                       doneValue := swDoneValue b, tick := swTick b, pub := swPub b, abandon := abandonEntries b, doneAt := none,
                       overrunAt := passedEdge x (swTick b) }
    let u := signalCore (setPart z p fun P => { P with swaths := P.swaths ++ [w] }) p (swOpenFence b) (swOpenValue b) abandon
    openSwath x q Q c = if abandon then settled (abandonSwath u p w) else settled u := by
  simp only [openSwath, hlist, hmoves, himages]

/-- SWATH_STEP starts once nothing holds it in CHECK and fewer than sixteen steps of its partition are open. -/
theorem exec_swathStep_starts {s : State} {q : Nat} {Q : Queue} {c : Cmd} (h : starts s q 0x310 (checksSwathStep q) Q c)
    (htransit : anyTransit s (swathNames s q) = false) (hslot : streamSlotBusy s q = false) (hlc : lcFirst s q = false)
    (hopen : (partOf s Q.cfg.part).swaths.length < 16) : exec (.swathStep q) s = .next (openSwath (running s q c) q Q c) := by
  obtain ⟨rfl, -⟩ := inCheck_some h.1
  have hgoes : ¬ (anyTransit s (swathNames s q) || streamSlotBusy s q || lcFirst s q
      || decide (16 ≤ (partOf s (queueOf s q).cfg.part).swaths.length)) = true := by
    simp [htransit, hslot, hlc, Nat.not_le.2 hopen]
  exact congrArg _ ((if_neg hgoes).trans (runCommand_starts _ h))

/-- Settles O22: nothing holds the step back in CHECK, and in the state in which it runs it opens. -/
theorem swathStepOpens : Obligations.SwathStepOpens := by
  intro s q Q c ids ms imgs y x p b h htransit hslot hlc hopen hlist hmoves himages
  exact (exec_swathStep_starts h htransit hslot hlc hopen).trans (congrArg _ (openSwath_opens hlist hmoves himages))

/-! ### Requests that are carried out -/

/-- A request for which firmware has a reply is answered with it. -/
theorem serve_replies {s x : State} {fn m code : Nat} {bs : List Byte} {r : Reply} {run : State → Asked → Option Reply × State}
    (h : asked s fn m code bs) (hrun : run (taken s fn m) (asking s fn m bs) = (some r, x)) :
    serve s fn m code run = answer x fn m r := by
  rw [serve_asked run h, hrun]

section
variable {x : State} {a : Asked}

/-! ### LAYOUT_SET and STREAM_QUERY (R572, R573) -/

/-- The records that a payload of R572 spells. -/
def askedRecords (bs : List Byte) : List Record := (List.range (payFld bs 1 1)).map fun i => recordOfEntry (layoutEntry bs i)

theorem runLayoutSet_sets (hslot : payFld a.body 0 1 ≤ 63) (hcount : payFld a.body 1 1 ≤ 64)
    (hrecords : (askedRecords a.body).all recordOk = true) (hfree : layoutUsed x a.part (payFld a.body 0 1) = false) :
    runLayoutSet x a = (some (plain .completed), setPart x a.part fun P => { P with
      layouts := if payFld a.body 1 1 = 0 then eraseKey (payFld a.body 0 1) P.layouts
        else insertKey (payFld a.body 0 1) { model := payFld a.body 4 4, records := askedRecords a.body } P.layouts }) := by
  refine if_neg ?_
  rintro (h | h | h | h)
  · omega
  · omega
  · exact Bool.noConfusion (hrecords.symm.trans h)
  · exact Bool.noConfusion (hfree.symm.trans h)

theorem runStreamQuery_replies (hsome : payFld a.body 4 4 ≠ 0) (hroom : payFld a.body 4 4 ≤ min 1024 (a.room / 64)) :
    runStreamQuery x a = (some ⟨.completed, 0, 0, (rangeFrom (payFld a.body 0 4) (payFld a.body 4 4)).flatMap
      fun id => toLe 64 (streamBits x (streamOf x id))⟩, x) := by
  refine if_neg ?_
  rintro (h | h)
  · exact hsome h
  · omega

/-! ### KV_POOL_SET (R256, R574) -/

/-- A pool in range that finds its frames and its quota is made anew, once the old one of its number has no pages. -/
theorem runKvPoolSet_sets (hnumber : payFld a.body 0 1 ≤ 7) (hrange : poolInRange (poolShape a.body) = true)
    (hempty : ∀ old, poolOf x a.part (payFld a.body 0 1) = some old → old.recs = []) :
    let y := poolReleased x a.part (payFld a.body 0 1)
    let u := poolUnits (poolShape a.body)
    let fl := freeLoam y (ceilDiv u.1 16) (partSlices y (partOf y a.part))
    let fs := freeSub y a.part (ceilDiv u.2 16)
    u.1 ≤ loamLeft (partOf y a.part) → fl.length = ceilDiv u.1 16 → u.2 ≤ subLeft (partOf y a.part) → fs.length = ceilDiv u.2 16 →
    runKvPoolSet x a = (some (plain .completed), setPart (charge y a.part u.1 u.2) a.part fun P => { P with
      pools := insertKey (payFld a.body 0 1)
        { poolShape a.body with loamFrames := fl, subFrames := fs, counts := poolCounts x a.part (payFld a.body 0 1) } P.pools }) := by
  intro y u fl fs hloam hfl hsub hfs
  have hlegal : ¬ (7 < payFld a.body 0 1 ∨ poolInRange (poolShape a.body) = false ∨
      (match poolOf x a.part (payFld a.body 0 1) with | some old => !old.recs.isEmpty | none => false) = true) := by
    rintro (h | h | h)
    · omega
    · exact Bool.noConfusion (hrange.symm.trans h)
    · split at h
      · next old hold => simp [hempty old hold] at h
      · cases h
  have hloamFits : ¬ (loamLeft (partOf y a.part) < u.1 ∨ fl.length < ceilDiv u.1 16) := by omega
  have hsubFits : ¬ (subLeft (partOf y a.part) < u.2 ∨ fs.length < ceilDiv u.2 16) := by omega
  exact (if_neg hlegal).trans ((if_neg hloamFits).trans (if_neg hsubFits))

/-! ### KV_QUERY (R575) -/

theorem runKvQuery_records {K : Pool} (hkind : payFld a.body 0 1 = 0) (hnumber : payFld a.body 1 1 ≤ 7) (hsome : payFld a.body 12 2 ≠ 0)
    (hroom : payFld a.body 12 2 ≤ a.room / 32) (hK : poolOf x a.part (payFld a.body 1 1) = some K)
    (hpages : payFld a.body 4 4 + payFld a.body 12 2 ≤ K.pages) :
    runKvQuery x a = (some ⟨.completed, 0, 0, (pageRecords K (rangeFrom (payFld a.body 4 4) (payFld a.body 12 2)) x).1⟩,
      (pageRecords K (rangeFrom (payFld a.body 4 4) (payFld a.body 12 2)) x).2) := by
  have hlegal : ¬ (7 < payFld a.body 1 1 ∨ payFld a.body 12 2 = 0 ∨ a.room / 32 < payFld a.body 12 2) := by omega
  simp only [runKvQuery, hkind, hlegal, if_false, hK, Nat.not_lt.2 hpages]

theorem runKvQuery_root (hkind : payFld a.body 0 1 = 1) (hone : payFld a.body 12 2 = 1) (hroom : 1088 ≤ a.room) :
    runKvQuery x a = (some ⟨.completed, 0, 0, rootBytes (streamOf x (payFld a.body 8 4))⟩, x) := by
  have hlegal : ¬ (payFld a.body 12 2 ≠ 1 ∨ a.room < 1088) := by omega
  simp only [runKvQuery, hkind, hlegal, if_false]

theorem runKvQuery_entries (hkind : payFld a.body 0 1 = 2) (hlayer : payFld a.body 2 2 ≤ 63) (hsome : payFld a.body 12 2 ≠ 0)
    (hroom : payFld a.body 12 2 ≤ a.room / 4) (hindex : payFld a.body 4 4 + payFld a.body 12 2 ≤ 4096) :
    runKvQuery x a = (some ⟨.completed, 0, 0, (rangeFrom (payFld a.body 4 4) (payFld a.body 12 2)).flatMap
      fun i => toLe 4 (dirBits (streamOf x (payFld a.body 8 4)) (payFld a.body 2 2) i)⟩, x) := by
  have hlegal : ¬ (63 < payFld a.body 2 2 ∨ payFld a.body 12 2 = 0 ∨ a.room / 4 < payFld a.body 12 2
      ∨ 4096 < payFld a.body 4 4 + payFld a.body 12 2) := by omega
  simp only [runKvQuery, hkind, hlegal, if_false]

end

/-- Settles O38: each request's checks pass, and its reply and its state are those of the run. -/
theorem streamRequests : Obligations.StreamRequests := by
  intro s fn m bs a x p rs
  refine ⟨fun h hslot hcount hrecords hfree => ?layout, fun h hsome hroom => ?query, fun h hnumber hrange hempty => ?pool,
    fun h hsome => ⟨fun K hkind hnumber hroom hK hpages => ?records, fun hkind hone hroom => ?root,
      fun hkind hlayer hroom hindex => ?entries⟩⟩
  case layout => exact congrArg _ (serve_replies h (runLayoutSet_sets hslot hcount hrecords hfree))
  case query => exact congrArg _ (serve_replies h (runStreamQuery_replies hsome hroom))
  case pool =>
    intro y u fl fs hloam hfl hsub hfs
    exact congrArg _ (serve_replies h (runKvPoolSet_sets hnumber hrange hempty hloam hfl hsub hfs))
  case records => exact congrArg _ (serve_replies h (runKvQuery_records hkind hnumber hsome hroom hK hpages))
  case root => exact congrArg _ (serve_replies h (runKvQuery_root hkind hone hroom))
  case entries => exact congrArg _ (serve_replies h (runKvQuery_entries hkind hlayer hsome hroom hindex))

end Sys2Proof.Machine
end

section
/-! FRAME. What reads of lines leave, whatever they fire: all but the memories, the functions' windows and configuration spaces, and the
fault state (R334, R529). -/

namespace Sys2Proof.Machine

/-- A part of the state outside the memories, the functions and the fault state. -/
def apartFromReads {γ : Type} (view : State → γ) : Prop :=
  ∀ (s : State) (mem : MemSys) (fns : List Function) (pcie : Pcie) (flt : Faults),
    view { s with mem := mem, fns := fns, pcie := pcie, flt := flt } = view s

section
variable {γ : Type} {view : State → γ} (apart : apartFromReads view)
include apart

theorem raiseEventFn_keeps (s : State) (bit fn : Nat) : view (raiseEventFn s bit fn) = view s := by
  unfold raiseEventFn raiseMsix
  split
  · exact apart s ..
  · split
    · exact apart s ..
    · split <;> exact apart s ..

theorem markFenced_keeps (s : State) (u : FailUnit) : view (markFenced s u) = view s := by
  cases u with
  | channel h => exact (frame_foldl (fun x fn => raiseEventFn_keeps apart x 2 fn) _ _).trans (apart ..)
  | _ => exact apart s ..

/-- A failure that is latched raises its events (R519, R522). -/
theorem latchStorage_keeps (s : State) (u : FailUnit) (det : Nat) (inj : Bool) : view (latchStorage s u det inj) = view s := by
  have hjoin : view (joinHandling s u det inj) = view s := apart ..
  have htell (x : State) : view (tellFence x u) = view x :=
    (frame_foldl (fun x fn => raiseEventFn_keeps apart x 4 fn) _ _).trans (apart ..)
  unfold latchStorage
  dsimp only
  split
  · rfl
  · split
    · exact (htell _).trans ((markFenced_keeps apart ..).trans hjoin)
    · exact hjoin

theorem injected_keeps (s : State) (point target : Nat) : view (injected s point target).2 = view s := by
  unfold injected
  split
  · exact apart s ..
  · rfl

theorem countLoamLine_keeps (s : State) (n : Nat) (inj : Bool) : view (countLoamLine s n inj) = view s := by
  have hcount : view (secondLine s n 16).2 = view s := by
    unfold secondLine
    dsimp only
    split <;> exact apart s ..
  unfold countLoamLine
  dsimp only
  split
  · exact (latchStorage_keeps apart ..).trans hcount
  · exact hcount

theorem countSubLine_keeps (s : State) (h : Nat) (inj : Bool) : view (countSubLine s h inj) = view s := by
  unfold countSubLine
  dsimp only
  split
  · exact (latchStorage_keeps apart ..).trans (apart ..)
  · exact apart s ..

theorem readFires_keeps (s : State) (point target line : Nat) : view (readFires s point target line) = view s := by
  refine Eq.trans ?_ (injected_keeps apart s point target)
  unfold readFires
  generalize (injected s point target).2 = fired
  dsimp only
  split
  · exact apart fired ..
  · split
    · exact (countLoamLine_keeps apart ..).trans (apart fired ..)
    · split
      · exact apart fired ..
      · exact (countSubLine_keeps apart ..).trans (apart fired ..)

theorem fireReads_keeps (s : State) (first : (Nat → Bool) → Option Nat) : view (fireReads s first) = view s := by
  refine frame_foldl (fun x a => ?_) _ _
  dsimp only
  split
  · split
    · exact readFires_keeps apart ..
    · rfl
  · rfl

end

end Sys2Proof.Machine
end

section
/-! SEED_SET (R282 to R285), and the seed that a command takes at its stage B (R284). -/

namespace Sys2Proof.Machine

/-! ### A key erased -/

theorem lookupKey_eraseKey_same {α : Type} (k : Nat) (xs : List (Nat × α)) : lookupKey k (eraseKey k xs) = none := by
  induction xs with
  | nil => rfl
  | cons a r ih =>
    by_cases ha : a.1 = k
    · simpa [eraseKey, ha] using ih
    · simpa [eraseKey, lookupKey, ha] using ih

theorem lookupKey_eraseKey_other {α : Type} {k j : Nat} (xs : List (Nat × α)) (h : j ≠ k) :
    lookupKey j (eraseKey k xs) = lookupKey j xs := by
  induction xs with
  | nil => rfl
  | cons a r ih =>
    by_cases ha : a.1 = k
    · have hj : a.1 ≠ j := fun hj => h (hj.symm.trans ha)
      simpa [eraseKey, lookupKey, ha, ha ▸ hj] using ih
    · simpa [eraseKey, lookupKey, ha] using congrArg (fun o => if a.1 = j then some a.2 else o) ih

/-! ### Stage B (R82, R284) -/

/-- What stage B leaves as it was: the seed slots of every partition, the command and the configuration of every queue, and the time. -/
def atStageB (s : State) : List (List (Nat × W128)) × List (Option Cmd × QueueCfg) × Nat :=
  (s.parts.map (·.seeds), s.queues.map fun Q => (Q.cmd, Q.cfg), s.now)

theorem seedOf_of_seeds {P P' : Partition} (h : P'.seeds = P.seeds) (hdr : Nat) : seedOf P' hdr = seedOf P hdr := by
  simp only [seedOf, h]

theorem seeds_of_atStageB {s t : State} (h : atStageB t = atStageB s) (p : Nat) : (partOf t p).seeds = (partOf s p).seeds := by
  have hseeds (u : State) : (partOf u p).seeds = (atStageB u).1.getD p noPartition.seeds :=
    (List.getD_map u.parts noPartition Partition.seeds).symm
  rw [hseeds, hseeds, h]

theorem queueOf_of_atStageB {s t : State} (h : atStageB t = atStageB s) (q : Nat) :
    (queueOf t q).cmd = (queueOf s q).cmd ∧ (queueOf t q).cfg = (queueOf s q).cfg := by
  have hqueue (u : State) : ((queueOf u q).cmd, (queueOf u q).cfg) = (atStageB u).2.1.getD q (noQueue.cmd, noQueue.cfg) :=
    (List.getD_map u.queues noQueue fun Q => (Q.cmd, Q.cfg)).symm
  rw [← Prod.mk.injEq, hqueue, hqueue, h]

theorem atStageB_setPart {s : State} (p : Nat) {f : Partition → Partition} (h : ∀ P, (f P).seeds = P.seeds) :
    atStageB (setPart s p f) = atStageB s :=
  congrArg (·, s.queues.map fun Q => (Q.cmd, Q.cfg), s.now) (map_modifyAt h s.parts p)

theorem atStageB_setQueue {s : State} (q : Nat) {f : Queue → Queue} (h : ∀ Q, ((f Q).cmd, (f Q).cfg) = (Q.cmd, Q.cfg)) :
    atStageB (setQueue s q f) = atStageB s :=
  congrArg (s.parts.map (·.seeds), ·, s.now) (map_modifyAt (g := fun Q : Queue => (Q.cmd, Q.cfg)) h s.queues q)

theorem atStageB_enterStageB (s : State) (q : Nat) (c : Cmd) : atStageB (enterStageB s q c) = atStageB s := by
  unfold enterStageB
  split
  · rfl
  · exact atStageB_setQueue q fun _ => rfl

theorem atStageB_apartFromReads : apartFromReads atStageB := fun _ _ _ _ _ => rfl

/-- Reads use plots and pass the regulator (R334), which hold no seed. -/
theorem atStageB_useReads (s : State) (p : Nat) (spans : List (Nat × Nat)) : atStageB (useReads s p spans) = atStageB s := by
  have htouch : atStageB (touchPlots s p spans) = atStageB s := atStageB_setPart p fun _ => rfl
  have hcharge (x : State) : atStageB (chargeReads x p spans) = atStageB x := by
    unfold chargeReads
    dsimp only
    split
    · rfl
    · exact atStageB_setPart p fun _ => rfl
  exact (fireReads_keeps atStageB_apartFromReads _ _).trans ((hcharge _).trans htouch)

theorem atStageB_atChecks (s : State) (q : Nat) (Q : Queue) (c : Cmd) : atStageB (atChecks s q Q c) = atStageB s := by
  refine Eq.trans ?_ (atStageB_enterStageB s q c)
  unfold atChecks useLoader
  dsimp only
  split
  · rfl
  · exact atStageB_useReads ..

/-- A command that begins takes its seed (R284). -/
theorem running_takesSeed {s : State} {q : Nat} {c : Cmd} (hcmd : (queueOf s q).cmd = some c) :
    ∃ d, (queueOf (running s q c) q).cmd = some d ∧ d.seed = seedOf (partOf s (queueOf s q).cfg.part) c.hdr ∧ d.start = some s.now := by
  have hstage := atStageB_atChecks s q (queueOf s q) c
  obtain ⟨hbegun, hcfg⟩ := queueOf_of_atStageB hstage q
  have hnow : (atChecks s q (queueOf s q) c).now = s.now := congrArg (·.2.2) hstage
  rw [running, beginRun, queueOf_setQueue_same _ q _ (queue_exists_of_cmd (hbegun.trans hcmd))]
  refine ⟨_, congrArg (Option.map _) (hbegun.trans hcmd), ?_, congrArg some hnow⟩
  exact (congrArg (fun C : QueueCfg => seedOf (partOf _ C.part) c.hdr) hcfg).trans (seedOf_of_seeds (seeds_of_atStageB hstage _) _)

/-! ### SEED_SET -/

/-- A command that points to no structure leaves the loader nothing to read. -/
theorem atChecks_of_no_structure (s : State) (q : Nat) (Q : Queue) {c : Cmd} (h : loaderFields c = []) :
    atChecks s q Q c = enterStageB s q c := by
  simp [atChecks, useLoader, loaderSpans, h]

/-- SEED_SET executes with no partition changed. -/
theorem running_seedSet_parts (s : State) (q : Nat) {c : Cmd} (hop : hOpcode c.hdr = 0x141) : (running s q c).parts = s.parts := by
  have hnone : loaderFields c = [] := by simp [loaderFields, hop]
  obtain ⟨hparts, -⟩ := enterStageB_sameButQueue s q c
  rw [running, atChecks_of_no_structure s q _ hnone]
  exact hparts

/-- The slots of a partition once a SEED_SET has loaded or unloaded one (R282). -/
def seedsAfter (c : Cmd) (seeds : List (Nat × W128)) : List (Nat × W128) :=
  if bitOf c.body 136 then eraseKey (fld c.body 128 8) seeds
  else insertKey (fld c.body 128 8) (BitVec.ofNat 128 (fld c.body 0 128)) seeds

/-- At its commit SEED_SET changes the slots of its partition, and nothing else (R284). -/
theorem atCommit_seedSet (s : State) (p : Nat) {c : Cmd} {r : Result} (hop : hOpcode c.hdr = 0x141) (hdone : isDone r.status = true) :
    atCommit s p c r = setPart s p fun P => { P with seeds := seedsAfter c P.seeds } := by
  unfold atCommit commitSeedSet seedsAfter
  rw [if_pos hop, if_pos hdone]
  split <;> rfl

section
variable {c : Cmd} (seeds : List (Nat × W128))

theorem seedsAfter_loads (h : bitOf c.body 136 = false) :
    lookupKey (fld c.body 128 8) (seedsAfter c seeds) = some (BitVec.ofNat 128 (fld c.body 0 128)) := by
  simpa [seedsAfter, h] using lookupKey_insertKey_same _ _ seeds

theorem seedsAfter_unloads (h : bitOf c.body 136 = true) : lookupKey (fld c.body 128 8) (seedsAfter c seeds) = none := by
  simpa [seedsAfter, h] using lookupKey_eraseKey_same _ seeds

theorem seedsAfter_other {k : Nat} (h : k ≠ fld c.body 128 8) : lookupKey k (seedsAfter c seeds) = lookupKey k seeds := by
  unfold seedsAfter
  split
  · exact lookupKey_eraseKey_other seeds h
  · exact lookupKey_insertKey_other _ seeds h

end

/-- Settles O6: SEED_SET's execution is its result alone, its commit is the change of its slot, and a command that begins takes its seed. -/
theorem seedSetTakesEffectAtCommit : Obligations.SeedSetTakesEffectAtCommit := by
  refine ⟨fun s q Q c h => ?starts, fun s p c r hop hdone hp => ?commits, fun s q op Q c h => ?begins⟩
  case starts =>
    obtain ⟨-, -, -, -, hop, -⟩ := inCheck_some h.1
    exact ⟨congrArg _ (runCommand_starts _ h), running_seedSet_parts s q hop⟩
  case commits =>
    rw [atCommit_seedSet s p hop hdone]
    dsimp only
    rw [partOf_setPart_same s p _ hp]
    exact ⟨seedsAfter_loads _, seedsAfter_unloads _, fun k => seedsAfter_other _, rfl, rfl⟩
  case begins =>
    obtain ⟨rfl, hcmd, -⟩ := inCheck_some h
    exact running_takesSeed hcmd

end Sys2Proof.Machine
end

section
/-! The window fence (R321): what becomes of a command that comes to it, and of one that waits there, as the positions that it reads are
READY, failed or neither. -/

namespace Sys2Proof.Machine

theorem queueOf_setCmd_same (s : State) {q : Nat} (f : Cmd → Cmd) (h : q < s.queues.length) :
    (queueOf (setCmd s q f) q).cmd = (queueOf s q).cmd.map f ∧ (queueOf (setCmd s q f) q).counts = (queueOf s q).counts := by
  rw [setCmd, queueOf_setQueue_same s q _ h]
  exact ⟨rfl, rfl⟩

/-! ### A command that comes to the fence -/

/-- A command with its reads and the positions that they touch. -/
def namingReads (P : Partition) (reads : List (Nat × Nat)) (c : Cmd) : Cmd :=
  { c with windows := (c.windows ++ (windowNeeds P reads).map fun n => (n / 4096, n % 4096)).eraseDups, reads := reads }

def atFence (s : State) (q p : Nat) (reads : List (Nat × Nat)) : State := setCmd s q (namingReads (partOf s p) reads)

/-- A reader that waits is counted, unless it has waited before. -/
def stallCounted (s : State) (q p : Nat) : State :=
  match (queueOf s q).cmd.bind (·.stall) with
  | some _ => s
  | none => countStall s q p

section
variable {s : State} {q p : Nat} {reads : List (Nat × Nat)} (compute : State → State)
  (hfail : windowFailure (partOf s p) (windowNeeds (partOf s p) reads) = none)
include hfail

theorem gated_ready (hready : windowReady (partOf s p) (windowNeeds (partOf s p) reads) = true) :
    gated s q p reads compute
      = afterReads (setReaders (atFence s q p reads) p q (windowNeeds (partOf s p) reads) true) q p reads compute := by
  simp only [gated, hfail, hready, if_true, atFence]
  rfl

theorem gated_waits (hready : windowReady (partOf s p) (windowNeeds (partOf s p) reads) = false) :
    gated s q p reads compute = setCmd (stallCounted (atFence s q p reads) q p) q fun c => { c with waiting := some s.now } := by
  simp only [gated, hfail, hready, Bool.false_eq_true, if_false]
  rfl

end

/-- The count touches no command, no memory and no stream. -/
theorem stallCounted_keeps (s : State) {q : Nat} (p : Nat) (hq : q < s.queues.length) :
    (queueOf (stallCounted s q p) q).cmd = (queueOf s q).cmd ∧ (stallCounted s q p).queues.length = s.queues.length
      ∧ (stallCounted s q p).mem = s.mem ∧ (stallCounted s q p).streams = s.streams := by
  unfold stallCounted
  split
  · exact ⟨rfl, rfl, rfl, rfl⟩
  · exact ⟨(congrArg Queue.cmd (queueOf_setQueue_same s q _ hq) :), modifyAt_length .., rfl, rfl⟩

theorem stallCounted_counts {s : State} {q : Nat} (p : Nat) (hq : q < s.queues.length) (h : (queueOf s q).cmd.bind (·.stall) = none) :
    (queueOf (stallCounted s q p) q).counts.windowStalls = satAdd 32 (queueOf s q).counts.windowStalls 1 := by
  simp only [stallCounted, h]
  exact congrArg (·.counts.windowStalls) (queueOf_setQueue_same s q _ hq)

/-! ### A command that waits at the fence -/

/-- The positions that a command reads, as `windowNeeds` numbers them. -/
def positionsOf (c : Cmd) : List Nat := c.windows.map fun (w, i) => w * 4096 + i

section
variable {s : State} {q since : Nat} {c : Cmd} (hcmd : (queueOf s q).cmd = some c) (hresult : (queueOf s q).result = none)
  (hwaiting : c.waiting = some since) (hpassed : passedFence s (queueOf s q).cfg.part q c = false)

include hcmd hresult hwaiting hpassed

theorem windowFenceRelease_failed {f : Fail} (hfail : windowFailure (partOf s (queueOf s q).cfg.part) (positionsOf c) = some f) :
    windowFenceRelease s q = endEarly (setCmd (stallTime s (queueOf s q).cfg.part (s.now - since)) q fun x => { x with waiting := none }) q
      (queueOf s q).cfg.part f [] 0 := by
  rw [positionsOf] at hfail
  simp only [windowFenceRelease, hcmd, hresult, hwaiting, hfail, hpassed, Bool.false_eq_true, if_false]

variable (hfail : windowFailure (partOf s (queueOf s q).cfg.part) (positionsOf c) = none)
include hfail

theorem windowFenceRelease_starts (hready : windowReady (partOf s (queueOf s q).cfg.part) (positionsOf c) = true) :
    windowFenceRelease s q = afterReads (setReaders (setCmd (stallTime s (queueOf s q).cfg.part (s.now - since)) q
        fun x => { x with waiting := none, stall := some (s.now - since) }) (queueOf s q).cfg.part q (positionsOf c) true) q
      (queueOf s q).cfg.part c.reads fun x => computeOf x q (hOpcode c.hdr) := by
  rw [positionsOf] at hfail hready
  simp only [windowFenceRelease, hcmd, hresult, hwaiting, hfail, hpassed, hready, positionsOf, Bool.not_true, Bool.false_eq_true, if_false]

theorem windowFenceRelease_waits (hready : windowReady (partOf s (queueOf s q).cfg.part) (positionsOf c) = false) :
    windowFenceRelease s q = s := by
  rw [positionsOf] at hfail hready
  simp only [windowFenceRelease, hcmd, hresult, hwaiting, hfail, hpassed, hready, Bool.not_false, Bool.false_eq_true, if_true, if_false]

end

/-- Settles O13: the fence has one outcome for each of what is found of the positions, and waiting changes the command and the counts. -/
theorem windowFenceHolds : Obligations.WindowFenceHolds := by
  refine ⟨?comes, ?waits⟩
  case comes =>
    intro s q p reads compute needs x hfail hq
    refine ⟨gated_ready compute hfail, fun hready => ?_⟩
    have hx : q < (atFence s q p reads).queues.length := hq.trans_eq (modifyAt_length ..).symm
    obtain ⟨hnamed, hcounts⟩ := queueOf_setCmd_same s (namingReads (partOf s p) reads) hq
    obtain ⟨hcmd, hlength, hmem, hstreams⟩ := stallCounted_keeps (atFence s q p reads) p hx
    obtain ⟨hwaits, hcounted⟩ := queueOf_setCmd_same (stallCounted (atFence s q p reads) q p) (fun c => { c with waiting := some s.now })
      (hx.trans_eq hlength.symm)
    dsimp only
    rw [gated_waits compute hfail hready]
    refine ⟨fun c hc => ⟨{ namingReads (partOf s p) reads c with waiting := some s.now }, ?_, rfl, rfl⟩, fun hstall => ?_, hmem, hstreams⟩
    · rw [hwaits, hcmd, atFence, hnamed, hc]
      rfl
    · have hfirst : (queueOf (atFence s q p reads) q).cmd.bind (·.stall) = none := by
        rw [atFence, hnamed, Option.bind_map]
        exact hstall
      rw [hcounted, stallCounted_counts p hx hfirst, atFence, hcounts]
  case waits =>
    intro s q c since p needs ns hcmd hresult hwaiting hpassed
    refine ⟨fun hfail hready => ?ready, fun f hfail => ?failed, fun hfail hready => ?absent⟩
    case ready => exact congrArg _ (windowFenceRelease_starts hcmd hresult hwaiting hpassed hfail hready)
    case failed => exact congrArg _ (windowFenceRelease_failed hcmd hresult hwaiting hpassed hfail)
    case absent => exact congrArg _ (windowFenceRelease_waits hcmd hresult hwaiting hpassed hfail hready)

end Sys2Proof.Machine
end

section
/-! PLOT_MOVE and the mover (R311, R315): the moves that the command reserves, and each end that an active move can have. -/

namespace Sys2Proof.Machine

/-- PLOT_MOVE with its destinations reserved starts the mover. -/
theorem effectPlotMove_reserved {s t : State} {q : Nat} {Q : Queue} {c : Cmd}
    (hreserve : reserveMoves ((pmPlots c.body).foldl (fun z k => if (pmToMove s Q.cfg.part c.body).any (·.2 == k) then z
      else setPlot z Q.cfg.part k (applyPolicy (pmPolicy c.body))) s) Q.cfg.part q c.body (pmToMove s Q.cfg.part c.body) = some t) :
    effectPlotMove s q Q c = runMover t := by
  simp only [effectPlotMove, hreserve]

/-! ### The ends of an active move -/

section
variable {s : State} {p k : Nat} {m : Move} (hmove : s.mem.moves.find? (movesPlot · p k) = some m)
include hmove

theorem plotMoveCommit_unmapped (hplot : plotOf s p k = none) : plotMoveCommit s p k = runMover (releaseMove (settleMove s m) m) := by
  simp only [plotMoveCommit, hmove, hplot]

variable {pl : Plot} (hplot : plotOf s p k = some pl)
include hplot

theorem plotMoveCommit_rehomes (hcause : m.cause = .rehome) :
    plotMoveCommit s p k = runMover (settleMove (rehomePlot s p k pl m.dest) m) := by
  simp only [plotMoveCommit, hmove, hplot, hcause, if_true]

variable (hcause : m.cause ≠ .rehome)
include hcause

theorem plotMoveCommit_unread {x : State} {f : Fail} (hreads : moveReads s p k = (some f, x)) :
    plotMoveCommit s p k = runMover (moveFail (countMoveFailed (settleMove x m) p) m f) := by
  simp only [plotMoveCommit, hmove, hplot, if_neg hcause, hreads]

theorem plotMoveCommit_moves {x t : State} (hreads : moveReads s p k = (none, x))
    (hcopy : copyPlot x p ((moveQueue m).getD 0) k pl m.dest = .ok t) :
    plotMoveCommit s p k = runMover (moveDone (settleMove t m) m) := by
  simp only [plotMoveCommit, hmove, hplot, if_neg hcause, hreads, hcopy]

theorem plotMoveCommit_unplaced {x : State} {f : Fail} (hreads : moveReads s p k = (none, x))
    (hcopy : copyPlot x p ((moveQueue m).getD 0) k pl m.dest = .error f) :
    plotMoveCommit s p k = runMover (moveFail (countMoveFailed (settleMove x m) p) m f) := by
  simp only [plotMoveCommit, hmove, hplot, if_neg hcause, hreads, hcopy]

end

/-- Settles O15: the command comes to its effect, and a move ends as its plot, its cause, its reads and its copy decide. -/
theorem plotsMove : Obligations.PlotsMove := by
  refine ⟨fun s q Q c t hstart => ?command, fun s p k m pl hmove => ⟨fun hplot => ?unmapped, fun hplot hcause => ?rehomes,
    fun bad x hplot hcause hreads => ?copies⟩⟩
  case command =>
    intro x todo y hreserve
    exact congrArg _ ((runCommand_starts _ hstart).trans (effectPlotMove_reserved hreserve))
  case unmapped => exact congrArg _ (plotMoveCommit_unmapped hmove hplot)
  case rehomes => exact congrArg _ (plotMoveCommit_rehomes hmove hplot hcause)
  case copies =>
    refine ⟨fun f hbad => ?unread, fun t hbad hcopy => ?moves, fun f hbad hcopy => ?unplaced⟩ <;> subst hbad
    case unread => exact congrArg _ (plotMoveCommit_unread hmove hplot hcause hreads)
    case moves => exact congrArg _ (plotMoveCommit_moves hmove hplot hcause hreads hcopy)
    case unplaced => exact congrArg _ (plotMoveCommit_unplaced hmove hplot hcause hreads hcopy)

end Sys2Proof.Machine
end

section
/-! Events of the memory tiers: an epoch's end (R317), a far-field timeout (R326, R327, R440), and what patrol scrub finds (R342 to R344). -/

namespace Sys2Proof.Machine

/-! ### Epochs -/

theorem migrationEpoch_ends {s : State} (h : (s.mem.epoch + 1) * 1000000 ≤ s.now) :
    ∃ t, migrationEpoch s = { t with mem := { t.mem with epoch := t.mem.epoch + 1 } } ∧ t = runMover ((List.range 4).foldl migratePart s) :=
  ⟨_, if_neg (Nat.not_lt.2 h), rfl⟩

/-! ### An access that ends early leaves its result -/

theorem queueStates_markUndef (s : State) (id : Nat) : queueStates (markUndef s id) = queueStates s := by
  have hfields (st : Stream) : queueStates (havocState s st) = queueStates s := by
    refine frame_foldl (fun x a => ?_) _ _
    rfl
  unfold markUndef
  split
  · split
    · exact (queueStates_setStream ..).trans (hfields _)
    · rfl
  · rfl

theorem result_endEarly {s : State} {q : Nat} (p : Nat) (f : Fail) (outs : List (Nat × Nat)) (work : Nat) (h : q < s.queues.length) :
    (queueOf (endEarly s q p f outs work) q).result = some (failResult f work) := by
  have hundefined : queueStates ((writtenStreams (queueOf s q)).foldl markUndef (havoc s p q outs)) = queueStates s :=
    (frame_foldl queueStates_markUndef _ _).trans (queueStates_of_standing (standing_havoc ..))
  unfold endEarly
  split
  · exact result_setResult _ (h.trans_eq (queues_length_of_queueStates hundefined).symm)
  · exact result_setResult _ h

theorem result_endRead {s : State} {q : Nat} (p : Nat) (c : Cmd) (f : Fail) (h : q < s.queues.length) :
    (queueOf (endRead s q p c f) q).result = some (failResult f c.done) :=
  result_endEarly p f _ _ (h.trans_eq (modifyAt_length ..).symm)

/-! ### Far-field timeouts -/

section
variable {s : State} {q : Nat} {c : Cmd} (hmove : farMove s q = none) (hrun : (queueOf s q).state = .run)
  (hcmd : (queueOf s q).cmd = some c) (hvisible : hOpcode c.hdr ≠ 0x210)

include hrun hcmd in
/-- A command that executes accesses its reads and its outputs. -/
theorem farSpans_run : farSpans s q = c.reads ++ c.outs := by
  simp [farSpans, hcmd, hrun]

include hmove hrun hcmd hvisible in
theorem farPlots_run : farPlots s q = touches (c.reads ++ c.outs) := by
  funext k
  simp [farPlots, hmove, hcmd, farSpans_run hrun hcmd, hvisible]

include hmove hrun hcmd hvisible in
theorem farFieldEnd_run (hresult : (queueOf s q).result = none)
    (hexpired : farExpired s (queueOf s q).cfg.part (c.start.getD s.now) (touches (c.reads ++ c.outs)) = true) :
    farFieldEnd s q = some (endRead s q (queueOf s q).cfg.part c (failAt .memFarTimeout 0 0)) := by
  simp [farFieldEnd, hmove, hcmd, hrun, undecided, hresult, hvisible, farSpans_run hrun hcmd, hexpired]

end

/-- Whether a test selects a plot of the partition in host memory. -/
def hostPlot (s : State) (p : Nat) (sel : Nat → Bool) : Bool := (partOf s p).plots.any fun e => e.2.home == .host && sel e.1

section
variable {s e : State} {q : Nat} {sel : Nat → Bool} (hend : farFieldEnd s q = some e) (hsel : farPlots s q = sel)
include hend hsel

theorem farFieldTimeout_elsewhere (hhost : hostPlot e (queueOf s q).cfg.part sel = false) : farFieldTimeout s q = e := by
  have hcount : countCpl e (queueOf s q).cfg.part sel = e := if_neg (by simpa [hostPlot] using hhost)
  simp only [farFieldTimeout, hend, hsel, hcount, if_true]

/-- An access to host memory is counted, and a point armed for its owner fires (R529). -/
theorem farFieldTimeout_host (hhost : hostPlot e (queueOf s q).cfg.part sel = true) (hroom : e.pcie.cplTimeout < 2 ^ 32 - 1) :
    farFieldTimeout s q = noteInjected { e with pcie := { e.pcie with cplTimeout := e.pcie.cplTimeout + 1 } } 0x1A (queueOf s q).cfg.owner := by
  have hadd : satAdd 32 e.pcie.cplTimeout 1 = e.pcie.cplTimeout + 1 := min_eq_left (by omega)
  have hcount : countCpl e (queueOf s q).cfg.part sel = { e with pcie := { e.pcie with cplTimeout := e.pcie.cplTimeout + 1 } } :=
    (if_pos hhost).trans (by rw [hadd])
  simp only [farFieldTimeout, hend, hsel, hcount, Nat.succ_ne_self, if_false]

end

/-! ### Patrol scrub -/

/-- With no point armed and no poison at a line scrub finds there what is found. -/
theorem scrubFinds_unarmed {s : State} {line : Nat} (h found : Nat) (hinj : s.flt.inj = []) (hline : linePoisoned s line = false) :
    scrubFinds s h line found = (found, false, s) := by
  simp [scrubFinds, injected, armedPoint, hinj, hline]

/-- What scrub makes of what it finds at a line of channel `h`, as `patrolScrub` numbers it. -/
def scrubbed (s : State) (h line found : Nat) : State :=
  if found = 2 then countSubLine (poisonLine s line) h false
  else if found = 1 then countSubCorrected s h
  else if found = 3 then setSub s h fun c => { c with onDie := satAdd 32 c.onDie 1 }
  else s

theorem scrubbed_clean (s : State) (h line : Nat) : scrubbed s h line 0 = s := rfl
theorem scrubbed_correctable (s : State) (h line : Nat) : scrubbed s h line 1 = countSubCorrected s h := rfl
theorem scrubbed_uncorrectable (s : State) (h line : Nat) : scrubbed s h line 2 = countSubLine (poisonLine s line) h false := rfl
theorem scrubbed_onDie (s : State) (h line : Nat) :
    scrubbed s h line 3 = setSub s h fun c => { c with onDie := satAdd 32 c.onDie 1 } := rfl

theorem patrolScrub_unarmed {s : State} {addr : Nat} (found : Nat) (hsub : isSub (addr / 64 * 64) = true)
    (henabled : unitEnabled s (.channel (channelOf (addr / 64 * 64))) = true)
    (hfailed : unitFailed s (.channel (channelOf (addr / 64 * 64))) = false) (hinj : s.flt.inj = [])
    (hline : linePoisoned s (addr / 64 * 64 / 64) = false) (hlast : addr / 64 * 64 ≠ lastScrubLine (channelOf (addr / 64 * 64))) :
    patrolScrub s addr found = scrubbed s (channelOf (addr / 64 * 64)) (addr / 64 * 64 / 64) found := by
  simp only [patrolScrub, hsub, henabled, hfailed, scrubFinds_unarmed _ found hinj hline, if_neg hlast, scrubbed, Bool.not_true, Bool.or_self,
    Bool.false_eq_true, if_false]

/-- Settles O16: each event branches on its own condition; the result that a far-field timeout leaves is the one of `endEarly`. -/
theorem memoryEventsHappen : Obligations.MemoryEventsHappen := by
  refine ⟨fun s => ⟨fun hover => ?epoch, fun hlasts => congrArg _ (if_pos hlasts), fun line => rfl, fun q c => ?far⟩, fun s addr found => ?scrub⟩
  case epoch =>
    obtain ⟨t, hstep, ht⟩ := migrationEpoch_ends hover
    exact ⟨t, congrArg _ hstep, ht⟩
  case far =>
    intro p e atHost hmove hrun hcmd hresult hvisible hexpired
    have hend := farFieldEnd_run hmove hrun hcmd hvisible hresult hexpired
    have hsel := farPlots_run hmove hrun hcmd hvisible
    exact ⟨result_endRead p c _ (queue_exists_of_cmd hcmd), fun hhost => congrArg _ (farFieldTimeout_elsewhere hend hsel hhost),
      fun hhost hroom => congrArg _ (farFieldTimeout_host hend hsel hhost hroom)⟩
  case scrub =>
    intro a h hsub henabled hfailed hinj hline hlast
    have hscrub : patrolScrub s addr found = scrubbed s h (a / 64) found := patrolScrub_unarmed found hsub henabled hfailed hinj hline hlast
    refine ⟨?clean, ?correctable, ?uncorrectable, ?onDie⟩ <;> rintro rfl
    case clean => exact congrArg _ (hscrub.trans (scrubbed_clean ..))
    case correctable => exact congrArg _ (hscrub.trans (scrubbed_correctable ..))
    case uncorrectable => exact congrArg _ (hscrub.trans (scrubbed_uncorrectable ..))
    case onDie => exact congrArg _ (hscrub.trans (scrubbed_onDie ..))

end Sys2Proof.Machine
end

section
/-! Unmaps in the mover (R313): with no other move waiting each takes place at once, and its plot is gone. -/

namespace Sys2Proof.Machine

/-! ### The plots and the moves of the device -/

/-- The plots of every partition, with the list of moves. -/
def plotsAndMoves (s : State) : List (List (Nat × Plot)) × List Move := (s.parts.map (·.plots), s.mem.moves)

theorem plotOf_of_plotsAndMoves {s t : State} (h : plotsAndMoves t = plotsAndMoves s) (p k : Nat) : plotOf t p k = plotOf s p k := by
  have hplots (u : State) : (partOf u p).plots = (plotsAndMoves u).1.getD p noPartition.plots :=
    (List.getD_map u.parts noPartition Partition.plots).symm
  rw [plotOf, plotOf, hplots, hplots, h]

theorem plotsAndMoves_setPart (s : State) (p : Nat) {f : Partition → Partition} (h : ∀ P, (f P).plots = P.plots) :
    plotsAndMoves (setPart s p f) = plotsAndMoves s := congrArg (·, s.mem.moves) (map_modifyAt h s.parts p)

theorem plotsAndMoves_setPartMem (s : State) (p : Nat) (f : MemCounts → MemCounts) : plotsAndMoves (setPartMem s p f) = plotsAndMoves s :=
  plotsAndMoves_setPart s p fun _ => rfl

theorem plotsAndMoves_uncharge (s : State) (p loam sub : Nat) : plotsAndMoves (uncharge s p loam sub) = plotsAndMoves s :=
  plotsAndMoves_setPart s p fun _ => rfl

theorem plotsAndMoves_regulate (s : State) (p lines : Nat) (write : Bool) : plotsAndMoves (regulate s p lines write) = plotsAndMoves s :=
  plotsAndMoves_setPart s p fun _ => rfl

theorem plotsAndMoves_keyLine (s : State) (line : Nat) : plotsAndMoves (keyLine s line) = plotsAndMoves s := by
  unfold keyLine
  split <;> rfl

theorem plotsAndMoves_drainEntry (s : State) (e : WcbEntry) : plotsAndMoves (drainEntry s e) = plotsAndMoves s := by
  have hpoison (x : State) : plotsAndMoves (poisonCmds x e) = plotsAndMoves x := by
    refine frame_foldl (fun y q => ?_) _ _
    rfl
  unfold drainEntry
  dsimp only
  split
  · exact (hpoison _).trans (plotsAndMoves_regulate ..)
  · refine (plotsAndMoves_regulate ..).trans ?_
    split
    · exact plotsAndMoves_keyLine ..
    · exact (plotsAndMoves_setPartMem ..).trans ((plotsAndMoves_regulate ..).trans (plotsAndMoves_keyLine ..))

theorem plotsAndMoves_drainFrame (s : State) (h : Home) : plotsAndMoves (drainFrame s h) = plotsAndMoves s := by
  cases h with
  | subsoil f => exact frame_foldl plotsAndMoves_drainEntry _ _
  | _ => rfl

/-! ### A plot that is unmapped -/

/-- A change of a partition that erases a plot erases that one alone. -/
theorem plotOf_setPart_erases (s : State) {p k : Nat} {f : Partition → Partition} (h : ∀ P, (f P).plots = eraseKey k P.plots) (j : Nat) :
    plotOf (setPart s p f) p j = if j = k then none else plotOf s p j := by
  have herased : plotOf (setPart s p f) p j = lookupKey j (eraseKey k (partOf s p).plots) := by
    by_cases hp : p < s.parts.length
    · rw [plotOf, partOf_setPart_same s p f hp, h]
    · rw [plotOf, partOf_beyond (Nat.le_of_not_lt hp), partOf_beyond ((modifyAt_length ..).trans_le (Nat.le_of_not_lt hp))]
      rfl
  rw [herased]
  split
  · next hj => rw [hj, lookupKey_eraseKey_same]
  · next hj => exact lookupKey_eraseKey_other _ hj

section
variable (s : State) (p k : Nat)

theorem plotOf_unmapPlot (j : Nat) : plotOf (unmapPlot p s k) p j = if j = k then none else plotOf s p j := by
  unfold unmapPlot
  split
  · next hnone =>
    split
    · next hj => rw [hj, hnone]
    · rfl
  · next pl hpl =>
    have hfreed (loam sub : Nat) : plotOf (uncharge (drainFrame s pl.home) p loam sub) p j = plotOf s p j :=
      plotOf_of_plotsAndMoves ((plotsAndMoves_uncharge ..).trans (plotsAndMoves_drainFrame s pl.home)) p j
    exact (plotOf_setPart_erases _ (fun _ => rfl) j).trans (by rw [hfreed])

theorem moves_unmapPlot : (unmapPlot p s k).mem.moves = s.mem.moves := by
  unfold unmapPlot
  split
  · rfl
  · next pl hpl => exact congrArg Prod.snd (plotsAndMoves_drainFrame s pl.home)

end

/-! ### A list of unmaps -/

/-- The place of an unmap in the order of plot `k`. -/
def unmapOf (p fn box k : Nat) : Move :=
  { part := p, plot := k, dest := .host, cause := .unmap fn box, index := 0, active := false, writes := [] }

section
variable {p fn box : Nat}

theorem moves_queueUnmaps : ∀ (ks : List Nat) (s : State),
    (ks.foldl (queueUnmap p fn box) s).mem.moves = s.mem.moves ++ ks.map (unmapOf p fn box)
  | [], _ => (List.append_nil _).symm
  | k :: ks, s => by
    rw [List.foldl_cons, moves_queueUnmaps ks]
    exact List.append_assoc ..

theorem sameMove_unmapOf (j k : Nat) : sameMove (unmapOf p fn box j) (unmapOf p fn box k) = decide (j = k) := by
  simp [sameMove, unmapOf, Bool.beq_eq_decide_eq]

/-- The first of a list of unmaps has nothing before it on its plot. -/
theorem find_unmap {s : State} {k : Nat} {ks : List Nat} (h : s.mem.moves = (k :: ks).map (unmapOf p fn box)) :
    (s.mem.moves.find? fun m => unmapMark m && firstOnPlot s m) = some (unmapOf p fn box k) := by
  have hfirst : firstOnPlot s (unmapOf p fn box k) = true := by
    simp [firstOnPlot, h, pageMove, unmapOf, sameMove]
  rw [h]
  exact List.find?_cons_of_pos (Bool.and_eq_true .. ▸ ⟨rfl, hfirst⟩)

/-- An unmap that takes place takes every other of its plot with it. -/
theorem moves_dropUnmap {s : State} {k : Nat} {ks : List Nat} (h : s.mem.moves = (k :: ks).map (unmapOf p fn box)) :
    (dropMove s (unmapOf p fn box k)).mem.moves = (ks.filter fun j => decide (j ≠ k)).map (unmapOf p fn box) := by
  simp [dropMove, h, List.filter_map, sameMove_unmapOf, Function.comp_def]

theorem fillSlots_no_moves (n : Nat) {s : State} (h : s.mem.moves = []) : fillSlots n s = s := by
  cases n with
  | zero => rfl
  | succ n => simp [fillSlots, h, activeMoves, nextMove]

/-- Where only unmaps of one partition stand, the mover unmaps their plots, and no others. -/
theorem fillSlots_unmaps : ∀ (n : Nat) (ks : List Nat) (s : State), s.mem.moves = ks.map (unmapOf p fn box) → ks.length < n →
    (fillSlots n s).mem.moves = [] ∧ ∀ j, plotOf (fillSlots n s) p j = if j ∈ ks then none else plotOf s p j
  | 0, _, _, _, hn => absurd hn (Nat.not_lt_zero _)
  | n + 1, [], s, h, _ => by simpa [fillSlots_no_moves _ h] using h
  | n + 1, k :: ks, s, h, hn => by
    have hstep : fillSlots (n + 1) s = fillSlots n (unmapPlot p (dropMove s (unmapOf p fn box k)) k) := by
      rw [fillSlots, find_unmap h]
      rfl
    have hmoves := (moves_unmapPlot (dropMove s (unmapOf p fn box k)) p k).trans (moves_dropUnmap h)
    have hfuel : (ks.filter fun j => decide (j ≠ k)).length < n := (List.length_filter_le ..).trans_lt (Nat.lt_of_succ_lt_succ hn)
    obtain ⟨hdone, hplots⟩ := fillSlots_unmaps n _ _ hmoves hfuel
    rw [hstep]
    refine ⟨hdone, fun j => ?_⟩
    have hdropped : plotOf (dropMove s (unmapOf p fn box k)) p j = plotOf s p j := rfl
    rw [hplots, plotOf_unmapPlot, hdropped]
    by_cases hj : j = k <;> simp [hj]

end

/-! ### The mover -/

theorem unmapsLeft_no_moves {s : State} (fn box : Nat) (h : s.mem.moves = []) : unmapsLeft s fn box = false := by
  rw [unmapsLeft, h]
  rfl

/-- Commands that end with their moves leave plots and moves alone. -/
theorem plotsAndMoves_settleAllMoves (s : State) : plotsAndMoves (settleAllMoves s) = plotsAndMoves s := by
  refine frame_foldl (fun x q => ?_) _ _
  unfold settleMoves
  dsimp only
  split
  · rfl
  · split
    · rfl
    · split
      · rfl
      · split <;> rfl

theorem plotsAndMoves_runMover (s : State) : plotsAndMoves (runMover s) = plotsAndMoves (fillSlots (s.mem.moves.length + 1) s) :=
  plotsAndMoves_settleAllMoves _

/-- Unmaps that come to a mover without moves take place. -/
theorem runMover_unmaps {s : State} (p fn box : Nat) (ks : List Nat) (h : s.mem.moves = []) :
    unmapsLeft (runMover (ks.foldl (queueUnmap p fn box) s)) fn box = false
      ∧ ∀ k ∈ ks, plotOf (runMover (ks.foldl (queueUnmap p fn box) s)) p k = none := by
  have hqueued : (ks.foldl (queueUnmap p fn box) s).mem.moves = ks.map (unmapOf p fn box) := by rw [moves_queueUnmaps, h, List.nil_append]
  have hrun := plotsAndMoves_runMover (ks.foldl (queueUnmap p fn box) s)
  rw [hqueued, List.length_map] at hrun
  obtain ⟨hdone, hplots⟩ := fillSlots_unmaps (ks.length + 1) ks _ hqueued (Nat.lt_succ_self _)
  exact ⟨unmapsLeft_no_moves fn box ((congrArg Prod.snd hrun).trans hdone),
    fun k hk => (plotOf_of_plotsAndMoves hrun p k).trans ((hplots k).trans (if_pos hk))⟩

end Sys2Proof.Machine
end

section
/-! PLOT_MAP, PLOT_UNMAP, PLOT_QUERY and WINDOW_SET as firmware carries them out (R309, R313, R569 to R571). -/

namespace Sys2Proof.Machine

/-- A request without a reply yet stays TAKEN. -/
theorem serve_continues {s x : State} {fn m code : Nat} {bs : List Byte} {run : State → Asked → Option Reply × State}
    (h : asked s fn m code bs) (hrun : run (taken s fn m) (asking s fn m bs) = (none, x)) : serve s fn m code run = x := by
  rw [serve_asked run h, hrun]

/-- Whether a plot can be unmapped by a request: those of a window go with it (R571). -/
def outsideWindow (pl : Plot) : Bool := match pl.home with | .window _ => false | _ => true

/-- The plots of a partition in a run of `n` from `lo`. -/
def mappedRun (P : Partition) (lo n : Nat) : List Nat := (P.plots.filter fun e => decide (lo ≤ e.1) && decide (e.1 < lo + n)).map (·.1)

/-- The state in which the unmaps of a request have come to the mover. -/
def unmapsCome (x : State) (a : Asked) : State :=
  runMover ((mappedRun (partOf x a.part) (payFld a.body 0 8 / plotBytes) (payFld a.body 8 4)).foldl (queueUnmap a.part a.fn a.box) x)

section
variable {x : State} {a : Asked}

theorem runPlotMap_maps (h : mapRefusal x a.part a.fn a.body = none) :
    runPlotMap x a = (some (plain .completed), plotsMapped x a.part a.fn a.body) := by
  simp only [runPlotMap, h]

section
variable (hbegun : (mbxOf x a.fn a.box).begun = false) (hrun : runRefusal (payFld a.body 0 8) (payFld a.body 8 4) = none)
  (houtside : plotsOk (partOf x a.part) (payFld a.body 0 8 / plotBytes) (payFld a.body 0 8 / plotBytes + payFld a.body 8 4 - 1)
    outsideWindow = true)
  (hmapped : plotsOk (partOf x a.part) (payFld a.body 0 8 / plotBytes) (payFld a.body 0 8 / plotBytes + payFld a.body 8 4 - 1)
    (fun _ => true) = true)
include hbegun hrun houtside hmapped

theorem runPlotUnmap_runs : runPlotUnmap x a = if unmapsLeft (unmapsCome x a) a.fn a.box
    then (none, setMbx (unmapsCome x a) a.fn a.box fun z => { z with begun := true }) else (some (plain .completed), unmapsCome x a) := by
  have hlegal : ¬ (!plotsOk (partOf x a.part) (payFld a.body 0 8 / plotBytes) (payFld a.body 0 8 / plotBytes + payFld a.body 8 4 - 1)
      outsideWindow) = true := by simp [houtside]
  simp only [runPlotUnmap, hbegun, hrun, hmapped, Bool.not_true, Bool.false_eq_true, if_false]
  exact if_neg hlegal

theorem runPlotUnmap_ends (hleft : unmapsLeft (unmapsCome x a) a.fn a.box = false) :
    runPlotUnmap x a = (some (plain .completed), unmapsCome x a) := by
  rw [runPlotUnmap_runs hbegun hrun houtside hmapped, hleft]
  rfl

theorem runPlotUnmap_waits (hleft : unmapsLeft (unmapsCome x a) a.fn a.box = true) :
    runPlotUnmap x a = (none, setMbx (unmapsCome x a) a.fn a.box fun z => { z with begun := true }) := by
  rw [runPlotUnmap_runs hbegun hrun houtside hmapped, if_pos hleft]

end

theorem runPlotQuery_replies (hrun : runRefusal (payFld a.body 0 8) (payFld a.body 8 4) = none) (hroom : payFld a.body 8 4 ≤ a.room / 16) :
    runPlotQuery x a = (some ⟨.completed, 0, 0, (rangeFrom (payFld a.body 0 8 / plotBytes) (payFld a.body 8 4)).flatMap
      fun k => toLe 16 (plotBits (plotOf x a.part k))⟩, x) := by
  simp only [runPlotQuery, hrun, if_neg (Nat.not_lt.2 hroom)]

section
variable (hnumber : payFld a.body 0 1 ≤ 7) (hidle : windowBusy x a.part (payFld a.body 0 1) = false)
include hnumber hidle

theorem runWindowSet_removes (hnone : wsPositions a.body = 0) :
    runWindowSet x a = (some (plain .completed), windowRemoved x a.part (payFld a.body 0 1)) := by
  simp only [runWindowSet, hnone, hidle, Nat.not_lt.2 hnumber, Bool.false_eq_true, or_self, if_true, if_false]

theorem runWindowSet_sets (hsome : wsPositions a.body ≠ 0) (hrange : rangeRefusal (wsBase a.body) (wsPositions a.body * wsPlots a.body) = none)
    (hlegal : windowRefusal (windowRemoved x a.part (payFld a.body 0 1)) a.part a.body = none) :
    runWindowSet x a = (some (plain .completed),
      windowMade (windowRemoved x a.part (payFld a.body 0 1)) a.part (payFld a.body 0 1) a.body) := by
  simp only [runWindowSet, hsome, hidle, hrange, hlegal, Nat.not_lt.2 hnumber, Bool.false_eq_true, or_self, if_false]

end

end

/-- Settles O37: each request's checks pass and its run gives its reply and its state; with no move before them the unmaps take place as
they come. -/
theorem plotRequests : Obligations.PlotRequests := by
  intro s fn m bs a x va n lo
  refine ⟨fun h hlegal => ?map, fun h hrun hbegun houtside hmapped => ?unmap, fun h hrun hroom => ?query,
    fun h hnumber hidle => ⟨fun hnone => ?windowOff, fun hsome hrange hlegal => ?window⟩⟩
  case map => exact congrArg Host.Outcome.next (serve_replies h (runPlotMap_maps hlegal))
  case unmap =>
    intro run y
    refine ⟨fun hleft => ?ends, fun hleft => ?waits, fun hmoves hpart => ?atOnce⟩
    case ends => exact congrArg Host.Outcome.next (serve_replies h (runPlotUnmap_ends hbegun hrun houtside hmapped hleft))
    case waits => exact congrArg Host.Outcome.next (serve_continues h (runPlotUnmap_waits hbegun hrun houtside hmapped hleft))
    case atOnce => exact runMover_unmaps a.part fn m run hmoves
  case query => exact congrArg Host.Outcome.next (serve_replies h (runPlotQuery_replies hrun hroom))
  case windowOff => exact congrArg Host.Outcome.next (serve_replies h (runWindowSet_removes hnumber hidle hnone))
  case window => exact congrArg Host.Outcome.next (serve_replies h (runWindowSet_sets hnumber hidle hsome hrange hlegal))

end Sys2Proof.Machine
end

section
/-! The drill: the commands that start on the channel that they hold (R355, R358, R359, R364), the first step of a descriptor (R360 to R362),
window fills (R320, R324), and what a grant and a bus error make of a channel (R355, R365). -/

namespace Sys2Proof.Machine

/-! ### Commands that start on their channel -/

section
variable {s : State} {q : Nat} {Q : Queue} {c : Cmd} (hholds : holdsChannel s q = true)
include hholds

theorem exec_drillCopy_starts (h : starts s q 0x200 checksDrillCopy Q c) :
    exec (.drillCopy q) s = .next (startDrill (running s q c) q Q c) :=
  congrArg _ ((if_pos hholds).trans (runCommand_starts _ h))

/-- The chain is read before stage B, and the command starts in the state that the reads leave. -/
theorem exec_drillChain_starts {y : State} (hcheck : inCheck s q 0x201 = some (Q, c))
    (hreads : useReads s Q.cfg.part (chainSpans s Q.cfg.part c) = y) (h : starts y q 0x201 checksDrillChain Q c) :
    exec (.drillChain q) s = .next (startDrill (running y q c) q Q c) := by
  have hrun : exec (.drillChain q) s = .next (runCommand y q 0x201 checksDrillChain fun x => startDrill x q) := by
    show execDrillChain q s = _
    simp only [execDrillChain, hholds, hcheck, hreads]
  exact hrun.trans (congrArg _ (runCommand_starts _ h))

theorem exec_drillVisible_starts (h : starts s q 0x210 checksDrillVisible Q c) :
    exec (.drillVisible q) s = .next (effectDrillVisible (running s q c) q Q c) :=
  congrArg _ ((if_pos hholds).trans (runCommand_starts _ h))

theorem exec_windowFill_starts (h : starts s q 0x220 checksWindowFill Q c) :
    exec (.windowFill q) s = .next (effectWindowFill (running s q c) q Q c) := by
  obtain ⟨rfl, -, hstate, -⟩ := inCheck_some h.1
  have hrun : exec (.windowFill q) s = .next (runCommand s q 0x220 checksWindowFill fun x => effectWindowFill x q) := by
    show execWindowFill q s = _
    simp only [execWindowFill, hholds, hstate, Bool.not_true, Bool.false_eq_true, if_false]
  exact hrun.trans (congrArg _ (runCommand_starts _ h))

theorem exec_windowFill_goesOn (hrun : (queueOf s q).state = .run) (hcmd : (queueOf s q).cmd = some c) (hresult : (queueOf s q).result = none)
    (hop : hOpcode c.hdr = 0x220) : exec (.windowFill q) s = .next (effectWindowFill s q (queueOf s q) c) := by
  show execWindowFill q s = _
  simp only [execWindowFill, hholds, hrun, hcmd, hresult, hop, Bool.not_true, Bool.false_eq_true, if_true, if_false]

end

/-- The visibility fence completes where every function whose host writes it flushes may issue requests. -/
theorem effectDrillVisible_result (s : State) (q : Nat) (Q : Queue) (c : Cmd) :
    effectDrillVisible s q Q c = setResult (drainWhere s fun e => e.part == Q.cfg.part) q
      ⟨if (flushFns (drainWhere s fun e => e.part == Q.cfg.part) Q.cfg.part).all
        (mayIssue (drainWhere s fun e => e.part == Q.cfg.part)) then .completed else .memUnmapped, 0, 0, 0⟩ := by
  unfold effectDrillVisible
  dsimp only
  split <;> rfl

/-! ### A descriptor (R360 to R362) -/

/-- The spans that a descriptor writes: its rows, and where it stores its CRC. -/
def ddWrites (d : Nat) : List (Nat × Nat) := ddDstRows d ++ (if ddCrcAddr d = 0 then [] else [(ddCrcAddr d, 4)])

/-- The state in which descriptor `d` of command `c`, at address `va`, moves its bytes: its rows are among the command's outputs, the channel
shows its address, and its plots and lines are used. -/
def descEntered (s : State) (q : Nat) (c : Cmd) (va d : Nat) : State :=
  let p := (queueOf s q).cfg.part
  let u := chCounts (setCmd s q fun k => { k with outs := c.outs ++ ddDstRows d }) (queueOf s q).cfg.channel fun k => { k with curDesc := va }
  touchPlots (useReads u p (ddSrcRows d)) p (ddWrites d)

/-- A descriptor whose lines meet no failure and whose writes the device may issue moves its data. -/
theorem computeDrill_moves {s x y : State} {q va d : Nat} {c : Cmd} (hcmd : (queueOf s q).cmd = some c)
    (hdesc : (channelNo s (queueOf s q).cfg.channel).store[c.done]? = some (va, d))
    (hfires : drillFires (descEntered s q c va d) (queueOf s q).cfg.part (queueOf s q).cfg.channel c.done d = (none, x))
    (hshut : shutOffset x (queueOf s q).cfg.part d = none)
    (hrun : runDesc x (queueOf s q).cfg.part q (queueOf s q).cfg.channel d = .ok y) : computeDrill s q = y := by
  rw [descEntered, ddWrites] at hfires
  simp only [computeDrill, startDesc, hcmd, hdesc, hfires, hshut, hrun]

/-! ### Window fills (R320, R324) -/

section
variable {s : State} {q : Nat} {Q : Queue} {c : Cmd} {w : Window} (hwin : winOf s Q.cfg.part (wfWin c.body) = some w)
  (hwaiting : c.waiting = none)
include hwin hwaiting

/-- A fill that has read nothing takes its number and comes to the window fence. -/
theorem effectWindowFill_numbers (hreads : c.reads = []) :
    effectWindowFill s q Q c = gated (numberFill s q Q.cfg.part c w) q Q.cfg.part [(wfSrc c.body, wfSrcLen c.body)]
      fun x => computeWindowFill x q := by
  simp only [effectWindowFill, hwin, hwaiting, hreads, Option.isSome_none, List.isEmpty_nil, Bool.false_eq_true, if_false, if_true]

theorem effectWindowFill_computes (hreads : c.reads ≠ []) : effectWindowFill s q Q c = computeWindowFill s q := by
  simp only [effectWindowFill, hwin, hwaiting, List.isEmpty_iff, hreads, Option.isSome_none, Bool.false_eq_true, if_false]

end

/-- The slot that fill `k` of a window writes. -/
def slotOfFill (w : Window) (k : Nat) : WinSlot := w.slots.getD (fillSlot w k) { frames := [], st := .empty, readers := [] }

/-- The state in which fill `k` writes its slot. -/
def fillWriting (s : State) (q : Nat) (c : Cmd) (w : Window) (k : Nat) : State :=
  setCmd (setWin s (queueOf s q).cfg.part (wfWin c.body) fun x =>
    setSlotState x (fillSlot w k) (.filling (wfPos c.body) (wfOutLen c.body))) q fun y => { y with fill := some (k, true) }

section
variable {s : State} {q k : Nat} {c : Cmd} {w : Window} {begun : Bool} (hcmd : (queueOf s q).cmd = some c)
  (hwin : winOf s (queueOf s q).cfg.part (wfWin c.body) = some w) (hfill : c.fill = some (k, begun))
include hcmd hwin hfill

theorem computeWindowFill_waits (hslot : slotOpen (slotOfFill w k) = false) : computeWindowFill s q = s := by
  rw [slotOfFill] at hslot
  simp only [computeWindowFill, hcmd, hwin, fillNumberOf, hfill, Option.map_some, hslot, Bool.not_false, if_true]

theorem computeWindowFill_fills {z t : State} {bs : List Byte} (hslot : slotOpen (slotOfFill w k) = true)
    (hfires : hostFires (useReads (fillWriting s q c w k) (queueOf s q).cfg.part c.reads) (queueOf s q).cfg.part c.reads = (none, z))
    (hdata : fillData z (queueOf s q).cfg.part c.body = .ok bs)
    (hframes : fillFrames z (queueOf s q).cfg.part q (slotOfFill w k).frames bs = .ok t) :
    computeWindowFill s q = setResult t q ⟨.completed, 0, 0, 0⟩ := by
  rw [slotOfFill] at hslot hframes
  rw [fillWriting] at hfires
  simp only [computeWindowFill, hcmd, hwin, fillNumberOf, hfill, Option.map_some, hslot, Bool.not_true, Bool.false_eq_true, if_false, hfires,
    hdata, hframes]

end

/-- Settles O14: each command comes to its effect through the channel that it holds; a descriptor moves its data where nothing stops it,
and a fill waits for its slot or writes it. -/
theorem drillCommandsStart : Obligations.DrillCommandsStart := by
  refine ⟨?starts, ?moves, ?numbers, ?fills⟩
  case starts =>
    intro s q Q c hholds p go
    exact ⟨exec_drillCopy_starts hholds, fun hcheck => exec_drillChain_starts hholds hcheck rfl, fun h =>
      (exec_drillVisible_starts hholds h).trans (congrArg _ (effectDrillVisible_result ..))⟩
  case moves =>
    intro s q c va d x y hcmd p n hdesc u v hfires hshut hrun
    exact computeDrill_moves hcmd hdesc hfires hshut hrun
  case numbers =>
    intro s q Q c w x p hholds hstart hwin hwaiting hreads
    exact (exec_windowFill_starts hholds hstart).trans (congrArg _ (effectWindowFill_numbers hwin hwaiting hreads))
  case fills =>
    intro s q k c w begun bs z t p i sl u hholds hstate hcmd hresult hop hwaiting hreads hfill hwin
    have hrun : exec (.windowFill q) s = .next (computeWindowFill s q) :=
      (exec_windowFill_goesOn hholds hstate hcmd hresult hop).trans (congrArg _ (effectWindowFill_computes hwin hwaiting hreads))
    exact ⟨fun hslot => hrun.trans (congrArg _ (computeWindowFill_waits hcmd hwin hfill hslot)),
      fun hslot hfires hdata hframes => hrun.trans (congrArg _ (computeWindowFill_fills hcmd hwin hfill hslot hfires hdata hframes))⟩

/-! ### The grant (R355) -/

theorem drillGrant_takes {s : State} {n q : Nat} {qs : List Nat} (hidle : (channelNo s n).st = .idle) (hfree : (channelNo s n).cur = none)
    (horder : grantOrder s n = q :: qs) : drillGrant s n = setChannel s n fun c => { c with cur := some q, last := q, st := .run } := by
  simp [drillGrant, hidle, hfree, horder]

/-! ### Bus errors (R365) -/

theorem noteInjected_unarmed {s : State} (point target : Nat) (hinj : s.flt.inj = []) : noteInjected s point target = s := by
  simp [noteInjected, injected, armedPoint, hinj]

/-- The command that executes on a channel is the one of the queue that holds it. -/
theorem cmd_of_channelCmd {s : State} {n q : Nat} {c : Cmd} (h : channelCmd s n = some (q, c)) : (queueOf s q).cmd = some c := by
  unfold channelCmd at h
  split at h
  · cases h
  · split at h
    next hcmd =>
      split at h
      · cases h
        exact hcmd
      · cases h
    · cases h

/-- A command is already at its current descriptor. -/
theorem advanceTo_current {s : State} {q : Nat} {c : Cmd} (hcmd : (queueOf s q).cmd = some c) : ∀ k, advanceTo q c.done k s = s
  | 0 => rfl
  | _ + 1 => by simp [advanceTo, hcmd]

/-- An error at a line of the current descriptor, which no armed point has made. -/
theorem drillBusError_current {s : State} {n q off : Nat} {c : Cmd} (hcmd : channelCmd s n = some (q, c)) (hinj : s.flt.inj = [])
    (hawaits : awaitsLine s n c.done off c = true) : drillBusError s n c.done off = lineError s n q c.done off := by
  simp [drillBusError, hcmd, hawaits, noteInjected_unarmed _ _ hinj, advanceTo_current (cmd_of_channelCmd hcmd)]

/-- The entry of a line among a channel's retries: the descriptor, the offset and how often it has been tried again. -/
def lineRetry (ch : Channel) (d off : Nat) : Option (Nat × Nat × Nat) := ch.retry.find? fun e => e.1 == d && e.2.1 == off

/-- The channel tries a line again, for the `k`th time. -/
def lineRetried (d off k : Nat) (ch : Channel) : Channel :=
  { ch with
    retry := (ch.retry.filter fun e => !(e.1 == d && e.2.1 == off)) ++ [(d, off, k)]
    counts := { ch.counts with retries := satAdd 32 ch.counts.retries 1 } }

theorem lineError_first {s : State} {n d off : Nat} (q : Nat) (hnone : lineRetry (channelNo s n) d off = none) :
    lineError s n q d off = setChannel s n (lineRetried d off 1) := by
  rw [lineRetry] at hnone
  simp only [lineError, hnone, Nat.zero_lt_succ, if_true]
  rfl

section
variable {s : State} {n d off k a b : Nat} (q : Nat) (hretry : lineRetry (channelNo s n) d off = some (a, b, k))
include hretry

theorem lineError_again (hk : k < 3) : lineError s n q d off = setChannel s n (lineRetried d off (k + 1)) := by
  rw [lineRetry] at hretry
  simp only [lineError, hretry, hk, if_true]
  rfl

theorem lineError_halts (hk : 3 ≤ k) : lineError s n q d off = haltChannel s n q d off := by
  rw [lineRetry] at hretry
  simp only [lineError, hretry, Nat.not_lt.2 hk, if_false]

end

/-- A channel that halts with MEM_BUS_ERROR. -/
def channelHalted (ch : Channel) : Channel :=
  { ch with
    st := .halted, retry := [], haltStatus := statusCode .memBusError, counts := { ch.counts with halts := satAdd 16 ch.counts.halts 1 } }

/-- The end of the command and the event leave the halted channel as it is. -/
theorem channelNo_haltChannel {s : State} {n : Nat} (q d off : Nat) (hn : n < s.drill.length) :
    channelNo (haltChannel s n q d off) n = channelHalted (channelNo s n) := by
  have hevent (x : State) (p : Nat) : (raiseEvent x 1 p).drill = x.drill :=
    frame_foldl (fun y fn => raiseEventFn_keeps (view := State.drill) (fun _ _ _ _ _ => rfl) y 1 fn) _ _
  have hdrill : (haltChannel s n q d off).drill = (setChannel s n channelHalted).drill :=
    (hevent ..).trans (congrArg Prod.snd (edge_endEarly ..))
  calc channelNo (haltChannel s n q d off) n = channelNo (setChannel s n channelHalted) n := congrArg (·.getD n noChannel) hdrill
    _ = channelHalted (channelNo s n) := channelNo_setChannel_same _ hn

/-- Settles O17: the grant goes to the first of its order; an error at the current descriptor is one of a line, which is tried again or
halts the channel by the count of its retries. -/
theorem drillChannelEvents : Obligations.DrillChannelEvents := by
  refine fun s n => ⟨fun q qs hidle hfree horder => congrArg _ (drillGrant_takes hidle hfree horder), ?error⟩
  case error =>
    intro q c off hcmd hinj _ hawaits ch
    have herror : exec (.drillBusError n c.done off) s = .next (lineError s n q c.done off) :=
      congrArg _ (drillBusError_current hcmd hinj hawaits)
    refine ⟨fun hnone => ?first, fun d o k hretry => ⟨fun hk => ?again, fun hk => ⟨?halts, fun hn => ?halted⟩⟩⟩
    case first => exact herror.trans (congrArg _ (lineError_first q hnone))
    case again => exact herror.trans (congrArg _ (lineError_again q hretry hk))
    case halts => exact herror.trans (congrArg _ (lineError_halts q hretry hk))
    case halted =>
      rw [channelNo_haltChannel q c.done off hn]
      exact ⟨rfl, rfl⟩

end Sys2Proof.Machine
end

section
/-! A reply that goes into a remote buffer: firmware writes an indirect reply's body back into the request's buffer (R389), a write that the
peer has still to acknowledge when the buffer's plots are remote (R364). -/

namespace Sys2Proof.Machine

theorem net_raiseMsix (s : State) (fn entry : Nat) : (raiseMsix s fn entry).net = s.net := by
  unfold raiseMsix
  split
  · rfl
  · split
    · rfl
    · split <;> rfl

/-- Of a reply that is no refusal, the network side sees what the write of its body into an indirect buffer does. -/
theorem net_answer_indirect {s : State} {fn m : Nat} {r : Reply} (hclass : statusClass r.status ≠ 1)
    (hindirect : reqIndirect (mbxOf s fn m) = true) (hbody : (r.body.take (replyRoom (mbxOf s fn m))).isEmpty = false) :
    (answer s fn m r).net = (writeIndirect s fn (mbxOf s fn m) (r.body.take (replyRoom (mbxOf s fn m)))).net := by
  unfold answer
  simp only [replyDetails, if_neg hclass, hindirect, hbody, Bool.not_false, Bool.and_self, if_true]
  split
  · exact net_raiseMsix ..
  · rfl

/-- The queue pairs with writes to remote plots under way (R364). -/
def awaitingAck (n : Net) : List Nat := (n.qps.filter (·.2.unacked)).map (·.1)

/-- A plot at the far end of the queue pair that anchor 0 names. -/
def farPlot : Plot :=
  { home := .remote, anchor := some 0, read := true, write := true, auto := false, moving := false, uses := 0, lastUse := 0 }

/-- An indirect STREAM_QUERY that firmware has taken; its body and the room of 64 bytes for its reply lie in plot 0. -/
def farQuery : Mailbox :=
  { noMailbox with state := .taken, request := toLe 16 (0x0031 + 2 ^ 16 + 16 * 2 ^ 32) ++ toLe 16 (64 * 2 ^ 64) }

/-- A running device whose partition is the physical function's and has plot 0 at a peer, which queue pair 0 reaches; no write is under
way. The peer's bytes are the body of the query: one stream, from stream 0 on (R573). -/
def farReplyState : State :=
  { State.reset with
    boot := { noBoot with dev := .run, fwAlive := true, fwReady := true }
    parts := { noPartition with
      configured := true, cfg := { noPartCfg with bindPf := true, streams := 4096 }
      plots := [(0, farPlot)], anchors := [(0, .remote 0 0 0)] } :: List.replicate 3 noPartition
    mem := { noMem with remote := [(4, 1)] }
    net := { noNet with qps := [(0, newQp 0 0 0)] }
    fns := { noFunction with mailboxes := farQuery :: List.replicate 7 noMailbox } :: List.replicate 4 noFunction }

/-- What STREAM_QUERY replies of stream 0 (R573). -/
def farReply : Reply := ⟨.completed, 0, 0, toLe 64 (streamBits farReplyState (streamOf farReplyState 0))⟩

theorem awaitingAck_farReplyState : awaitingAck farReplyState.net = [] := rfl

/-- The body's write is under way at queue pair 0. -/
theorem awaitingAck_writeIndirect_farReply :
    awaitingAck (writeIndirect farReplyState 0 (mbxOf farReplyState 0 0) (farReply.body.take (replyRoom (mbxOf farReplyState 0 0)))).net = [0] := by
  decide +kernel

theorem awaitingAck_answer_farReply : awaitingAck (answer farReplyState 0 0 farReply).net = [0] := by
  rw [net_answer_indirect (by decide) (by decide +kernel) (by decide +kernel)]
  exact awaitingAck_writeIndirect_farReply

/-- The state and the reply are those of a request that the model serves: the same query, still posted, is taken
and replied, and queue pair 0 then awaits its acknowledgement. -/
theorem exec_streamQuery_farQuery : ∃ t, exec (.streamQuery 0 0) (setMbx farReplyState 0 0 fun M => { M with state := .posted }) = .next t
    ∧ (mbxOf t 0 0).state = .replied ∧ (mbxOf t 0 0).lastStatus = statusCode .completed ∧ awaitingAck t.net = [0] :=
  ⟨_, rfl, by decide +kernel⟩

/-- Refutes O34: a reply does not leave the network side alone. The body of an indirect reply whose buffer lies in a remote plot goes out
through a queue pair, which then awaits the acknowledgement. -/
theorem not_requestsAreReplied : ¬ Obligations.RequestsAreReplied := by
  rintro ⟨reply, -⟩
  obtain ⟨-, -, -, -, -, -, hnet, -⟩ := reply farReplyState 0 0 farReply (by decide) rfl (by decide)
  have hnone := awaitingAck_answer_farReply
  rw [hnet, awaitingAck_farReplyState] at hnone
  exact List.cons_ne_nil _ _ hnone.symm

end Sys2Proof.Machine
end

section
/-! Takers take items (R130 to R133, R405, R468): what a free taker does with the work that is chosen for it, what taking an item from its
source changes at the queue, and what the taker holds then. -/

namespace Sys2Proof.Machine

/-! ### A free taker (R405, R468) -/

/-- The state in which a taker requests: a harrow has completed the item that it held. -/
def requesting (s : State) (harrow : Bool) (i : Nat) : State := if harrow then completeHarrow s i else s

section
variable {s : State} {harrow : Bool} {i : Nat} (hup : takerUp s harrow i = true) (hfree : claimedTaker s harrow i = false)
  (hmay : mayRequest (requesting s harrow i) harrow i = true)
include hup hfree hmay

theorem workItemTake_requests : workItemTake s harrow i = match chooseWork (requesting s harrow i) harrow i with
    | some (q, fb) => startItem (requesting s harrow i) harrow i q fb
    | none => if (takerItems (requesting s harrow i) harrow i).isEmpty then idleTaker (requesting s harrow i) harrow i
        else requesting s harrow i := by
  have hlegal : ¬ (claimedTaker s harrow i || !mayRequest (requesting s harrow i) harrow i) = true := by simp [hfree, hmay]
  unfold workItemTake
  rw [if_neg (by simp [hup])]
  exact (if_neg hlegal).trans rfl

theorem workItemTake_starts {q : Nat} {fb : Bool} (hwork : chooseWork (requesting s harrow i) harrow i = some (q, fb)) :
    workItemTake s harrow i = startItem (requesting s harrow i) harrow i q fb := by
  rw [workItemTake_requests hup hfree hmay, hwork]

theorem workItemTake_idles (hnone : chooseWork (requesting s harrow i) harrow i = none)
    (hempty : takerItems (requesting s harrow i) harrow i = []) : workItemTake s harrow i = idleTaker (requesting s harrow i) harrow i := by
  rw [workItemTake_requests hup hfree hmay, hnone, hempty]
  rfl

end

theorem startItem_granted {x y : State} {harrow : Bool} {i q : Nat} (fb : Bool)
    (h : askStart x (unitNo harrow i) (startCurrent x harrow q) = (true, y)) : startItem x harrow i q fb = takeItem y harrow i q fb := by
  rw [startItem, h]

theorem startItem_waits {x y : State} {harrow : Bool} {i q : Nat} (fb : Bool)
    (h : askStart x (unitNo harrow i) (startCurrent x harrow q) = (false, y)) : startItem x harrow i q fb = y := by
  rw [startItem, h]

/-! ### The source of an item (R130, R133) -/

/-- A queue whose counter has handed out its next item. -/
def counted (Q : Queue) : Queue :=
  { Q with counter := Q.counter + 1, counts := { Q.counts with itemsTaken := satAdd 48 Q.counts.itemsTaken 1 } }

/-- A queue whose item `x` is handed out again. -/
def handedAgain (x : Nat) (Q : Queue) : Queue :=
  { Q with redispatch := Q.redispatch.erase x, counts := { Q.counts with redispatched := satAdd 32 Q.counts.redispatched 1 } }

theorem takeSource_fresh (s : State) (i q x : Nat) : takeSource s i q (.fresh x) = setQueue s q counted := rfl

theorem takeSource_again (s : State) (i q x : Nat) : takeSource s i q (.again x) = setQueue s q (handedAgain x) := rfl

/-! ### What a taker holds (R132) -/

theorem field_takeSource (s : State) (i q : Nat) (src : Source) : (takeSource s i q src).field = s.field := by
  cases src <;> rfl

theorem field_stageTiles (q f : Nat) (tiles : List Nat) (s : State) : (tiles.foldl (stageTile q f) s).field = s.field := by
  refine frame_foldl (view := State.field) (fun x t => ?_) _ _
  unfold stageTile
  split <;> rfl

theorem field_spillItem (s : State) (e q x : Nat) (w : Work) (tiles : List Nat) : (spillItem s e q x w tiles).field = s.field := by
  unfold spillItem
  split <;> rfl

/-- The state in which a taker has taken an item from its source, with the item's input staged. -/
def itemStaged (s : State) (f i q : Nat) (src : Source) (w : Work) : State :=
  if w.grid.haloWidth = 0 then takeSource s i q src
  else (tilesOf w.grid (sourceItem src)).foldl (stageTile q f) (takeSource s i q src)

theorem field_itemStaged (s : State) (f i q : Nat) (src : Source) (w : Work) : (itemStaged s f i q src w).field = s.field := by
  unfold itemStaged
  split
  · exact field_takeSource ..
  · exact (field_stageTiles ..).trans (field_takeSource ..)

/-- The items that each engine of a field holds. -/
def engineItems (F : Field) : List (List Item) := F.engines.map (·.items)

/-- The items that each engine of the device holds. -/
def heldItems (s : State) : List (List Item) := engineItems s.field

theorem items_of_heldItems {s t : State} (h : heldItems t = heldItems s) (i : Nat) : (engineOf t i).items = (engineOf s i).items := by
  have hitems (u : State) : (engineOf u i).items = (heldItems u).getD i noEngine.items :=
    (List.getD_map u.field.engines noEngine Engine.items).symm
  rw [hitems, hitems, h]

theorem engines_length_of_heldItems {s t : State} (h : heldItems t = heldItems s) : t.field.engines.length = s.field.engines.length := by
  simpa [heldItems, engineItems] using congrArg List.length h

theorem heldItems_setEngine (s : State) (e : Nat) {f : Engine → Engine} (h : ∀ E, (f E).items = E.items) :
    heldItems (setEngine s e f) = heldItems s := map_modifyAt h s.field.engines e

theorem heldItems_takeSlots (s : State) (e q : Nat) (w : Work) (tiles : List Nat) : heldItems (takeSlots s e q w tiles) = heldItems s := by
  unfold takeSlots
  split
  · exact heldItems_setEngine s e fun _ => rfl
  · refine frame_foldl (fun x _ => ?_) _ _
    exact heldItems_setEngine x e fun _ => rfl

theorem heldItems_loadOperands (s : State) (e : Nat) : heldItems (loadOperands s e) = heldItems s :=
  heldItems_setEngine _ e fun _ => rfl

/-- The state in which an engine is ready for an item: the item's tiles have their slots or their places in the spill area, and the operands
load. -/
def engineReady (s : State) (e q : Nat) (src : Source) (w : Work) : State :=
  let tiles := tilesOf w.grid (sourceItem src)
  loadOperands (takeSlots (spillItem (itemStaged s (e / 2) e q src w) e q (sourceItem src) w tiles) e q w tiles) e

theorem heldItems_engineReady (s : State) (e q : Nat) (src : Source) (w : Work) : heldItems (engineReady s e q src w) = heldItems s :=
  calc heldItems (engineReady s e q src w)
    _ = heldItems (spillItem (itemStaged s (e / 2) e q src w) e q (sourceItem src) w (tilesOf w.grid (sourceItem src))) :=
      (heldItems_loadOperands ..).trans (heldItems_takeSlots ..)
    _ = heldItems s := congrArg engineItems ((field_spillItem ..).trans (field_itemStaged ..))

theorem engineOf_setEngine_same {s : State} {e : Nat} (f : Engine → Engine) (h : e < s.field.engines.length) :
    engineOf (setEngine s e f) e = f (engineOf s e) := modifyAt_getD_same f _ _ e h

theorem harrowOf_setHarrow_same {s : State} {i : Nat} (f : Harrow → Harrow) (h : i < s.field.harrows.length) :
    harrowOf (setHarrow s i f) i = f (harrowOf s i) := modifyAt_getD_same f _ _ i h

/-- The item that a taker takes from a source. -/
def itemFrom (q : Nat) (src : Source) (w : Work) : Item :=
  { q := q, index := sourceItem src, tiles := tilesOf w.grid (sourceItem src), out := false }

section
variable {s : State} {i q : Nat} {src : Source} {w : Work}

theorem items_takeItem_harrow (fb : Bool) (h : itemSource s true i q = some (src, w)) (hi : i < s.field.harrows.length) :
    (harrowOf (takeItem s true i q fb) i).items = [itemFrom q src w] := by
  have htakes : takeItem s true i q fb
      = setHarrow (itemStaged s i i q src w) i fun H => { H with items := [itemFrom q src w], cur := some (q, fb) } := by
    rw [takeItem, h]
    rfl
  rw [htakes, harrowOf_setHarrow_same _ (by rwa [field_itemStaged])]

theorem items_takeItem_engine (fb : Bool) (h : itemSource s false i q = some (src, w)) (hi : i < s.field.engines.length) :
    (engineOf (takeItem s false i q fb) i).items = (engineOf s i).items ++ [itemFrom q src w] := by
  have htakes : takeItem s false i q fb
      = setEngine (engineReady s i q src w) i fun E => { E with items := E.items ++ [itemFrom q src w], cur := some (q, fb) } := by
    rw [takeItem, h]
    rfl
  have hheld := heldItems_engineReady s i q src w
  rw [htakes, engineOf_setEngine_same _ (engines_length_of_heldItems hheld ▸ hi), items_of_heldItems hheld]

end

/-- Settles O25: the taker does what the choice of work and the limiter's answer say, the source alone changes at the queue, and the item is
put behind what the taker holds. -/
theorem takersTake : Obligations.TakersTake := by
  refine ⟨?taker, fun s i q hq => ⟨?fresh, fun x => ?again⟩, fun s i q fb src w => ⟨?harrow, ?engine⟩⟩
  case taker =>
    intro s harrow i hup x hfree hmay
    refine ⟨fun q fb y hwork hgrant => ?takes, fun q fb y hwork hrefused => ?waits, fun hnone hempty => ?idles⟩
    case takes => exact congrArg Host.Outcome.next ((workItemTake_starts hup hfree hmay hwork).trans (startItem_granted fb hgrant))
    case waits => exact congrArg Host.Outcome.next ((workItemTake_starts hup hfree hmay hwork).trans (startItem_waits fb hrefused))
    case idles => exact congrArg Host.Outcome.next (workItemTake_idles hup hfree hmay hnone hempty)
  case fresh =>
    intro t
    have hsame : queueOf t q = counted (queueOf s q) := queueOf_setQueue_same s q counted hq
    refine ⟨?_, ?_, ?_, fun r hr => queueOf_setQueue_other s counted hr, rfl, rfl⟩ <;> rw [hsame] <;> rfl
  case again =>
    intro t
    have hsame : queueOf t q = handedAgain x (queueOf s q) := queueOf_setQueue_same s q (handedAgain x) hq
    refine ⟨?_, ?_, ?_, fun r hr => queueOf_setQueue_other s (handedAgain x) hr, rfl, rfl⟩ <;> rw [hsame] <;> rfl
  case harrow => exact items_takeItem_harrow fb
  case engine => exact items_takeItem_engine fb

end Sys2Proof.Machine
end

section
/-! QUEUE_ENABLE, QUEUE_DISABLE, QUEUE_RESUME and QUEUE_ABORT as firmware carries them out (R392, R401, R402). -/

namespace Sys2Proof.Machine

/-! ### The time at which a request is carried out -/

theorem now_useReads (s : State) (p : Nat) (spans : List (Nat × Nat)) : (useReads s p spans).now = s.now :=
  congrArg (·.2.2) (atStageB_useReads s p spans)

/-- Reading a request's body takes no time. -/
theorem now_taken (s : State) (fn m : Nat) : (taken s fn m).now = s.now := by
  unfold taken useBody
  split
  · rfl
  · split
    · split
      · exact now_useReads (takenBox s fn m) ..
      · rfl
    · rfl

/-! ### The requests -/

section
variable {x : State} {a : Asked}

theorem runQueueEnable_enables (hshape : enableShape x (payFld a.body 0 2) (queueCfgOf a) = false) (halign : (queueCfgOf a).base % 4096 = 0)
    (hmapped : mappedRead x (queueCfgOf a).part (queueCfgOf a).base (2 ^ (queueCfgOf a).ringLog2) = true) :
    runQueueEnable x a = (some (plain .completed),
      setQueue x (payFld a.body 0 2) fun _ => { noQueue with cfg := queueCfgOf a, state := .empty }) := by
  simp only [runQueueEnable, hshape, halign, hmapped, Bool.not_true, Bool.false_eq_true, ne_eq, not_true, if_false]

theorem runQueueDisable_disables (hq : payFld a.body 0 2 ≤ 255) :
    runQueueDisable x a = (some (plain .completed), disableQueue x (payFld a.body 0 2)) := by
  rw [runQueueDisable, if_neg (Nat.not_lt.2 hq)]

/-- A queue that has been resumed at a time. -/
def resumedAt (now : Nat) (Q : Queue) : Queue := { Q with state := if ringDiff Q.tail Q.head = 0 then .empty else .fetch, since := now }

theorem runQueueResume_resumes (hq : payFld a.body 0 2 ≤ 255) (hhalted : (queueOf x (payFld a.body 0 2)).state = .halted) :
    runQueueResume x a = (some (plain .completed), setQueue x (payFld a.body 0 2) (resumedAt x.now)) := by
  rw [runQueueResume, if_neg (not_or.2 ⟨Nat.not_lt.2 hq, not_not.2 hhalted⟩)]
  rfl

theorem runQueueAbort_aborts {st : Status} {n : Nat} {t : State} (hrange : payFld a.body 0 8 ≤ payFld a.body 8 8)
    (habort : abortRange x (payFld a.body 16 1) (payFld a.body 0 8) (payFld a.body 8 8) = (st, n, t)) :
    runQueueAbort x a = (some ⟨st, 0, 0, toLe 4 n⟩, t) := by
  simp only [runQueueAbort, if_neg (Nat.not_lt.2 hrange), habort]

end

/-! ### A disabled queue (R402) -/

/-- A queue that is cleared reads as an unused one, also where the device has no queue of that number. -/
theorem queueOf_setQueue_cleared (s : State) (q : Nat) : queueOf (setQueue s q fun _ => noQueue) q = noQueue := by
  by_cases hq : q < s.queues.length
  · exact queueOf_setQueue_same s q _ hq
  · exact queueOf_beyond (by simpa [modifyAt_beyond _ _ (Nat.le_of_not_lt hq)] using hq)

theorem queueOf_disableQueue {s : State} {q : Nat} (h : (queueOf s q).state ≠ .disabled) : queueOf (disableQueue s q) q = noQueue := by
  rw [disableQueue, if_neg h]
  exact queueOf_setQueue_cleared ..

/-- Settles O35: each request's checks pass and its run gives its reply and its state, at the time at which it was taken. -/
theorem queueRequests : Obligations.QueueRequests := by
  refine ⟨?_, fun s q _ hstate => queueOf_disableQueue hstate⟩
  intro s fn m bs a x q
  refine ⟨fun h hshape halign hmapped => ?enable, fun h hq => ?disable, fun h hq hhalted => ?resume, fun st n t h hrange habort => ?abort⟩
  case enable => exact congrArg Host.Outcome.next (serve_replies h (runQueueEnable_enables hshape halign hmapped))
  case disable => exact congrArg Host.Outcome.next (serve_replies h (runQueueDisable_disables hq))
  case resume =>
    have hruns := runQueueResume_resumes (a := a) hq hhalted
    rw [now_taken] at hruns
    exact congrArg Host.Outcome.next (serve_replies h hruns)
  case abort => exact congrArg Host.Outcome.next (serve_replies h (runQueueAbort_aborts hrange habort))

end Sys2Proof.Machine
end

section
/-! PARTITION_CONFIG and PARTITION_REMOVE as firmware carries them out (R397, R398, R400, R577): what a drain of the write-combining buffer
leaves of the partitions' claims, and what a configuration may not claim. -/

namespace Sys2Proof.Machine

/-! ### The claims of the partitions -/

/-- Which partitions are configured, with their configurations, and the boot state. -/
def claimsAndBoot (s : State) : List (Bool × PartCfg) × Boot := (s.parts.map fun P => (P.configured, P.cfg), s.boot)

theorem claim_of_claimsAndBoot {s t : State} (h : claimsAndBoot t = claimsAndBoot s) (p : Nat) :
    (partOf t p).configured = (partOf s p).configured ∧ (partOf t p).cfg = (partOf s p).cfg := by
  have hclaim (u : State) : ((partOf u p).configured, (partOf u p).cfg) = (claimsAndBoot u).1.getD p (noPartition.configured, noPartition.cfg) :=
    (List.getD_map u.parts noPartition fun P => (P.configured, P.cfg)).symm
  rw [← Prod.mk.injEq, hclaim, hclaim, h]

theorem claimsAndBoot_setPart (s : State) (p : Nat) {f : Partition → Partition} (h : ∀ P, ((f P).configured, (f P).cfg) = (P.configured, P.cfg)) :
    claimsAndBoot (setPart s p f) = claimsAndBoot s :=
  congrArg (·, s.boot) (map_modifyAt (g := fun P : Partition => (P.configured, P.cfg)) h s.parts p)

theorem claimsAndBoot_regulate (s : State) (p lines : Nat) (write : Bool) : claimsAndBoot (regulate s p lines write) = claimsAndBoot s :=
  claimsAndBoot_setPart s p fun _ => rfl

theorem claimsAndBoot_setPartMem (s : State) (p : Nat) (f : MemCounts → MemCounts) : claimsAndBoot (setPartMem s p f) = claimsAndBoot s :=
  claimsAndBoot_setPart s p fun _ => rfl

theorem claimsAndBoot_keyLine (s : State) (line : Nat) : claimsAndBoot (keyLine s line) = claimsAndBoot s := by
  unfold keyLine
  split <;> rfl

theorem claimsAndBoot_poisonCmds (s : State) (e : WcbEntry) : claimsAndBoot (poisonCmds s e) = claimsAndBoot s :=
  frame_foldl (f := fun x q => failLate x q (uncorrectable (e.line * 64))) (fun _ _ => rfl) _ _

theorem claimsAndBoot_drainEntry (s : State) (e : WcbEntry) : claimsAndBoot (drainEntry s e) = claimsAndBoot s := by
  unfold drainEntry
  dsimp only
  split
  · exact (claimsAndBoot_poisonCmds ..).trans (claimsAndBoot_regulate ..)
  · refine (claimsAndBoot_regulate ..).trans ?_
    split
    · exact claimsAndBoot_keyLine ..
    · exact (claimsAndBoot_setPartMem ..).trans ((claimsAndBoot_regulate ..).trans (claimsAndBoot_keyLine ..))

theorem claimsAndBoot_drainOldest (s : State) (p : Nat) : claimsAndBoot (drainOldest s p) = claimsAndBoot s := by
  unfold drainOldest
  split
  · rfl
  · exact (claimsAndBoot_setPartMem ..).trans (claimsAndBoot_drainEntry ..)

theorem claimsAndBoot_trimWcb (p : Nat) : ∀ (n : Nat) (s : State), claimsAndBoot (trimWcb p n s) = claimsAndBoot s
  | 0, _ => rfl
  | n + 1, s => by
    unfold trimWcb
    split
    · exact (claimsAndBoot_trimWcb p n _).trans (claimsAndBoot_drainOldest s p)
    · rfl

theorem claimsAndBoot_trimAll (s : State) : claimsAndBoot (trimAll s) = claimsAndBoot s :=
  frame_foldl (f := fun x p => trimWcb p x.mem.wcb.length x) (fun _ _ => claimsAndBoot_trimWcb ..) _ _

/-! ### A partition that is configured (R398) -/

theorem parts_leaveCohort (s : State) (id : Nat) : (leaveCohort s id).parts = s.parts := by
  have hstream (f : Stream → Stream) : (setStream s id f).parts = s.parts := by
    unfold setStream
    split <;> rfl
  have hstate (x : State) (gs : List Nat) : (leaveState x gs).parts = x.parts :=
    frame_foldl (view := State.parts) (fun _ _ => by split <;> rfl) _ _
  have hrow (x : State) (n row : Nat) : (releaseRow x n row id).parts = x.parts := by
    unfold releaseRow
    split
    · rfl
    · split
      · rfl
      · dsimp only
        split
        · exact hstate ..
        · rfl
  unfold leaveCohort
  split
  · rfl
  · split
    · rfl
    · exact (hrow ..).trans (hstream _)

theorem parts_freeStreams (s : State) (lo n : Nat) : (freeStreams s lo n).parts = s.parts :=
  frame_foldl (view := State.parts) parts_leaveCohort _ _

/-- The partition that a configuration makes, of a key of its own. -/
def partitionMade (s : State) (c : PartCfg) (bs : List Byte) : Partition :=
  { noPartition with
    configured := true, cfg := c, digest := Config.sha384 bs, tokens := c.regBurst * 4096 * 8, tokenTime := s.now, key := some (Config.freeKey s.free) }

/-- The state in which the partition of a configuration stands among the others, its streams and memories cleared. -/
def partitionStands (s : State) (p : Nat) (c : PartCfg) (bs : List Byte) : State :=
  let cleared := clearField (freeStreams (dropPages (takeFree s 1).2 p) c.firstStream c.streams) c
  setPart cleared p fun _ => partitionMade s c bs

/-- The state in which the partition has its drill channels. -/
def channelsGiven (s : State) (p mask : Nat) : State :=
  (bitsOf 16 mask).foldl (fun x n => setChannel x n fun ch => { ch with part := some p, disable := false, st := .idle }) s

theorem claimsAndBoot_channelsGiven (s : State) (p mask : Nat) : claimsAndBoot (channelsGiven s p mask) = claimsAndBoot s := by
  refine frame_foldl (fun x n => ?_) _ _
  rfl

/-- Bring-up test mode ends (R577). -/
def testModeOver (s : State) : State := { s with boot := { s.boot with testMode := false } }

section
variable (s : State) (p : Nat) (c : PartCfg) (bs : List Byte)

theorem partitionConfigured_eq :
    partitionConfigured s p c bs = trimAll (testModeOver (channelsGiven (partitionStands s p c bs) p c.drillMask)) := rfl

theorem testMode_partitionConfigured : (partitionConfigured s p c bs).boot.testMode = false := by
  rw [partitionConfigured_eq]
  exact congrArg (·.2.testMode) (claimsAndBoot_trimAll _)

theorem claim_partitionConfigured :
    (partOf (partitionConfigured s p c bs) p).configured = (partOf (partitionStands s p c bs) p).configured
      ∧ (partOf (partitionConfigured s p c bs) p).cfg = (partOf (partitionStands s p c bs) p).cfg := by
  obtain ⟨hconfigured, hcfg⟩ :=
    claim_of_claimsAndBoot (claimsAndBoot_trimAll (testModeOver (channelsGiven (partitionStands s p c bs) p c.drillMask))) p
  obtain ⟨hconfigured', hcfg'⟩ := claim_of_claimsAndBoot (claimsAndBoot_channelsGiven (partitionStands s p c bs) p c.drillMask) p
  exact ⟨hconfigured.trans hconfigured', hcfg.trans hcfg'⟩

theorem partOf_partitionStands {p : Nat} (hp : p < s.parts.length) : partOf (partitionStands s p c bs) p = partitionMade s c bs :=
  partOf_setPart_same _ p _ ((parts_freeStreams (dropPages (takeFree s 1).2 p) c.firstStream c.streams).symm ▸ hp)

end

/-! ### A partition that is removed (R400) -/

/-- A partition that is cleared reads as an unconfigured one, also where the device has none of that number. -/
theorem partOf_setPart_cleared (s : State) (p : Nat) : partOf (setPart s p fun _ => noPartition) p = noPartition := by
  by_cases hp : p < s.parts.length
  · exact partOf_setPart_same s p _ hp
  · exact partOf_beyond (by simpa [modifyAt_beyond _ _ (Nat.le_of_not_lt hp)] using hp)

theorem partOf_partitionRemoved (s : State) (p : Nat) : partOf (partitionRemoved s p) p = noPartition := partOf_setPart_cleared ..

/-! ### What a configuration may claim (R397) -/

theorem cfgTaken_of_accepted {s : State} {p : Nat} {c : PartCfg} {bs : List Byte} (h : cfgRefusal s p c bs = none) : cfgTaken s c = false := by
  by_contra htaken
  rw [Bool.not_eq_false] at htaken
  simp only [cfgRefusal, htaken, if_true] at h
  split at h
  · cases h
  · split at h <;> cases h

theorem cfgMeets_of_not_taken {s : State} {r : Nat} {c : PartCfg} (h : cfgTaken s c = false) (hr : r < s.parts.length)
    (hconfigured : (partOf s r).configured = true) : cfgMeets c (partOf s r).cfg = false := by
  have hmem : partOf s r ∈ s.parts := by
    rw [partOf, List.getD_eq_getElem _ _ hr]
    exact List.getElem_mem hr
  have hmeets := List.any_eq_false.1 h _ hmem
  simpa [hconfigured] using hmeets

/-! ### The requests -/

section
variable {x : State} {a : Asked}

theorem runPartitionConfig_configures (h : cfgRefusal x (payFld a.body 0 1) (cfgOf a.body) a.body = none) :
    runPartitionConfig x a = (some (plain .completed), partitionConfigured x (payFld a.body 0 1) (cfgOf a.body) a.body) := by
  unfold runPartitionConfig
  simp only [h]

theorem runPartitionRemove_removes (hp : payFld a.body 0 1 ≤ 3) (hconfigured : (partOf x (payFld a.body 0 1)).configured = true) :
    runPartitionRemove x a = (some (plain .completed), partitionRemoved x (payFld a.body 0 1)) := by
  rw [runPartitionRemove, if_neg (not_or.2 ⟨Nat.not_lt.2 hp, by simp [hconfigured]⟩)]

end

/-- Settles O36: each request's checks pass and its run gives its state; the trim of the write-combining buffer leaves the new claim as it is,
and the third check of a configuration is that it meets none of the others. -/
theorem partitionRequests : Obligations.PartitionRequests := by
  refine ⟨?_, fun s p r bs h hr hconfigured => cfgMeets_of_not_taken (cfgTaken_of_accepted h) hr hconfigured⟩
  intro s fn m bs x p
  refine ⟨fun h hlegal => ⟨?configures, testMode_partitionConfigured .., fun hp => ?claim⟩,
    fun h hp hconfigured => ⟨?removes, partOf_partitionRemoved ..⟩⟩
  case configures => exact congrArg Host.Outcome.next (serve_replies h (runPartitionConfig_configures hlegal))
  case claim =>
    obtain ⟨hconfigured, hcfg⟩ := claim_partitionConfigured x p (cfgOf bs) bs
    have hmade := partOf_partitionStands x (cfgOf bs) bs hp
    exact ⟨hconfigured.trans (congrArg (·.configured) hmade), hcfg.trans (congrArg (·.cfg) hmade)⟩
  case removes => exact congrArg Host.Outcome.next (serve_replies h (runPartitionRemove_removes hp hconfigured))

end Sys2Proof.Machine
end

section
/-! FRAME. What the open steps settle, when a tick latches or a signal arrives, is outside the tick unit (R420 to R425). -/

namespace Sys2Proof.Machine

/-! ### Folds, and what reads fire -/

theorem tick_foldl {α : Type} {f : State → α → State} (hf : ∀ x a, (f x a).tick = x.tick) (xs : List α) (s : State) :
    (xs.foldl f s).tick = s.tick := frame_foldl hf xs s

theorem tick_apartFromReads : apartFromReads State.tick := fun _ _ _ _ _ => rfl

@[simp] theorem tick_raiseEvent (s : State) (bit p : Nat) : (raiseEvent s bit p).tick = s.tick :=
  tick_foldl (fun x fn => raiseEventFn_keeps tick_apartFromReads x bit fn) _ _

@[simp] theorem tick_raiseMsix (s : State) (fn entry : Nat) : (raiseMsix s fn entry).tick = s.tick := by
  unfold raiseMsix
  split
  · rfl
  · split
    · rfl
    · split <;> rfl

@[simp] theorem tick_useLines (s : State) (p : Nat) (lines : List Nat) : (useLines s p lines).tick = s.tick := by
  refine (fireReads_keeps tick_apartFromReads _ _).trans ?_
  split <;> rfl

/-! ### Updates of one unit, and the outputs that a command leaves undefined -/

@[simp] theorem tick_setCmd (s : State) (q : Nat) (f : Cmd → Cmd) : (setCmd s q f).tick = s.tick := rfl

@[simp] theorem tick_setResult (s : State) (q : Nat) (r : Result) : (setResult s q r).tick = s.tick := rfl

@[simp] theorem tick_setStream (s : State) (id : Nat) (f : Stream → Stream) : (setStream s id f).tick = s.tick := by
  unfold setStream
  split <;> rfl

@[simp] theorem tick_keyLine (s : State) (line : Nat) : (keyLine s line).tick = s.tick := by
  unfold keyLine
  split <;> rfl

@[simp] theorem tick_poisonCmds (s : State) (e : WcbEntry) : (poisonCmds s e).tick = s.tick :=
  tick_foldl (f := fun x q => failLate x q (uncorrectable (e.line * 64))) (fun _ _ => rfl) _ _

@[simp] theorem tick_drainEntry (s : State) (e : WcbEntry) : (drainEntry s e).tick = s.tick := by
  unfold drainEntry
  dsimp only
  split
  · exact tick_poisonCmds ..
  · split <;> exact tick_keyLine ..

@[simp] theorem tick_drainWhere (s : State) (sel : WcbEntry → Bool) : (drainWhere s sel).tick = s.tick :=
  tick_foldl tick_drainEntry _ _

@[simp] theorem tick_drainOldest (s : State) (p : Nat) : (drainOldest s p).tick = s.tick := by
  unfold drainOldest
  split
  · rfl
  · exact tick_drainEntry ..

@[simp] theorem tick_putPhys (s : State) (a : Nat) (bs : List Byte) : (putPhys s a bs).tick = s.tick := tick_keyLine ..

theorem tick_wcbMerge (s : State) (p q a : Nat) (bs : List Byte) : (wcbMerge s p q a bs).tick = s.tick := by
  unfold wcbMerge
  dsimp only
  split
  · split
    · split
      · exact tick_drainEntry ..
      · rfl
    · exact tick_drainEntry ..
  · split
    · exact tick_drainOldest ..
    · rfl

theorem tick_physStoreLine {s t : State} {p q a : Nat} {bs : List Byte} (h : physStoreLine s p q a bs = .ok t) : t.tick = s.tick := by
  unfold physStoreLine at h
  dsimp only at h
  split at h
  · split at h <;> cases h
    · exact tick_putPhys ..
    · exact tick_wcbMerge ..
  · split at h <;> cases h
    exact tick_putPhys ..

theorem tick_physStore {s t : State} {p q a : Nat} {bs : List Byte} (h : physStore s p q a bs = .ok t) : t.tick = s.tick :=
  frame_foldlM tick_physStoreLine h

theorem tick_storeLine {s t : State} {p q va : Nat} {bs : List Byte} (h : storeLine s p q va bs = .ok t) : t.tick = s.tick := by
  unfold storeLine storeHome at h
  split at h
  · cases h; rfl
  · split at h
    · cases h
    · exact tick_physStoreLine h
    · cases h; rfl
    · cases h; rfl
    · cases h

theorem tick_storeBytes {s t : State} {p q va : Nat} {bs : List Byte} (h : storeBytes s p q va bs = .ok t) : t.tick = s.tick :=
  frame_foldlM tick_storeLine h

theorem tick_storeOnce {s t : State} {p q va : Nat} {bs : List Byte} (h : storeOnce s p q va bs = .ok t) : t.tick = s.tick := by
  unfold storeOnce at h
  split at h <;> cases h
  next h => exact (tick_storeBytes h :)

@[simp] theorem tick_havoc (s : State) (p q : Nat) (spans : List (Nat × Nat)) : (havoc s p q spans).tick = s.tick := by
  refine tick_foldl (fun x a => ?_) _ _
  dsimp only
  split
  · next h => exact (tick_storeBytes h :)
  · rfl

/-! ### Streams -/

@[simp] theorem tick_havocState (s : State) (st : Stream) : (havocState s st).tick = s.tick := by
  refine tick_foldl (fun x a => ?_) _ _
  rfl

@[simp] theorem tick_markUndef (s : State) (id : Nat) : (markUndef s id).tick = s.tick := by
  unfold markUndef
  split
  · split
    · exact (tick_setStream ..).trans (tick_havocState ..)
    · rfl
  · rfl

@[simp] theorem tick_leaveState (s : State) (gs : List Nat) : (leaveState s gs).tick = s.tick := by
  refine tick_foldl (fun x g => ?_) _ _
  split <;> rfl

@[simp] theorem tick_releaseRow (s : State) (n row id : Nat) : (releaseRow s n row id).tick = s.tick := by
  unfold releaseRow
  split
  · rfl
  · split
    · rfl
    · dsimp only
      split <;> simp

@[simp] theorem tick_leaveCohort (s : State) (id : Nat) : (leaveCohort s id).tick = s.tick := by
  unfold leaveCohort
  split
  · rfl
  · split <;> simp

@[simp] theorem tick_uncharge (s : State) (p loam sub : Nat) : (uncharge s p loam sub).tick = s.tick := rfl

@[simp] theorem tick_freeImage (s : State) (id : Nat) : (freeImage s id).tick = s.tick := by
  unfold freeImage
  split
  · rfl
  · split <;> simp

@[simp] theorem tick_releaseKv (s : State) (id : Nat) : (releaseKv s id).tick = s.tick := by
  unfold releaseKv
  split
  · rfl
  · split
    · rfl
    · refine (tick_setStream ..).trans (tick_foldl (fun x e => ?_) _ _)
      rfl

theorem tick_claimImage {s t : State} {p q units : Nat} {frames : List Nat} {rs : List Record} {o : Option (List Nat)}
    (h : claimImage s p q units frames rs = (o, t)) : t.tick = s.tick := by
  unfold claimImage at h
  dsimp only at h
  split at h
  · cases h; rfl
  · split at h
    · cases h; rfl
    · split at h <;> cases h <;> rfl

@[simp] theorem tick_toParked (s : State) (q id : Nat) (frames : List Nat) : (toParked s q id frames).tick = s.tick := by
  unfold toParked storeParked
  split
  · rfl
  · split
    · exact tick_leaveCohort ..
    · refine (tick_setStream ..).trans ?_
      split
      · next h => exact (tick_physStore h).trans (tick_leaveCohort ..)
      · exact tick_leaveCohort ..

@[simp] theorem tick_loseImage (s : State) (id : Nat) (f : Fail) : (loseImage s id f).tick = s.tick := by
  simp [loseImage, toLost]

@[simp] theorem tick_enterState (s : State) (gs : List Nat) : (enterState s gs).tick = s.tick := by
  refine tick_foldl (fun x g => ?_) _ _
  rfl

theorem tick_joinCohort {s t : State} {id : Nat} (h : joinCohort s id = some t) : t.tick = s.tick := by
  unfold joinCohort at h
  dsimp only at h
  split at h
  · cases h
  · split at h
    · obtain ⟨row, -, rfl⟩ := Option.map_eq_some_iff.1 h
      exact tick_setStream ..
    · split at h <;> cases h
      exact (tick_setStream ..).trans (tick_enterState ..)

@[simp] theorem tick_useImage (s : State) (st : Stream) : (useImage s st).tick = s.tick := by
  unfold useImage
  split <;> simp

@[simp] theorem tick_loadImage (s : State) (st : Stream) (bs : List Byte) : (loadImage s st bs).tick = s.tick := by
  refine frame_foldl (view := fun x : State × List Byte => x.1.tick) (fun x a => ?_) _ _
  rfl

theorem tick_toResident {s t : State} {id : Nat} {o : Option Fail} (h : toResident s id = (o, t)) : t.tick = s.tick := by
  unfold toResident at h
  split at h
  · cases h; rfl
  · split at h
    · cases h; rfl
    · next hjoin =>
      have hjoined := (tick_joinCohort hjoin).trans (tick_useImage ..)
      dsimp only at h
      split at h
      · cases h; simp
      · split at h <;> cases h <;> simp [hjoined]

@[simp] theorem tick_retireStream (s : State) (id : Nat) : (retireStream s id).tick = s.tick := by simp [retireStream]

@[simp] theorem tick_dropReservation (s : State) (p q units : Nat) (frames : List Nat) :
    (dropReservation s p q units frames).tick = s.tick := rfl

/-- A boundary move (R249) parks, resumes or retires its stream, or gives its reservation back. -/
@[simp] theorem tick_boundaryMove (s : State) (p q : Nat) (m : BMove) : (boundaryMove s p q m).2.tick = s.tick := by
  unfold boundaryMove
  dsimp only
  split
  · rfl
  · split
    · split
      · split
        · next hclaim => simp [tick_claimImage hclaim]
        · next hclaim => exact tick_claimImage hclaim
      · rfl
    · split
      · split
        · split
          · next hresume => simp [tick_toResident hresume]
          · next hresume => exact tick_toResident hresume
        · rfl
      · split <;> simp

@[simp] theorem tick_runDeferred (s : State) (p : Nat) : (runDeferred s p).tick = s.tick := by
  refine tick_foldl (fun x m => ?_) _ _
  split <;> simp

/-! ### The commit of a command (R78) -/

@[simp] theorem tick_signalCore (s : State) (p f v : Nat) (err : Bool) : (signalCore s p f v err).tick = s.tick := rfl

theorem tick_settleWcb {s t : State} {q : Nat} {r o : Result} (h : settleWcb s q r = (t, o)) : t.tick = s.tick := by
  unfold settleWcb at h
  dsimp only at h
  split at h
  · cases h; simp
  · split at h
    · split at h <;> cases h <;> simp
    · cases h; simp

@[simp] theorem tick_settleHeld (s : State) (q : Nat) (c : Cmd) (r : Result) : (settleHeld s q c r).tick = s.tick := by
  unfold settleHeld
  dsimp only
  split
  · split <;> rfl
  · rfl

@[simp] theorem tick_undefNamed (s : State) (p : Nat) (c : Cmd) (r : Result) : (undefNamed s p c r).tick = s.tick := by
  unfold undefNamed
  split
  · refine tick_foldl (fun x id => ?_) _ _
    split
    · split <;> simp
    · rfl
  · rfl

@[simp] theorem tick_releaseRows (s : State) (c : Cmd) : (releaseRows s c).tick = s.tick := by
  unfold releaseRows
  split
  · refine tick_foldl (fun x e => ?_) _ _
    dsimp only
    split
    · split <;> simp
    · simp
    · rfl
  · rfl

@[simp] theorem tick_leaveChannel (s : State) (q : Nat) (Q : Queue) (c : Cmd) (r : Result) : (leaveChannel s q Q c r).tick = s.tick := by
  unfold leaveChannel
  split <;> rfl

@[simp] theorem tick_leaveNet (s : State) (q : Nat) (Q : Queue) : (leaveNet s q Q).tick = s.tick := by
  unfold leaveNet
  split <;> rfl

@[simp] theorem tick_giveBack (s : State) (q : Nat) (Q : Queue) (c : Cmd) (r : Result) : (giveBack s q Q c r).tick = s.tick := by
  refine (tick_leaveNet ..).trans ((tick_leaveChannel ..).trans ?_)
  unfold setReaders
  dsimp only
  split <;> rfl

@[simp] theorem tick_commitAttend (s : State) (p : Nat) (c : Cmd) (ok : Bool) : (commitAttend s p c ok).tick = s.tick := by
  unfold commitAttend
  dsimp only
  split
  · refine tick_foldl (fun x a => ?_) _ _
    rfl
  · refine tick_foldl (fun x a => ?_) _ _
    split
    · refine (tick_foldl (fun y i => ?_) _ _).trans (tick_setStream ..)
      split <;> rfl
    · rfl

theorem tick_setPartMem (s : State) (p : Nat) (f : MemCounts → MemCounts) : (setPartMem s p f).tick = s.tick := rfl

theorem tick_setWin (s : State) (p w : Nat) (f : Window → Window) : (setWin s p w f).tick = s.tick := rfl

@[simp] theorem tick_settleFill (s : State) (p : Nat) (c : Cmd) (r : Result) : (settleFill s p c r).tick = s.tick := by
  unfold settleFill
  dsimp only
  split
  · split
    · rfl
    · simp only [tick_setPartMem, apply_ite State.tick, tick_setWin, ite_self]
  · rfl

@[simp] theorem tick_commitSeedSet (s : State) (p : Nat) (c : Cmd) : (commitSeedSet s p c).tick = s.tick := by
  unfold commitSeedSet
  dsimp only
  split <;> rfl

@[simp] theorem tick_atCommit (s : State) (p : Nat) (c : Cmd) (r : Result) : (atCommit s p c r).tick = s.tick := by
  simp [atCommit, apply_ite State.tick]

@[simp] theorem tick_countEnded (s : State) (p : Nat) (st : Status) : (countEnded s p st).tick = s.tick := by
  unfold countEnded
  split <;> rfl

@[simp] theorem tick_writeRecord (s : State) (q : Nat) (Q : Queue) (c : Cmd) (r : Result) : (writeRecord s q Q c r).tick = s.tick := by
  unfold writeRecord
  dsimp only
  split
  · split
    · next h => exact tick_storeOnce h
    · rfl
  · rfl

@[simp] theorem tick_signalOf (s : State) (p : Nat) (c : Cmd) (r : Result) : (signalOf s p c r).tick = s.tick := by
  unfold signalOf
  split <;> simp

@[simp] theorem tick_irqOf (s : State) (Q : Queue) (c : Cmd) : (irqOf s Q c).tick = s.tick := by
  unfold irqOf
  split <;> simp

@[simp] theorem tick_commitBase (s : State) (q : Nat) : (commitBase s q).tick = s.tick := by
  unfold commitBase
  split
  · dsimp only
    generalize hwcb : settleWcb s q _ = x
    have hdrained := tick_settleWcb (t := x.1) (o := x.2) hwcb
    split
    · exact hdrained
    · split <;> simp [hdrained]
  · rfl

/-! ### The end of an open step (R247 to R250) -/

@[simp] theorem tick_undefDirty (s : State) (ids : List Nat) : (undefDirty s ids).tick = s.tick := by
  refine tick_foldl (fun x id => ?_) _ _
  split
  · split <;> simp
  · rfl

@[simp] theorem tick_closeSwath (s : State) (p q : Nat) : (closeSwath s p q).tick = s.tick := rfl

@[simp] theorem tick_stopSwath (s : State) (p : Nat) (w : Swath) (r : Result) : (stopSwath s p w r).tick = s.tick := by simp [stopSwath]

theorem tick_runMoves (p q : Nat) : ∀ (ms : List BMove) (s : State), (runMoves s p q ms).2.tick = s.tick
  | [], _ => rfl
  | m :: ms, s => by
    unfold runMoves
    dsimp only
    refine (tick_runMoves p q ms _).trans ?_
    split
    · rfl
    · exact tick_boundaryMove ..

@[simp] theorem tick_countStep (s : State) (p : Nat) (late : Option Nat) (failed : Nat) : (countStep s p late failed).tick = s.tick := rfl

@[simp] theorem tick_commitSwath (s : State) (p : Nat) (w : Swath) (late : Option Nat) : (commitSwath s p w late).tick = s.tick := by
  have hsteps (f : Stream → Stream) : (w.streams.foldl (fun x id => setStream x id f) (closeSwath s p w.q)).tick = s.tick :=
    tick_foldl (fun x id => tick_setStream x id f) _ _
  unfold commitSwath
  dsimp only
  split
  · simp [tick_runMoves, hsteps]
  · next h => simp [tick_storeOnce h, tick_runMoves, hsteps]

@[simp] theorem tick_settleOne (s : State) : (settleOne s).tick = s.tick := by
  unfold settleOne
  split
  · rfl
  · split
    · simp
    · split <;> simp

theorem tick_settleSwaths : ∀ (n : Nat) (s : State), (settleSwaths n s).tick = s.tick
  | 0, _ => rfl
  | n + 1, s => (tick_settleSwaths n _).trans (tick_settleOne s)

@[simp] theorem tick_settled (s : State) : (settled s).tick = s.tick := tick_settleSwaths ..

/-! ### Commands that end with an abandoned step (R250) -/

@[simp] theorem tick_endEarly (s : State) (q p : Nat) (f : Fail) (outs : List (Nat × Nat)) (work : Nat) :
    (endEarly s q p f outs work).tick = s.tick := by
  unfold endEarly
  split
  · exact (tick_foldl tick_markUndef _ _).trans (tick_havoc ..)
  · rfl

@[simp] theorem tick_finishDesc (s : State) (q : Nat) : (finishDesc s q).tick = s.tick := by
  unfold finishDesc
  split
  · rfl
  · dsimp only
    split
    · next h =>
      refine (tick_setCmd ..).trans ?_
      split at h
      · cases h; rfl
      · exact tick_storeBytes h
    · exact tick_endEarly ..

@[simp] theorem tick_undoStreams (s : State) (q : Nat) (c : Cmd) : (undoStreams s q c).tick = s.tick := by
  have hput (x : State) (id : Nat) (st : Stream) : (putStream x id st).tick = x.tick := rfl
  refine tick_foldl (fun x e => ?_) _ _
  dsimp only
  split
  · unfold undoPark
    split
    · rfl
    · split <;> simp [hput]
  · unfold undoResume
    split
    · rfl
    · split <;> simp [hput]
  · unfold undoChild restoreStream
    split <;> simp [hput]

@[simp] theorem tick_discardItems (s : State) (q : Nat) : (discardItems s q).tick = s.tick := rfl

@[simp] theorem tick_stopEffects (s : State) (q : Nat) (c : Cmd) : (stopEffects s q c).tick = s.tick := by
  have hundef (x : State) : (c.streams.foldl markUndef x).tick = x.tick := tick_foldl tick_markUndef _ _
  have hstall (p ns : Nat) : (stallTime s p ns).tick = s.tick := rfl
  unfold stopEffects
  simp only [tick_havoc, apply_ite State.tick, tick_undoStreams, hundef, ite_self, tick_discardItems]
  split
  · simp only [tick_setCmd, apply_ite State.tick, hstall, ite_self]
  · rfl

@[simp] theorem tick_stopCmd (s : State) (q : Nat) (st : Status) (a : Nat) : (stopCmd s q st a).tick = s.tick := by
  unfold stopCmd
  dsimp only
  split
  · simp
  · split
    · simp
    · split
      · simp
      · simp [apply_ite State.tick, dropMoves]

@[simp] theorem tick_endRange (s : State) (q first last : Nat) (st : Status) : (endRange s q first last st).2.tick = s.tick := by
  unfold endRange
  dsimp only
  split
  · exact tick_stopCmd ..
  · rfl

@[simp] theorem tick_abandonSwath (s : State) (p : Nat) (w : Swath) : (abandonSwath s p w).tick = s.tick := by
  unfold abandonSwath
  refine (tick_foldl (fun x e => ?_) _ _).trans (by simp)
  dsimp only
  split <;> simp

@[simp] theorem tick_arriveSwath (t : Nat) (s : State) (e : Nat × Nat × Bool) : (arriveSwath t s e).tick = s.tick := by
  unfold arriveSwath
  dsimp only
  split
  · rfl
  · simp [apply_ite State.tick]

/-- A tick that latches settles the open steps, and leaves the tick unit (R420). -/
@[simp] theorem tick_latchSwaths (s : State) (n t : Nat) : (latchSwaths s n t).tick = s.tick :=
  (tick_settled _).trans (tick_foldl (tick_arriveSwath t) _ _)

end Sys2Proof.Machine
end

section
/-! The tick unit (R413 to R419): which candidates are ticks, how far the tracked period may move, and what the close of a window does. -/

namespace Sys2Proof.Machine

/-! ### What latches with a tick -/

@[simp] theorem tick_latchTick (s : State) (n t : Nat) : (latchTick s n t).tick = { s.tick with latches := (n, t) :: s.tick.latches } :=
  tick_latchSwaths ..

/-! ### The candidates of each source (R413, R416) -/

/-- Without an armed point, a transition of the configured polarity is a candidate. -/
theorem exec_syncInEdge_candidate {s : State} (hsource : s.tick.source = 1) (hinj : s.flt.inj = []) :
    exec (.syncInEdge (!s.tick.falling)) s = .next (candidate s s.now none) := by
  have hquiet : injected s 0x1E 0 = (false, s) := by simp [injected, armedPoint, hinj]
  refine congrArg Host.Outcome.next ((if_pos ⟨hsource, rfl⟩).trans ?_)
  rw [hquiet]

theorem exec_syncInEdge_other (s : State) : exec (.syncInEdge s.tick.falling) s = .next s := by
  refine congrArg Host.Outcome.next (if_neg ?_)
  simp

theorem exec_ptpBoundary_candidate {s : State} {k : Nat} (hsource : s.tick.source = 2) (hsync : (portOf s s.tick.port).sync = true)
    (hreached : atBoundary s s.tick.port k = true) : exec (.ptpBoundary s.tick.port k) s = .next (candidate s s.now (some k)) :=
  congrArg Host.Outcome.next (if_pos ⟨hsource, rfl, hsync, hreached⟩)

/-- The tick unit's own clock has taken a candidate, and the next arises a period later. -/
def localTaken (s : State) : State := setTick s fun u => { u with localNext := u.localNext + max 1 u.pnom }

theorem exec_localTick_candidate {s : State} (hsource : s.tick.source = 3) (hdue : s.tick.localNext ≤ s.now) :
    exec .localTick s = .next (candidate (localTaken s) s.tick.localNext none) :=
  congrArg Host.Outcome.next (if_pos ⟨hsource, hdue⟩)

/-! ### What becomes of a candidate (R416, R417, R419) -/

section
variable {s : State}

theorem candidate_acquire (t : Nat) (hst : s.tick.st = .acquire) :
    candidate s t none = anchorEdge s (if s.tick.fresh then s.tick.first else lastTick s.tick + 1) t := by
  simp only [candidate, hst]

theorem candidate_acquire_boundary (t k : Nat) (hst : s.tick.st = .acquire) :
    candidate s t (some k) = if lastTick s.tick < k then anchorEdge s k t else refuseEdge s := by
  simp only [candidate, hst]

theorem candidate_waiting (t : Nat) (hwaits : s.tick.st = .track ∨ s.tick.st = .holdover) :
    candidate s t none = if inWindow s.tick t then acceptEdge s (lastTick s.tick + 1) t else refuseEdge s := by
  rcases hwaits with hst | hst <;> simp only [candidate, hst, nextTick, Bool.and_true]

theorem candidate_waiting_boundary (t k : Nat) (hwaits : s.tick.st = .track ∨ s.tick.st = .holdover) :
    candidate s t (some k) = if inWindow s.tick t = true ∧ k = lastTick s.tick + 1 then acceptEdge s k t else refuseEdge s := by
  have hnext : candidate s t (some k) = if inWindow s.tick t = true ∧ k = lastTick s.tick + 1
      then acceptEdge s (lastTick s.tick + 1) t else refuseEdge s := by
    rcases hwaits with hst | hst <;> simp only [candidate, hst, nextTick, Bool.and_eq_true, beq_iff_eq]
  exact hnext.trans (ite_congr rfl (fun h => by rw [h.2]) fun _ => rfl)

end

/-! ### The window and the period (R416) -/

theorem inWindow_iff (u : Tick) (t : Nat) : inWindow u t = true ↔ u.next ≤ t + u.pnom / 4 ∧ t ≤ u.next + u.pnom / 4 := by
  simp [inWindow]

theorem clampInt_bounds {x lo hi : Int} (h : lo ≤ hi) : lo ≤ clampInt x lo hi ∧ clampInt x lo hi ≤ hi := by
  unfold clampInt
  omega

/-- A value that is held within bounds is no farther from one within them than it was. -/
theorem clampInt_near {x y lo hi r : Int} (hlo : lo ≤ y) (hhi : y ≤ hi) (hbelow : y - r ≤ x) (habove : x ≤ y + r) (hr : 0 ≤ r) :
    y - r ≤ clampInt x lo hi ∧ clampInt x lo hi ≤ y + r := by
  unfold clampInt
  omega

theorem nextPeriod_bounds {u : Tick} (d : Int) (hlow : u.pnom - u.pnom / 8 ≤ u.pn) (hhigh : u.pn ≤ u.pnom + u.pnom / 8) :
    u.pnom - u.pnom / 8 ≤ nextPeriod u d ∧ nextPeriod u d ≤ u.pnom + u.pnom / 8
      ∧ nextPeriod u d ≤ u.pn + u.slew * u.pnom / 1000000 ∧ u.pn ≤ nextPeriod u d + u.slew * u.pnom / 1000000 := by
  let r : Int := (u.slew * u.pnom / 1000000 : Nat)
  let e : Int := (u.pnom / 8 : Nat)
  have hr : 0 ≤ r := Int.natCast_nonneg _
  have he : 0 ≤ e := Int.natCast_nonneg _
  have hchange := clampInt_bounds (x := d) (lo := -r) (hi := r) (by omega)
  have hrange := clampInt_bounds (x := u.pn + clampInt d (-r) r) (lo := u.pnom - e) (hi := u.pnom + e) (by omega)
  have hnear := clampInt_near (x := u.pn + clampInt d (-r) r) (y := u.pn) (lo := u.pnom - e) (hi := u.pnom + e) (r := r)
    (by omega) (by omega) (by omega) (by omega) hr
  have hperiod : nextPeriod u d = (clampInt (u.pn + clampInt d (-r) r) (u.pnom - e) (u.pnom + e)).toNat := by
    simp only [nextPeriod, r, e]
    push_cast
    rfl
  rw [hperiod]
  omega

/-- After an acceptance within a window nothing more lies in it: the next window opens after this one has closed. -/
theorem inWindow_acceptEdge {s : State} {t later : Nat} (n : Nat) (hpnom : 0 < s.tick.pnom)
    (hlow : s.tick.pnom - s.tick.pnom / 8 ≤ s.tick.pn) (hhigh : s.tick.pn ≤ s.tick.pnom + s.tick.pnom / 8)
    (hin : inWindow s.tick t = true) (hlater : later ≤ s.tick.next + s.tick.pnom / 4) :
    inWindow (acceptEdge s n t).tick later = false := by
  obtain ⟨hperiod, -⟩ := nextPeriod_bounds ((t : Int) - s.tick.next) hlow hhigh
  obtain ⟨hopens, -⟩ := (inWindow_iff ..).1 hin
  refine Bool.eq_false_iff.2 fun hagain => ?_
  obtain ⟨hnext, -⟩ := (inWindow_iff ..).1 hagain
  simp only [acceptEdge, tick_latchTick, setTick_tick] at hnext
  omega

/-- Settles O42: each event of a source is a candidate, and what becomes of one in a state of the unit is a tick; the period is held
within its bounds, from which it was no farther than the slew. -/
theorem candidatesTick : Obligations.CandidatesTick := by
  refine ⟨fun s => ⟨fun hsource hinj => ?edge, fun k hsource hsync hreached => ?ptp, fun hsource hdue => ?own, inWindow_iff ..⟩,
    fun u d hlow hhigh => nextPeriod_bounds d hlow hhigh⟩
  case edge =>
    rw [exec_syncInEdge_candidate hsource hinj]
    refine ⟨fun hst => ?_, fun hwaits hin => ?_, exec_syncInEdge_other s⟩
    · rw [candidate_acquire _ hst]
    · rw [candidate_waiting _ hwaits, if_pos hin]
  case ptp =>
    rw [exec_ptpBoundary_candidate hsource hsync hreached]
    refine ⟨fun hst hlast => ?_, fun hwaits hin hk => ?_⟩
    · rw [candidate_acquire_boundary _ _ hst, if_pos hlast]
    · rw [candidate_waiting_boundary _ _ hwaits, if_pos ⟨hin, hk⟩]
  case own =>
    rw [exec_localTick_candidate hsource hdue]
    exact ⟨fun hst => congrArg Host.Outcome.next (candidate_acquire (s := localTaken s) _ hst),
      fun hwaits hin => congrArg Host.Outcome.next ((candidate_waiting (s := localTaken s) _ hwaits).trans (if_pos hin))⟩

/-- Settles O43: what becomes of a candidate outside its window, or of another number, is a refusal; the window after an accepted edge
opens when the one of that edge is over. -/
theorem otherCandidatesAreRefused : Obligations.OtherCandidatesAreRefused := by
  refine fun s => ⟨fun hsource hinj hwaits hout => ?edge, fun k hsource hsync => ⟨fun haway => ?away, fun hreached => ?ptp⟩,
    fun hsource hdue hwaits hout => ?own,
    fun n t later hpnom hlow hhigh hin _ hlater => inWindow_acceptEdge n hpnom hlow hhigh hin hlater, fun rising port k _ hsource => ?off⟩
  case edge =>
    rw [exec_syncInEdge_candidate hsource hinj, candidate_waiting _ hwaits, hout]
    rfl
  case away => exact congrArg Host.Outcome.next (if_neg (by simp [haway]))
  case ptp =>
    rw [exec_ptpBoundary_candidate hsource hsync hreached]
    refine ⟨fun hst hlast => ?_, fun hwaits hother => ?_⟩
    · rw [candidate_acquire_boundary _ _ hst, if_neg (Nat.not_lt.2 hlast)]
      rfl
    · rw [candidate_waiting_boundary _ _ hwaits]
      refine congrArg Host.Outcome.next (if_neg ?_)
      rintro ⟨hin, hk⟩
      exact hother.elim (fun hout => Bool.noConfusion (hin.symm.trans hout)) (· hk)
  case own =>
    rw [exec_localTick_candidate hsource hdue, candidate_waiting (s := localTaken s) _ hwaits]
    exact congrArg Host.Outcome.next (if_neg (Bool.eq_false_iff.1 hout))
  case off =>
    exact ⟨congrArg Host.Outcome.next (if_neg (by simp [hsource])), congrArg Host.Outcome.next (if_neg (by simp [hsource])),
      congrArg Host.Outcome.next (if_neg (by simp [hsource]))⟩

/-! ### The close of a window (R418) -/

/-- The unit after a synthesised tick, which has yet to latch. -/
def synthesised (u : Tick) : Tick :=
  { u with st := .holdover, next := u.next + u.pn, misses := u.misses + 1, synth := satAdd 32 u.synth 1 }

/-- The unit after the loss of its source. -/
def sourceLost (u : Tick) : Tick := { u with st := .acquire, pn := u.pnom, next := 0, wasLost := true, losses := satAdd 16 u.losses 1 }

theorem tickWindowClose_closes {s : State} (hwaits : s.tick.st = .track ∨ s.tick.st = .holdover)
    (hclosed : s.tick.next + s.tick.pnom / 4 ≤ s.now) :
    tickWindowClose s = if s.tick.misses < s.tick.holdover
      then latchTick { s with tick := synthesised s.tick } (lastTick s.tick + 1) (s.tick.next + s.tick.pnom / 4)
      else { s with tick := sourceLost s.tick } := by
  refine if_neg ?_
  rcases hwaits with hst | hst <;> simp [hst, windowEnd, Nat.not_lt.2 hclosed]

/-- Settles O44: at the close the unit has missed fewer than holdover ticks in a row, and synthesises one, or not, and loses the source. -/
theorem windowsClose : Obligations.WindowsClose := by
  intro s hwaits u close n
  refine ⟨fun hclosed hmisses => ?synthesised, fun hclosed hmisses => ?lost, fun k t => ?accepted⟩
  case synthesised =>
    exact ⟨_, congrArg Host.Outcome.next ((tickWindowClose_closes hwaits hclosed).trans (if_pos hmisses)), rfl, tick_latchTick ..⟩
  case lost =>
    exact ⟨_, congrArg Host.Outcome.next ((tickWindowClose_closes hwaits hclosed).trans (if_neg (Nat.not_lt.2 hmisses))),
      rfl, rfl, rfl, rfl, rfl⟩
  case accepted =>
    have hlatched : (acceptEdge s k t).tick = _ := tick_latchTick ..
    exact ⟨congrArg Tick.st hlatched, congrArg Tick.misses hlatched, congrArg Tick.latches hlatched, _, rfl⟩

end Sys2Proof.Machine
end

section
/-! What passes with time while no command waits (R412). -/

namespace Sys2Proof.Machine

/-- Channels that work at no command stay as they are. -/
theorem tickDrill_idle {s : State} (h : ∀ n, n < 16 → (channelNo s n).cur = none) : tickDrill s = s := by
  refine List.foldlRecOn (motive := (· = s)) _ _ rfl fun x hx n hn => ?_
  subst hx
  simp only [h n (List.mem_range.1 hn)]

theorem idle_stopped {s : State} (h : s.boot.dev ≠ .run) : idle s = s := if_neg (by simp [h])

/-- The harrows' intake buffers after a nanosecond, which pass nothing on without clocks. -/
def intakesEmptied (s : State) : List Harrow :=
  if s.boot.clocks then s.field.harrows.map fun H => { H with intake := emptyIntake s.pwr.aclk H.intake } else s.field.harrows

theorem idle_running {s : State} (hdev : s.boot.dev = .run) (h : ∀ n, n < 16 → (channelNo s n).cur = none) :
    idle s = { s with now := s.now + 1, field := { s.field with harrows := intakesEmptied s } } := by
  have hdrill : tickDrill { s with now := s.now + 1 } = { s with now := s.now + 1 } := tickDrill_idle h
  refine (if_pos (by simp [hdev])).trans ?_
  dsimp only
  rw [hdrill]
  cases hclocks : s.boot.clocks <;> simp [hclocks, intakesEmptied]

/-- Settles O2: a device that does not run stands still, and in one that runs the time goes on and the buffers empty. -/
theorem stepIdles : Obligations.StepIdles := by
  intro s hpending
  refine ⟨by rw [step, hpending], idle_stopped, fun hidle => ?_⟩
  by_cases hdev : s.boot.dev = .run
  · rw [idle_running hdev hidle, if_pos hdev]
    exact ⟨rfl, intakesEmptied s, rfl⟩
  · rw [idle_stopped hdev, if_neg hdev]
    exact ⟨rfl, s.field.harrows, rfl⟩

end Sys2Proof.Machine
end

section
/-! TICK_CONFIG, BLOB_KEY_SET, PWR_CONFIG and HBM_REPAIR_MARGIN as firmware carries them out (R350, R351, R415, R462, R495). -/

namespace Sys2Proof.Machine

section
variable {x : State} {a : Asked}

theorem runTickConfig_configures (hshape : tickBadShape x a.body = false)
    (hport : payFld a.body 0 1 = 2 → portEnabled x (payFld a.body 2 1) = true) :
    runTickConfig x a = (some (plain .completed), tickConfigured x a.body) := by
  have henabled : ¬ (payFld a.body 0 1 = 2 ∧ portEnabled x (payFld a.body 2 1) = false) := fun ⟨hptp, hoff⟩ =>
    Bool.noConfusion ((hport hptp).symm.trans hoff)
  simp only [runTickConfig, hshape, Bool.false_eq_true, henabled, if_false]

/-! ### BLOB_KEY_SET (R495) -/

theorem runBlobKeySet_clears (hslot : payFld a.body 0 1 ≤ 15) (hop : payFld a.body 1 1 = 0) :
    runBlobKeySet x a = (some (plain .completed),
      setPart x a.part fun P => { P with blobKeys := eraseKey (payFld a.body 0 1) P.blobKeys }) := by
  simp [runBlobKeySet, hop, Nat.not_lt.2 hslot]

theorem runBlobKeySet_generates (hslot : payFld a.body 0 1 ≤ 15) (hop : payFld a.body 1 1 = 2) :
    runBlobKeySet x a = (some (plain .completed),
      setBlobKey (takeFree x 1).2 a.part (payFld a.body 0 1) ⟨Config.freeKey (takeFree x 1).1, 2⟩) := by
  simp [runBlobKeySet, hop, Nat.not_lt.2 hslot]

section
variable {w : Nat} (hslot : payFld a.body 0 1 ≤ 15) (hop : payFld a.body 1 1 = 1) (hwrap : (partOf x a.part).wrapKey = some w)
include hslot hop hwrap

theorem runBlobKeySet_unwraps {key : Nat} (hkey : Config.keyUnwrap w ((a.body.drop 8).take 40) = some key) :
    runBlobKeySet x a = (some (plain .completed), setBlobKey x a.part (payFld a.body 0 1) ⟨key, 1⟩) := by
  simp [runBlobKeySet, hop, Nat.not_lt.2 hslot, hwrap, hkey]

theorem runBlobKeySet_refuses (hkey : Config.keyUnwrap w ((a.body.drop 8).take 40) = none) :
    runBlobKeySet x a = (some (plain .secBlobAuth), x) := by
  simp [runBlobKeySet, hop, Nat.not_lt.2 hslot, hwrap, hkey]

end

/-! ### PWR_CONFIG (R462) and HBM_REPAIR_MARGIN (R350, R351) -/

theorem runPwrConfig_configures (hpl1 : 280 ≤ (pwrCfgOf a.body).pl1 ∧ (pwrCfgOf a.body).pl1 ≤ 520)
    (hpl100 : 280 ≤ (pwrCfgOf a.body).pl100 ∧ (pwrCfgOf a.body).pl100 ≤ 450)
    (htarget : 60 ≤ (pwrCfgOf a.body).target ∧ (pwrCfgOf a.body).target ≤ 95)
    (horder : (pwrCfgOf a.body).pl100 ≤ (pwrCfgOf a.body).pl1) :
    runPwrConfig x a = (some (plain .completed), setPwr x fun P => { P with next := some (pwrCfgOf a.body) }) :=
  if_neg (by omega)

theorem runMargin_repairs {f : Margin} (hlegal : marginRefusal x a.body = none) (hlost : f.lost = false) :
    let h := payFld a.body 0 2
    let n := ((roundsRun (payFld a.body 2 1) f.rounds).map (·.2)).foldl (· + ·) 0
    let hard := payFld a.body 3 1 == 1
    runMargin f x a = (some ⟨.completed, 0, 0, marginReply a.body f⟩,
      { zeroChannel x h with repairs := addRepairs x.repairs h (if hard then n else 0) (if hard then 0 else n) }) := by
  simp only [runMargin, hlegal, hlost, Bool.false_eq_true, if_false]

end

/-- Settles O39: each request's checks pass and its run gives its reply and its state; an unwrapped key goes into its slot where it is
authentic. -/
theorem deviceRequests : Obligations.DeviceRequests := by
  intro s fn m bs a x
  refine ⟨fun h hshape hport => ⟨?tick, rfl, rfl, rfl⟩,
    fun h hslot => ⟨fun hop => ?clears, fun w hop hwrap => ?unwraps, fun hop => ?generates⟩,
    fun h => ?power, fun f h hlegal hlost => ?margin⟩
  case tick => exact congrArg Host.Outcome.next (serve_replies h (runTickConfig_configures hshape hport))
  case clears => exact congrArg Host.Outcome.next (serve_replies h (runBlobKeySet_clears hslot hop))
  case unwraps =>
    split
    · next hkey => exact congrArg Host.Outcome.next (serve_replies h (runBlobKeySet_unwraps hslot hop hwrap hkey))
    · next hkey => exact congrArg Host.Outcome.next (serve_replies h (runBlobKeySet_refuses hslot hop hwrap hkey))
  case generates => exact congrArg Host.Outcome.next (serve_replies h (runBlobKeySet_generates hslot hop))
  case power =>
    intro c hpl1 hpl1' hpl100 hpl100' htarget htarget' horder
    exact congrArg Host.Outcome.next (serve_replies h
      (runPwrConfig_configures ⟨hpl1, hpl1'⟩ ⟨hpl100, hpl100'⟩ ⟨htarget, htarget'⟩ horder))
  case margin => exact congrArg Host.Outcome.next (serve_replies h (runMargin_repairs hlegal hlost))

end Sys2Proof.Machine
end

section
/-! The step, the state after reset (chapters 16 to 18 and 25), and the fields of a completion record (Table 3-3). -/

namespace Sys2Proof.Machine

/-- Settles O1: a step is the dispatch of the front of the queue. -/
theorem stepRunsFront : Obligations.StepRunsFront := fun _ _ _ => rfl

/-! ### The state after reset (R531, R532) -/

theorem queueOf_reset {q : Nat} (hq : q < 256) : queueOf State.reset q = noQueue := List.getD_replicate _ hq

theorem partOf_reset {p : Nat} (hp : p < 4) : partOf State.reset p = noPartition := List.getD_replicate _ hp

theorem fnOf_reset {fn : Nat} (hfn : fn < 5) : fnOf State.reset fn = noFunction := List.getD_replicate _ hfn

theorem mbxOf_reset {fn m : Nat} (hfn : fn < 5) (hm : m < 8) : mbxOf State.reset fn m = noMailbox := by
  rw [mbxOf, fnOf_reset hfn]
  exact List.getD_replicate _ hm

theorem sizes_reset : sizes State.reset = [256, 4, 16, 5, 5, 5, 8] := by
  unfold sizes State.reset
  decide +kernel

theorem stateOk_reset : stateOk State.reset :=
  ⟨⟨rfl, rfl, rfl, List.length_replicate⟩, ⟨List.length_replicate, List.length_replicate, rfl, rfl, rfl⟩, sizes_reset⟩

/-- Settles O3: every table after reset holds one unit as often as the device has it. -/
theorem resetMeetsInvariant : Obligations.ResetMeetsInvariant := by
  refine ⟨stateOk_reset, rfl, rfl, fun q hq => ?queues, fun p hp => ?parts, rfl, rfl, fun fn m hfn hm => ?mailboxes,
    rfl, rfl, rfl, rfl, rfl⟩
  case queues => rw [queueOf_reset hq]; exact ⟨rfl, rfl, rfl, rfl⟩
  case parts => rw [partOf_reset hp]; exact ⟨rfl, fun f => rfl⟩
  case mailboxes => rw [mbxOf_reset hfn hm]; rfl

/-! ### The fields of a completion record -/

/-- What fields of a value, a place and a length spell together. -/
def spelled (fields : List (Nat × Nat × Nat)) : Nat := (fields.map fun (v, lo, len) => putFld v lo len).sum

/-- Fields lie apart between two places, in rising order. -/
def apart (hi : Nat) : Nat → List (Nat × Nat × Nat) → Prop
  | k, [] => k ≤ hi
  | k, (_, lo, len) :: fields => k ≤ lo ∧ apart hi (lo + len) fields

theorem spelled_cons (v lo len : Nat) (fields : List (Nat × Nat × Nat)) :
    spelled ((v, lo, len) :: fields) = putFld v lo len + spelled fields := List.sum_cons

theorem spelled_lt {hi : Nat} : ∀ {fields : List (Nat × Nat × Nat)} {a k : Nat}, a < 2 ^ k → apart hi k fields → a + spelled fields < 2 ^ hi
  | [], _, _, ha, h => ha.trans_le (Nat.pow_le_pow_right (by decide) h)
  | (v, lo, len) :: _, _, _, ha, ⟨hk, h⟩ => by
    rw [spelled_cons, ← Nat.add_assoc]
    exact spelled_lt (add_putFld_lt v (ha.trans_le (Nat.pow_le_pow_right (by decide) hk)) le_rfl) h

theorem dvd_spelled {hi : Nat} : ∀ {fields : List (Nat × Nat × Nat)} {k : Nat}, apart hi k fields → 2 ^ k ∣ spelled fields
  | [], _, _ => dvd_zero _
  | (v, lo, len) :: _, k, ⟨hk, h⟩ => by
    rw [spelled_cons]
    exact (dvd_putFld v len hk).add ((pow_dvd_pow 2 (by omega)).trans (dvd_spelled h))

/-- Fields that lie apart are each read back. -/
theorem fld_spelled {hi v lo len : Nat} : ∀ {fields : List (Nat × Nat × Nat)} {a k : Nat}, a < 2 ^ k → apart hi k fields →
    (v, lo, len) ∈ fields → v < 2 ^ len → fld (a + spelled fields) lo len = v
  | (v', lo', len') :: fields, a, k, ha, ⟨hk, h⟩, hmem, hv => by
    have ha' : a < 2 ^ lo' := ha.trans_le (Nat.pow_le_pow_right (by decide) hk)
    rw [spelled_cons, ← Nat.add_assoc]
    rcases List.mem_cons.1 hmem with heq | hmem
    · obtain ⟨rfl, rfl, rfl⟩ := heq
      exact (fld_between v ha' (dvd_spelled h)).trans (Nat.mod_eq_of_lt hv)
    · exact fld_spelled (add_putFld_lt v' ha' le_rfl) h hmem hv

/-- The fields of Table 3-3 that the model sets. -/
def recordFields (s : State) (q : Nat) (Q : Queue) (c : Cmd) (r : Result) : List (Nat × Nat × Nat) :=
  [(statusCode r.status, 0, 16), (hOpcode c.hdr, 28, 12), (q, 40, 8), (Q.cfg.part, 48, 2), (1, 63, 1), (Q.seq, 128, 64),
    (hUserTag c.hdr, 192, 64), (startTime s c, 256, 64), (s.now, 320, 64), (r.a, 384, 32), (r.b, 416, 32), (r.work, 448, 32)]

theorem recordBits_spelled (s : State) (q : Nat) (Q : Queue) (c : Cmd) (r : Result) :
    recordBits s q Q c r = spelled (recordFields s q Q c r) := by
  have hnil : spelled [] = 0 := rfl
  simp only [recordBits, recordFields, spelled_cons, hnil, Nat.add_assoc, Nat.add_zero]

theorem recordFields_apart (s : State) (q : Nat) (Q : Queue) (c : Cmd) (r : Result) : apart 512 0 (recordFields s q Q c r) := by
  simp only [recordFields, apart]
  omega

/-- A field of the record whose value fits it. -/
theorem fld_recordBits {s : State} {q : Nat} {Q : Queue} {c : Cmd} {r : Result} {v lo len : Nat}
    (hmem : (v, lo, len) ∈ recordFields s q Q c r) (hv : v < 2 ^ len) : fld (recordBits s q Q c r) lo len = v := by
  rw [recordBits_spelled, ← Nat.zero_add (spelled _)]
  exact fld_spelled (by decide) (recordFields_apart s q Q c r) hmem hv

theorem statusCode_lt (st : Status) : statusCode st < 2 ^ 16 := by cases st <;> decide

theorem fld_lt (x lo len : Nat) : fld x lo len < 2 ^ len := Nat.mod_lt _ (by positivity)

/-- Settles O7: the record's fields lie apart within 512 bits, and each value fits its field. -/
theorem recordHasItsFields : Obligations.RecordHasItsFields := by
  intro s q Q c r hq hpart hseq hnow hstart ha hb hwork x
  have at_field {v lo len : Nat} (hv : v < 2 ^ len) (hmem : (v, lo, len) ∈ recordFields s q Q c r) : fld x lo len = v :=
    fld_recordBits hmem hv
  refine ⟨at_field (statusCode_lt _) ?_, at_field (fld_lt ..) ?_, at_field hq ?_, at_field hpart ?_, at_field (by decide) ?_,
    at_field hseq ?_, at_field (fld_lt ..) ?_, at_field hstart ?_, at_field hnow ?_, at_field ha ?_, at_field hb ?_, at_field hwork ?_, ?bound⟩
  case bound =>
    have := spelled_lt (a := 0) (by decide) (recordFields_apart s q Q c r)
    rwa [Nat.zero_add, ← recordBits_spelled] at this
  all_goals simp [recordFields]

end Sys2Proof.Machine
end

section
/-! MCTP control and PLDM messages (R538 to R543): what a message on a binding that is up is answered, and by whom. -/

namespace Sys2Proof.Machine

section
variable {s : State} {i3c : Bool} (hup : bindingUp s i3c = true) (act : State → MgmtRsp × State)
include hup

/-- Hardware answers a control message (R538). -/
theorem control_answers : control s i3c act = replyOn (act s).2 i3c (eidNow s) (act s).1 := by
  rw [control, if_pos hup]

/-- Firmware that serves answers a PLDM message. -/
theorem pldm_answers (hrelay : relayUp s = true) : pldm s i3c act = replyOn (act s).2 i3c (eidNow s) (act s).1 := by
  simp only [pldm, hup, hrelay, Bool.not_true, Bool.false_eq_true, if_false]

/-- Until firmware serves, a PLDM message is counted. -/
theorem pldm_not_ready (hrelay : relayUp s = false) : pldm s i3c act = replyOn (countNotReady s) i3c (eidNow s) .notReady := by
  simp only [pldm, hup, hrelay, Bool.not_true, Bool.not_false, Bool.false_eq_true, if_false, if_true]

/-- Events of crossed thresholds go out with an answer about sensors (R543). -/
theorem pldmSensors_answers (hrelay : relayUp s = true) :
    pldmSensors s i3c act = platformEvents (replyOn (act s).2 i3c (eidNow s) (act s).1) := by
  rw [pldmSensors, if_pos hup, pldm_answers hup act hrelay]

/-- The same, for the commands that take the message. -/
theorem next_control {r : MgmtRsp} {t : State} (hact : act s = (r, t)) :
    (.next (control s i3c act) : Host.Outcome State Fault Refusal) = .next (replyOn t i3c (eidNow s) r) := by
  rw [control_answers hup, hact]

theorem next_pldm (hrelay : relayUp s = true) {r : MgmtRsp} {t : State} (hact : act s = (r, t)) :
    (.next (pldm s i3c act) : Host.Outcome State Fault Refusal) = .next (replyOn t i3c (eidNow s) r) := by
  rw [pldm_answers hup act hrelay, hact]

theorem next_pldmSensors (hrelay : relayUp s = true) {r : MgmtRsp} {t : State} (hact : act s = (r, t)) :
    (.next (pldmSensors s i3c act) : Host.Outcome State Fault Refusal) = .next (platformEvents (replyOn t i3c (eidNow s) r)) := by
  rw [pldmSensors_answers hup act hrelay, hact]

end

theorem pldmCommands_named {k : Nat} (hk : k = 0 ∨ k = 2 ∨ k = 4) : (lookupKey k pldmCommands).isSome = true := by
  rcases hk with rfl | rfl | rfl <;> rfl

/-- Settles O58: the front end answers control messages, and firmware PLDM while it serves; each row's answer is then its own. -/
theorem managementAnswers : Obligations.ManagementAnswers := by
  intro s i3c hup say
  refine ⟨fun a hdev hready hpos hlt => ?address, fun e hpos hlt => ?setEid, next_control hup _ rfl, fun k hk => ?uuid,
    next_control hup _ rfl, next_control hup _ rfl, fun hrelay => ?notReady, fun hrelay => ?served⟩
  case address =>
    exact congrArg Host.Outcome.next (if_pos (by simp [hdev, hready, hpos, hlt]))
  case setEid => exact next_control hup _ (if_pos ⟨hpos, hlt⟩)
  case uuid => exact next_control hup _ (by rw [hk])
  case notReady => exact congrArg Host.Outcome.next (pldm_not_ready hup _ hrelay)
  case served =>
    refine ⟨next_pldm hup _ hrelay rfl, fun v => next_pldm hup _ hrelay rfl, fun k hk => next_pldm hup _ hrelay ?version,
      next_pldm hup _ hrelay rfl, fun k cs hcs => next_pldm hup _ hrelay (by rw [hcs]), next_pldm hup _ hrelay rfl,
      fun r y hy => next_pldmSensors hup _ hrelay (by rw [hy]), fun r v hv => next_pldmSensors hup _ hrelay (by rw [hv]),
      fun r v hv => next_pldmSensors hup _ hrelay (by rw [hv]), fun e => next_pldmSensors hup _ hrelay rfl,
      next_pldm hup _ hrelay rfl, fun p hp => next_pldm hup _ hrelay (by rw [hp])⟩
    case version => rw [if_pos (pldmCommands_named hk)]

end Sys2Proof.Machine
end

section
/-! The SPDM responder (R490, R491): how a request on a path that is up comes to its answer, and what each request is answered. -/

namespace Sys2Proof.Machine

/-! ### A request on a path that is up -/

section
variable {s : State} {doe : Bool} (hup : pathUp s doe = true) (hrelay : doe = false → relayUp s = true)
include hup hrelay

/-- A request that is answered early, or once the identity stands (R490). -/
theorem atResponder_acts {early : Bool} (act : State → State) (hid : early = true ∨ s.boot.identity.isSome = true) :
    atResponder s doe early act = act s := by
  have hrelayed : (!doe && !relayUp s) = false := by cases doe <;> simp_all
  have hheard : (!early && s.boot.identity.isNone) = false := by
    rcases hid with h | h
    · simp [h]
    · simp [Option.isNone_eq_false_iff.2 h]
  simp only [atResponder, hup, hrelayed, hheard, Bool.not_true, Bool.false_eq_true, if_false]

/-- Everything else is BUSY until then. -/
theorem atResponder_busy (act : State → State) (hid : s.boot.identity = none) :
    atResponder s doe false act = sayError s doe .busy := by
  have hrelayed : (!doe && !relayUp s) = false := by cases doe <;> simp_all
  simp only [atResponder, hup, hrelayed, hid, Bool.not_true, Bool.not_false, Option.isNone_none, Bool.and_self, Bool.false_eq_true,
    if_false, if_true]

section
variable {early : Bool} (hid : early = true ∨ s.boot.identity.isSome = true) {act : State → Except SpdmErr (SpdmRsp × State)}
include hid

theorem request_answers {r : SpdmRsp} {t : State} (hact : act s = .ok (r, t)) : request s doe early act = sayRsp t doe r := by
  rw [request, atResponder_acts hup hrelay _ hid, hact]

theorem request_refused {e : SpdmErr} (hact : act s = .error e) : request s doe early act = sayError s doe e := by
  rw [request, atResponder_acts hup hrelay _ hid, hact]

end

theorem request_busy (act : State → Except SpdmErr (SpdmRsp × State)) (hid : s.boot.identity = none) :
    request s doe false act = sayError s doe .busy := atResponder_busy hup hrelay _ hid

end

/-! ### A response and the transfer size -/

/-- A response that the requester takes whole is sent. -/
theorem sayRsp_sends {t : State} {doe : Bool} {r : SpdmRsp} (h : (pathOf t doe).xfer = 0 ∨ rspBytes r = []) :
    sayRsp t doe r = say t (.spdm doe r) := by
  refine if_neg ?_
  rcases h with h | h <;> simp [h]

/-- Without agreed signatures a request that needs one is refused (R491). -/
theorem signedOnly_agreed {s : State} {doe : Bool} (act : Except SpdmErr (SpdmRsp × State)) (h : (pathOf s doe).agreed = true) :
    signedOnly s doe act = act := if_pos h

theorem signedOnly_unsupported {s : State} {doe : Bool} (act : Except SpdmErr (SpdmRsp × State)) (h : (pathOf s doe).agreed = false) :
    signedOnly s doe act = .error .unsupported := if_neg (by simp [h])

theorem pathOf_setPath_same (s : State) (doe : Bool) (f : SpdmPath → SpdmPath) : pathOf (setPath s doe f) doe = f (pathOf s doe) := by
  cases doe <;> rfl

/-- Signing takes free values only (R484). -/
theorem pathOf_signMsg (s : State) (bs : List Byte) (doe : Bool) : pathOf (signMsg s bs).2 doe = pathOf s doe := rfl

/-- The last chunk of a response that waits ends it. -/
theorem giveChunk_last {s : State} {doe : Bool} {seq : Nat} (hlt : seq * max 1 (pathOf s doe).xfer < (pathOf s doe).large.length)
    (hle : (pathOf s doe).large.length ≤ (seq + 1) * max 1 (pathOf s doe).xfer) :
    giveChunk s doe seq = .ok (.chunk seq true (((pathOf s doe).large.drop (seq * max 1 (pathOf s doe).xfer)).take (max 1 (pathOf s doe).xfer)),
      setPath s doe fun x => { x with large := [] }) := by
  have hwaits : (pathOf s doe).large.isEmpty = false := by
    rw [← Bool.not_eq_true, List.isEmpty_iff_length_eq_zero]
    omega
  simp only [giveChunk, hwaits, Nat.not_le.2 hlt, hle, Bool.false_eq_true, if_false, decide_true, if_true]

/-! ### The statement -/

/-- Settles O56: the path hears the request; its act answers, or its first check that fails says the error. -/
theorem spdmAnswers : Obligations.SpdmAnswers := by
  intro s doe hup hrelay say' err
  have early {act : State → Except SpdmErr (SpdmRsp × State)} {r : SpdmRsp} {t : State} (hact : act s = .ok (r, t)) (hr : rspBytes r = []) :
      Host.Outcome.next (request s doe true act) = say' t r :=
    congrArg _ ((request_answers hup hrelay (.inl rfl) hact).trans (sayRsp_sends (.inr hr)))
  have busy (act : State → Except SpdmErr (SpdmRsp × State)) (hid : s.boot.identity = none) :
      Host.Outcome.next (request s doe false act) = err s .busy := congrArg _ (request_busy hup hrelay act hid)
  refine ⟨early rfl rfl, fun n => early rfl rfl, fun b => early rfl rfl,
    fun hid => ⟨busy _ hid, fun n => busy _ hid, fun r => busy _ hid⟩, fun hid => ?_⟩
  have refused {act : State → Except SpdmErr (SpdmRsp × State)} {e : SpdmErr} (hact : act s = .error e) :
      Host.Outcome.next (request s doe false act) = err s e := congrArg _ (request_refused hup hrelay (.inr hid) hact)
  have answered {act : State → Except SpdmErr (SpdmRsp × State)} {r : SpdmRsp} {t : State} (hact : act s = .ok (r, t))
      (hr : (pathOf t doe).xfer = 0 ∨ rspBytes r = []) : Host.Outcome.next (request s doe false act) = say' t r :=
    congrArg _ ((request_answers hup hrelay (.inr hid) hact).trans (sayRsp_sends hr))
  refine ⟨fun hno => ?unsigned, fun hyes hxfer => ?signed, fun seq last bs hxfer hseq => ?chunk, fun seq last bs hseq => ?order,
    fun seq => ?lastChunk⟩
  case unsigned =>
    have unsupported (act : State → Except SpdmErr (SpdmRsp × State)) :
        Host.Outcome.next (request s doe false fun x => signedOnly x doe (act x)) = err s .unsupported :=
      refused (signedOnly_unsupported (act s) hno)
    exact ⟨unsupported _, fun n => unsupported _, fun r => unsupported _⟩
  case signed =>
    have agreed {act : State → Except SpdmErr (SpdmRsp × State)} {r : SpdmRsp} {t : State} (hact : act s = .ok (r, t))
        (ht : pathOf t doe = pathOf s doe) :
        Host.Outcome.next (request s doe false fun x => signedOnly x doe (act x)) = say' t r :=
      answered ((signedOnly_agreed (act s) hyes).trans hact) (.inl (ht ▸ hxfer))
    refine ⟨agreed rfl rfl, fun off len hoff => agreed (if_neg ?portion) rfl, fun slot off len hslot => ?otherSlot,
      fun n => agreed ?challenge (pathOf_signMsg ..), fun i bs hbs => answered ?blocks (.inl hxfer)⟩
    case portion => omega
    case challenge => rw [if_neg (not_not_intro rfl)]
    case otherSlot => exact refused ((signedOnly_agreed _ hyes).trans (if_pos (.inl hslot)))
    case blocks => simp [measurements, hbs]
  case chunk =>
    refine ⟨_, answered (if_neg (not_not_intro hseq)) (.inr rfl), fun hmore => ?_, fun hlast => ?_⟩
    · rw [pathOf_setPath_same, hmore]
      exact ⟨rfl, rfl⟩
    · rw [pathOf_setPath_same, hlast]
      exact ⟨rfl, rfl⟩
  case order => exact refused (if_pos hseq)
  case lastChunk =>
    intro n hlt hle
    exact answered (giveChunk_last hlt hle) (.inr rfl)

end Sys2Proof.Machine
end

section
/-! SPDM sessions and the owner of the device (R490, R492 to R494, R497): what FINISH makes of a session, how a request of the owner
comes to its act, and how a policy tightens. -/

namespace Sys2Proof.Machine

/-! ### Masks -/

theorem bitOf_eq_testBit (x i : Nat) : bitOf x i = x.testBit i := by
  simp [bitOf, fld, Nat.testBit_eq_decide_div_mod_eq, Bool.beq_eq_decide_eq]

theorem eraseDups_rising : ∀ {xs : List Nat}, xs.Pairwise (· < ·) → xs.eraseDups = xs
  | [], _ => rfl
  | x :: xs, h => by
    obtain ⟨hx, hxs⟩ := List.pairwise_cons.1 h
    rw [List.eraseDups_cons, List.filter_eq_self.2 fun b hb => by simpa using (hx b hb).ne', eraseDups_rising hxs]

/-- Powers of two by rising exponents set one bit each. -/
theorem testBit_addPowers (i : Nat) : ∀ {xs : List Nat} {a : Nat}, xs.Pairwise (· < ·) → (∀ x ∈ xs, a < 2 ^ x) →
    (xs.foldl (fun a i => a + 2 ^ i) a).testBit i = (a.testBit i || decide (i ∈ xs))
  | [], a, _, _ => by simp
  | x :: xs, a, h, ha => by
    obtain ⟨hx, hxs⟩ := List.pairwise_cons.1 h
    have hlt : a < 2 ^ x := ha x List.mem_cons_self
    have hor : a + 2 ^ x = 2 ^ x ||| a := by simpa [Nat.add_comm] using Nat.two_pow_add_eq_or_of_lt hlt 1
    have hnext : ∀ y ∈ xs, a + 2 ^ x < 2 ^ y := fun y hy =>
      calc a + 2 ^ x < 2 ^ (x + 1) := by rw [pow_succ]; omega
        _ ≤ 2 ^ y := Nat.pow_le_pow_right (by decide) (hx y hy)
    rw [List.foldl_cons, testBit_addPowers i hxs hnext, hor, Nat.testBit_or, Nat.testBit_two_pow]
    simp only [List.mem_cons, Bool.decide_or, eq_comm (a := x)]
    ac_rfl

/-- A mask of numbers below a bound that a test picks has just these bits. -/
theorem bitOf_maskOf_filter {n i : Nat} (pick : Nat → Bool) (hi : i < n) : bitOf (maskOf ((List.range n).filter pick)) i = pick i := by
  have hrising : ((List.range n).filter pick).Pairwise (· < ·) := List.pairwise_lt_range.filter _
  rw [bitOf_eq_testBit, maskOf, eraseDups_rising hrising, testBit_addPowers i hrising fun x _ => by positivity]
  simp [hi]

theorem bitOf_orMask (a b : Nat) {n i : Nat} (hi : i < n) : bitOf (orMask n a b) i = (bitOf a i || bitOf b i) :=
  bitOf_maskOf_filter _ hi

/-! ### Sessions -/

theorem sessionOn_some {s : State} {doe : Bool} {n : Nat} {y : Session} (h : sessionOn s doe n = some y) :
    openSession s doe n = if y.finished then some y else none := by
  rw [openSession, h]
  cases hf : y.finished <;> simp [hf, Option.filter]

/-! ### A request of the owner -/

section
variable {s : State} {n : Nat} {y : Session} {root : Nat}

theorem ownerRequest_acts (hup : pathUp s y.doe = true) (hrelay : y.doe = false → relayUp s = true)
    (hid : s.boot.identity.isSome = true) (hfind : s.sec.sessions.find? (·.num == n) = some y) (hfin : y.finished = true)
    (hroot : y.root = some root) {act : State → Nat → Status × State} {st : Status} {t : State} (hact : act s root = (st, t)) :
    ownerRequest s n act = say t (.spdm y.doe (.vendor n (statusCode st))) := by
  simp only [ownerRequest, hfind]
  rw [request_answers hup hrelay (.inr hid) (r := .vendor n (statusCode st)) (t := t) (by simp only [hfin, hroot, hact])]
  exact sayRsp_sends (.inr rfl)

theorem ofOwner_heard (hheard : s.sec.owner = none ∨ s.sec.owner = some root) (act : Status × State) : ofOwner s root act = act := by
  rcases hheard with h | h <;> simp [ofOwner, h]

theorem ofOwner_other {d : Nat} (howner : s.sec.owner = some d) (hd : d ≠ root) (act : Status × State) :
    ofOwner s root act = (.secPartition, s) := by
  simp [ofOwner, howner, hd]

end

/-- Locking a link's MACsec changes ports alone. -/
theorem lockMacsec_sec (s : State) (mask : Nat) : (lockMacsec s mask).sec = s.sec :=
  List.foldlRecOn (motive := fun x : State => x.sec = s.sec) _ _ rfl fun _ hx _ _ => hx

/-- Settles O57: a path that is up hears each request; a session, an owner or a lock decides between its answers. -/
theorem sessionsAndOwner : Obligations.SessionsAndOwner := by
  intro s doe hup hrelay hid hxfer say'
  have answered {act : State → Except SpdmErr (SpdmRsp × State)} {r : SpdmRsp} {t : State} (hact : act s = .ok (r, t))
      (hr : (pathOf t doe).xfer = 0 ∨ rspBytes r = []) : Host.Outcome.next (request s doe false act) = say' t r :=
    congrArg _ ((request_answers hup hrelay (.inr hid) hact).trans (sayRsp_sends hr))
  refine ⟨fun root hyes => ⟨fun hfull => ?full, fun hroom => ?opened⟩, fun n y hy => ⟨fun hopen => ?finishes, fun r v hopen hbad => ?drops,
    fun hfin => ?insideSession⟩, fun n y root hfind hdoe hfin hroot => ?owner⟩
  case full =>
    exact congrArg _ (request_refused hup hrelay (.inr hid) ((signedOnly_agreed _ hyes).trans (if_pos hfull)))
  case opened =>
    exact ⟨_, _, answered ((signedOnly_agreed _ hyes).trans (if_neg (Nat.not_le.2 hroom))) (.inl hxfer), rfl, rfl⟩
  case finishes =>
    refine congrArg _ ((atResponder_acts hup hrelay _ (.inr hid)).trans ?_)
    simp only [finishSession, hy, hopen, Bool.false_eq_true, if_false, beq_self_eq_true, Bool.and_self, if_true]
    exact sayRsp_sends (.inr rfl)
  case drops =>
    refine congrArg _ ((atResponder_acts hup hrelay _ (.inr hid)).trans ?_)
    have hno : (v && r == y.root) = false := by rcases hbad with h | h <;> simp [h]
    simp only [finishSession, hy, hopen, hno, Bool.false_eq_true, if_false]
  case insideSession =>
    have hopen : (openSession s doe n).isSome = true := by rw [sessionOn_some hy, if_pos hfin]; rfl
    have inside (act : State → SpdmRsp × State) (hr : rspBytes (act s).1 = []) :
        Host.Outcome.next (inSession s doe n act) = say' (act s).2 (act s).1 := answered (if_pos hopen) (.inr hr)
    exact ⟨inside _ rfl, inside _ rfl, inside _ rfl⟩
  case owner =>
    subst hdoe
    have acts {act : State → Nat → Status × State} {st : Status} {t : State} (hact : act s root = (st, t)) :
        Host.Outcome.next (ownerRequest s n act) = say' t (.vendor n (statusCode st)) :=
      congrArg _ (ownerRequest_acts hup hrelay hid hfind hfin hroot hact)
    have completes {act : State → Nat → Status × State} {t : State} (hact : act s root = (.completed, t)) :
        Host.Outcome.next (ownerRequest s n act) = say' t (.vendor n 0) := acts hact
    refine ⟨fun hnone => completes ?binds, fun d hd => acts ?bound,
      fun p key hp hconf hheard => ⟨fun hfree => completes ?wraps, fun hset => acts ?wrapped⟩,
      fun ide mac svn d hd hother => acts (ofOwner_other hd hother _), fun ide mac svn hheard hsvn hlt => ?tightens,
      fun link ckn cak hheard hport => completes ?connects⟩
    case binds => exact if_neg (by simp [hnone])
    case bound => exact if_pos (by simp [hd])
    case wraps => simp [ofOwner_heard hheard, wrapKeySet, Nat.not_lt.2 hp, hconf, hfree]
    case wrapped => simp [ofOwner_heard hheard, wrapKeySet, Nat.not_lt.2 hp, hconf, Option.isSome_iff_ne_none.2 hset]
    case tightens =>
      have hpol : policySet s ide mac svn = _ := if_neg (by rw [Nat.mod_eq_of_lt hlt]; exact Nat.not_lt.2 hsvn)
      refine ⟨_, completes ((ofOwner_heard hheard _).trans hpol), ?_⟩
      rw [lockMacsec_sec]
      exact ⟨Nat.mod_eq_of_lt hlt, rfl, fun _ => bitOf_orMask _ _, fun _ => bitOf_orMask _ _⟩
    case connects => simp [ofOwner_heard hheard, cakSet, hport]

end Sys2Proof.Machine
end

section
/-! Links go down (R451): what the failed commands of their queue pairs leave undefined may lie in a plot at another peer, whose queue
pair then awaits an acknowledgement. -/

namespace Sys2Proof.Machine

/-- A NET_RECV whose buffer is the first byte of plot 0. -/
def farRecv : Cmd := { newCmd 0x401 0 with outs := [(0, 1)] }

/-- Link 0 is up with queue pair 0, on which the command of queue 0 has posted its buffer; the buffer lies at the peer of queue pair 1, on
link 1. -/
def farBuffer : State :=
  { State.reset with
    queues := { noQueue with state := .run, cmd := some farRecv } :: List.replicate 255 noQueue
    parts := { noPartition with configured := true, plots := [(0, farPlot)], anchors := [(0, .remote 1 0 0)] } :: List.replicate 3 noPartition
    net := { noNet with
      links := { noLink with up := true } :: List.replicate 7 noLink
      qps := [(0, { newQp 0 0 0 with recvs := [0] }), (1, newQp 0 1 0)] } }

/-- The pair of the link that stays up awaits an acknowledgement. -/
theorem unacked_linkDown_farBuffer : (qpOf (linkDown farBuffer 0) 1).map (·.unacked) = some true := by decide +kernel

/-- Refutes O47: not every queue pair of another link stays as it is. The undefined outputs of a command that fails with the link are
written, and a buffer in a remote plot is written through its own queue pair. -/
theorem not_linksChange : ¬ Obligations.LinksChange := by
  intro h
  obtain ⟨-, hdown, -⟩ := h farBuffer 0
  obtain ⟨hnodup, -⟩ := hdown rfl
  obtain ⟨t, ht, -, -, -, hother⟩ := hnodup (by decide)
  cases ht
  have hsame := hother 1 (newQp 0 1 0) rfl (by decide)
  have hunacked := unacked_linkDown_farBuffer
  rw [hsame] at hunacked
  exact absurd hunacked (by decide)

end Sys2Proof.Machine
end

section
/-! Writes that a function's window does not take (R430, R431, R496). -/

namespace Sys2Proof.Machine

/-- A write outside a Secure stream that the policy demands is dropped and counted (R496). -/
theorem barWrite_dropped {s : State} {fn : Nat} (act : State → State) (hdev : s.boot.dev = .run) (hlink : s.pcie.linkUp = true)
    (henabled : (pciFn s fn).enabled = true) (hfn : fn < 5) (hdemand : ideDemanded s fn = true) (hinsecure : arrivesSecure s fn = false) :
    barWrite s fn act = { s with sec := { s.sec with ideDrop := satAdd 32 s.sec.ideDrop 1 } } := by
  unfold barWrite
  rw [if_neg (by simp [hdev, hlink, henabled, hfn]), if_pos (by simp [hdemand, hinsecure])]

/-- Settles O27: every row of a function's writes goes through the window. -/
theorem shutWindowTakesNoWrite : Obligations.ShutWindowTakesNoWrite := by
  refine ⟨fun s fn hshut => ?_, fun s fn off size val poisoned hdev hlink henabled hfn hdemand hinsecure => ?_⟩
  · have shut (act : State → State) : (.next (barWrite s fn act) : Host.Outcome State Fault Refusal) = .next s :=
      congrArg _ (barWrite_shut act hshut)
    -- the rows of a numbered unit ask first whether the device has it
    have numbered (c : Prop) [Decidable c] (act : State → State) :
        (.next (if c then barWrite s fn act else s) : Host.Outcome State Fault Refusal) = .next s := by
      rw [barWrite_shut act hshut, ite_self]
    exact ⟨fun _ _ _ => shut _, fun _ _ _ => shut _, fun _ => shut _, shut _, shut _, fun _ => numbered _ _, fun _ => numbered _ _,
      fun _ => numbered _ _, fun _ => numbered _ _, shut _, fun _ => shut _, fun _ => shut _, fun _ _ => numbered _ _,
      fun _ _ => numbered _ _, shut _, fun _ => shut _, fun _ => shut _, fun _ => shut _, fun _ _ _ _ => shut _⟩
  · have dropped (act : State → State) := congrArg (Host.Outcome.next (φ := Fault) (ρ := Refusal))
      (barWrite_dropped act hdev hlink henabled hfn hdemand hinsecure)
    exact ⟨dropped _, dropped _⟩

end Sys2Proof.Machine
end

section
/-! Trapped writes of the network registers (R447, R450, R564): queue-pair commands, link addresses and port configurations. -/

namespace Sys2Proof.Machine

/-! ### Whole words -/

theorem wordWrite_whole {off val : Nat} (hoff : off % 8 = 0) (hval : val < 2 ^ 64) :
    wordWrite off 8 (val % 2 ^ (8 * 8)) = ⟨true, true, val⟩ := by
  simp only [wordWrite, hoff, beq_self_eq_true, Bool.or_true, WordWrite.mk.injEq, true_and]
  omega

theorem mergeWord_whole (old : Nat) {val : Nat} (hval : val < 2 ^ 64) : mergeWord old ⟨true, true, val⟩ = val := by
  simp only [mergeWord, fld, if_true]
  omega

/-- A row's write of a word that firmware does not refuse. -/
theorem rowWrite_applied {s t : State} {fn off val : Nat} (h : canTrap s fn) (hoff : off % 8 = 0) (hval : val < 2 ^ 64)
    (ht : applyWord (trapTaken s fn) fn (off / 4096) (off % 4096 / 8 * 8) ⟨true, true, val⟩ = some t) :
    ∃ sh, rowWrite s fn off val = showing (trapCounted t fn) sh :=
  barWrite_traps h ((congrArg _ (wordWrite_whole hoff hval)).trans ht)

/-! ### What a network write leaves -/

@[simp] theorem setQp_queues (s : State) (n : Nat) (f : Qp → Qp) : (setQp s n f).queues = s.queues := rfl
@[simp] theorem setQp_mem (s : State) (n : Nat) (f : Qp → Qp) : (setQp s n f).mem = s.mem := rfl
@[simp] theorem setQpResult_queues (s : State) (fn st n key : Nat) : (setQpResult s fn st n key).queues = s.queues := rfl
@[simp] theorem setQpResult_mem (s : State) (fn st n key : Nat) : (setQpResult s fn st n key).mem = s.mem := rfl
@[simp] theorem dropAddrLow_queues (s : State) (fn n : Nat) : (dropAddrLow s fn n).queues = s.queues := rfl
@[simp] theorem dropAddrLow_mem (s : State) (fn n : Nat) : (dropAddrLow s fn n).mem = s.mem := rfl
@[simp] theorem trapTaken_queues (s : State) (fn : Nat) : (trapTaken s fn).queues = s.queues := rfl
@[simp] theorem trapTaken_mem (s : State) (fn : Nat) : (trapTaken s fn).mem = s.mem := rfl

/-- A write that firmware has applied, counted and shown. -/
@[simp] theorem shown_queues (s : State) (fn : Nat) (sh : List (Nat × ShadowPage)) : (showing (trapCounted s fn) sh).queues = s.queues := rfl
@[simp] theorem shown_mem (s : State) (fn : Nat) (sh : List (Nat × ShadowPage)) : (showing (trapCounted s fn) sh).mem = s.mem := rfl
@[simp] theorem shown_net (s : State) (fn : Nat) (sh : List (Nat × ShadowPage)) : (showing (trapCounted s fn) sh).net = s.net := rfl

/-! ### Queue pairs -/

theorem lookupKey_map_same {α : Type} {n : Nat} (f : α → α) : ∀ xs : List (Nat × α),
    lookupKey n (xs.map fun (i, x) => if i = n then (i, f x) else (i, x)) = (lookupKey n xs).map f
  | [] => rfl
  | (i, x) :: xs => by
    by_cases hi : i = n
    · simp [lookupKey, hi]
    · simpa [lookupKey, hi] using lookupKey_map_same f xs

theorem lookupKey_map_other {α : Type} {n k : Nat} (f : α → α) (hk : k ≠ n) : ∀ xs : List (Nat × α),
    lookupKey k (xs.map fun (i, x) => if i = n then (i, f x) else (i, x)) = lookupKey k xs
  | [] => rfl
  | (i, x) :: xs => by
    by_cases hi : i = n
    · simpa [lookupKey, hi, hk.symm] using lookupKey_map_other f hk xs
    · by_cases hik : i = k
      · simp [lookupKey, hik, hk]
      · simpa [lookupKey, hi, hik] using lookupKey_map_other f hk xs

theorem qpOf_setQp_same (s : State) (n : Nat) (f : Qp → Qp) : qpOf (setQp s n f) n = (qpOf s n).map f := lookupKey_map_same f _

theorem qpOf_setQp_other (s : State) {n k : Nat} (f : Qp → Qp) (hk : k ≠ n) : qpOf (setQp s n f) k = qpOf s k :=
  lookupKey_map_other f hk _

theorem applyWord_qpCmd (s : State) (fn : Nat) (w : WordWrite) :
    applyWord s fn (0x8140 / 4096) (0x8140 % 4096 / 8 * 8) w = writeQpCmd s fn w := by
  simp [applyWord]

/-- The word of a queue-pair command (Table 20-4). -/
theorem writeQpCmd_of {s : State} {fn p op n : Nat} (hfn : fnPart s fn = some p) (hop : 0 < op) (hlt : op < 4) (hn : n < 4096)
    (hcreate : op = 1 → n = 0) : writeQpCmd s fn ⟨true, true, putFld op 16 2 + putFld n 0 12⟩
      = some (if op = 1 then qpCreate s fn p else if op = 2 then qpDestroy s fn p n else qpReset s fn p n) := by
  have hdata : putFld op 16 2 + putFld n 0 12 = op * 2 ^ 16 + n := by
    rw [putFld, putFld, Nat.mod_eq_of_lt (by omega), Nat.mod_eq_of_lt (by omega), pow_zero, Nat.mul_one]
  have hset : anySet (op * 2 ^ 16 + n) [(18, 46), (12, 4)] = false := by simp [anySet, fld]; omega
  have hopFld : fld (op * 2 ^ 16 + n) 16 2 = op := by rw [fld]; omega
  have hnFld : fld (op * 2 ^ 16 + n) 0 12 = n := by rw [fld]; omega
  have hpos : (op == 0) = false := by simp; omega
  have hfresh : (op == 1 && n != 0) = false := by
    by_cases h : op = 1 <;> simp [h, hcreate]
  simp only [writeQpCmd, hdata, hset, hopFld, hnFld, hfn, hpos, hfresh, Bool.or_self, Bool.false_eq_true, if_false]

/-- The result word as firmware leaves it. -/
theorem qpResult_shown {x : State} {fn : Nat} (st n key : Nat) (sh : List (Nat × ShadowPage)) (hfn : fn < x.fns.length) :
    (fnOf (showing (trapCounted (setQpResult x fn st n key) fn) sh) fn).qpResult = putFld st 0 16 + putFld n 16 12 + putFld key 32 32 := by
  have hlt : fn < (setQpResult x fn st n key).fns.length := by simpa [setQpResult] using hfn
  have hset : fnOf (setQpResult x fn st n key) fn = _ := fnOf_setFn_same x fn _ hfn
  show (fnOf (trapCounted (setQpResult x fn st n key) fn) fn).qpResult = _
  rw [fnOf_trapCounted hlt, hset]

/-! What each command does to a queue pair, with the context that the function has staged. -/

/-- A queue pair that has returned from ERROR. -/
def readied (ctx : Nat) (y : Qp) : Qp := { y with st := .ready, tries := 0, sqPsn := fld ctx 344 24, rqPsn := fld ctx 368 24 }

section
variable {s : State} {fn p n ctx : Nat} {x : Qp}

theorem qpCreate_creates (hstaged : stagedCtx (fnOf s fn) = ctx) (hctx : ctxRefused s p ctx = none)
    (hfree : lowestFree (s.net.qps.map (·.1)) 4096 = some n) :
    qpCreate s fn p = setQpResult { s with
      free := s.free + 1
      net := { s.net with qps := insertKey n (newQp p ctx (Config.freeWord s.free).toNat) s.net.qps } } fn 0 n (Config.freeWord s.free).toNat := by
  simp only [qpCreate, hstaged, hctx, hfree]
  rfl

theorem qpDestroy_destroys (hx : qpOf s n = some x) (hpart : x.part = p) (hidle : qpNamed s n = false) :
    qpDestroy s fn p n = setQpResult { s with net := { s.net with qps := eraseKey n s.net.qps } } fn 0 n 0 := by
  simp only [qpDestroy, hx]
  exact if_pos ⟨hpart, hidle⟩

theorem qpReset_resets (hstaged : stagedCtx (fnOf s fn) = ctx) (hx : qpOf s n = some x) (hpart : x.part = p)
    (hidle : qpNamed s n = false) (hst : x.st = .error) :
    qpReset s fn p n = setQpResult (setQp s n (readied ctx)) fn 0 n x.key := by
  simp only [qpReset, hx, hstaged]
  exact if_pos ⟨hpart, hst, hidle⟩

end

theorem staged_trapTaken {s : State} {fn : Nat} (h : canTrap s fn) : stagedCtx (fnOf (trapTaken s fn) fn) = stagedCtx (fnOf s fn) := by
  rw [fnOf_trapTaken (canTrap_fn_lt h)]
  rfl

section
variable {s : State} {fn p n : Nat} (h : canTrap s fn) (hfn : fnPart s fn = some p)
include h hfn

/-- A queue-pair command that a row writes. -/
theorem rowWrite_qpCmd {op k : Nat} (hop : 0 < op) (hlt : op < 4) (hk : k < 4096) (hcreate : op = 1 → k = 0) :
    ∃ sh, rowWrite s fn 0x8140 (putFld op 16 2 + putFld k 0 12) = showing (trapCounted
      (if op = 1 then qpCreate (trapTaken s fn) fn p else if op = 2 then qpDestroy (trapTaken s fn) fn p k
        else qpReset (trapTaken s fn) fn p k) fn) sh := by
  refine rowWrite_applied h (by decide) ?_ ((applyWord_qpCmd ..).trans (writeQpCmd_of hfn hop hlt hk hcreate))
  simp only [putFld]
  omega

/-- QP_CREATE with a context that is not refused, while a number is free. -/
theorem exec_qpCreate_creates (hctx : ctxRefused s p (stagedCtx (fnOf s fn)) = none)
    (hfree : lowestFree (s.net.qps.map (·.1)) 4096 = some n) :
    ∃ t key, exec (.qpCreate fn) s = .next t ∧ qpOf t n = some (newQp p (stagedCtx (fnOf s fn)) key)
      ∧ (fnOf t fn).qpResult = putFld n 16 12 + putFld key 32 32 ∧ (∀ k, k ≠ n → qpOf t k = qpOf s k)
      ∧ t.queues = s.queues ∧ t.mem = s.mem := by
  obtain ⟨sh, hsh⟩ := rowWrite_qpCmd h hfn (op := 1) (k := 0) (by decide) (by decide) (by decide) fun _ => rfl
  rw [if_pos rfl, qpCreate_creates (s := trapTaken s fn) (staged_trapTaken h) hctx hfree] at hsh
  refine ⟨_, (Config.freeWord s.free).toNat, congrArg Host.Outcome.next hsh, lookupKey_insertKey_same _ _ _, ?_,
    fun k hk => lookupKey_insertKey_other _ _ hk, rfl, rfl⟩
  rw [qpResult_shown]
  · simp [putFld]
    rfl
  · exact (trapTaken_fns_length s fn).symm ▸ canTrap_fn_lt h

section
variable {x : Qp} (hn : n < 4096) (hx : qpOf s n = some x) (hpart : x.part = p) (hidle : qpNamed s n = false)
include hn hx hpart hidle

/-- QP_DESTROY of a pair that no command names. -/
theorem exec_qpDestroy_destroys : ∃ t, exec (.qpDestroy fn n) s = .next t ∧ t.net.qps = eraseKey n s.net.qps
    ∧ (fnOf t fn).qpResult = putFld n 16 12 ∧ t.queues = s.queues ∧ t.mem = s.mem := by
  obtain ⟨sh, hsh⟩ := rowWrite_qpCmd h hfn (op := 2) (by decide) (by decide) hn nofun
  rw [if_neg (by decide), if_pos rfl, qpDestroy_destroys (s := trapTaken s fn) hx hpart hidle] at hsh
  refine ⟨_, congrArg Host.Outcome.next hsh, rfl, ?_, rfl, rfl⟩
  rw [qpResult_shown]
  · simp [putFld]
  · exact (trapTaken_fns_length s fn).symm ▸ canTrap_fn_lt h

/-- QP_RESET of a pair in ERROR. -/
theorem exec_qpReset_resets (hst : x.st = .error) : ∃ t, exec (.qpReset fn n) s = .next t
    ∧ qpOf t n = some (readied (stagedCtx (fnOf s fn)) x) ∧ t.queues = s.queues ∧ t.mem = s.mem := by
  obtain ⟨sh, hsh⟩ := rowWrite_qpCmd h hfn (op := 3) (by decide) (by decide) hn nofun
  rw [if_neg (by decide), if_neg (by decide), qpReset_resets (s := trapTaken s fn) (staged_trapTaken h) hx hpart hidle hst] at hsh
  refine ⟨_, congrArg Host.Outcome.next hsh, ?_, by simp, by simp⟩
  show qpOf (setQp (trapTaken s fn) n (readied (stagedCtx (fnOf s fn)))) n = _
  rw [qpOf_setQp_same, show qpOf (trapTaken s fn) n = some x from hx]
  rfl

end

end

/-! ### Link addresses (R564) -/

theorem linkOf_setLink_same (s : State) {n : Nat} (f : Link → Link) (h : n < s.net.links.length) : linkOf (setLink s n f) n = f (linkOf s n) :=
  modifyAt_getD_same f _ _ n h

theorem linkOf_setLink_other (s : State) {n k : Nat} (f : Link → Link) (h : k ≠ n) : linkOf (setLink s n f) k = linkOf s k :=
  modifyAt_getD_other f _ _ h

theorem portOf_setPort_same (s : State) {n : Nat} (f : Port → Port) (h : n < s.net.ports.length) : portOf (setPort s n f) n = f (portOf s n) :=
  modifyAt_getD_same f _ _ n h

theorem portOf_setPort_other (s : State) {n k : Nat} (f : Port → Port) (h : k ≠ n) : portOf (setPort s n f) k = portOf s k :=
  modifyAt_getD_other f _ _ h

theorem applyWord_addrHigh {s : State} {fn n : Nat} (w : WordWrite) (hn : n < 8) :
    applyWord s fn ((0x8088 + 16 * n) / 4096) ((0x8088 + 16 * n) % 4096 / 8 * 8) w = (writeAddrHigh s fn n w).map fun x => dropAddrLow x fn n := by
  have hpage : (0x8088 + 16 * n) / 4096 = 8 := by omega
  have hword : (0x8088 + 16 * n) % 4096 / 8 * 8 = 0x088 + 16 * n := by omega
  have hnoPort : ¬ (0x010 ≤ 0x088 + 16 * n ∧ 0x088 + 16 * n < 0x030) := by omega
  have hin : 0x080 ≤ 0x088 + 16 * n ∧ 0x088 + 16 * n < 0x100 := by omega
  have hhigh : ¬ (0x088 + 16 * n) % 16 = 0 := by omega
  have hno : (0x088 + 16 * n - 0x080) / 16 = n := by omega
  rw [hpage, hword]
  simp only [applyWord, if_neg hnoPort, if_pos hin, if_neg hhigh, hno]

theorem getD_modifyAt_zero (n : Nat) : ∀ xs : List Nat, (modifyAt n (fun _ => 0) xs).getD n 0 = 0 := by
  intro xs
  by_cases h : n < xs.length
  · exact modifyAt_getD_same _ _ _ n h
  · rw [modifyAt_beyond _ _ (Nat.le_of_not_lt h)]
    exact List.getD_eq_default _ _ (Nat.le_of_not_lt h)

/-- A link with an address. -/
def addressed (a : Nat) (l : Link) : Link := { l with ip := a }

theorem writeAddrHigh_applies {s : State} {n high low : Nat} (hlow : (fnOf s 0).linkAddrLow.getD n 0 = low)
    (hport : portEnabled s (n / 2) = true) (hidle : qpsOn s n = []) :
    writeAddrHigh s 0 n ⟨true, true, high⟩ = some (setLink s n (addressed (high * 2 ^ 64 + low))) := by
  simp only [writeAddrHigh, hport, hidle, hlow]
  rfl

theorem linkAddrLow_dropped {s : State} (n : Nat) (h : 0 < s.fns.length) :
    (fnOf (trapCounted (dropAddrLow s 0 n) 0) 0).linkAddrLow.getD n 0 = 0 := by
  have hdrop : fnOf (dropAddrLow s 0 n) 0 = _ := fnOf_setFn_same s 0 _ h
  rw [fnOf_trapCounted (by simpa [dropAddrLow] using h), hdrop]
  exact getD_modifyAt_zero n _

/-- The high word applies the address and drops the low word. -/
theorem exec_netLinkAddrWrite_applies {s : State} {n high : Nat} (h : canTrap s 0) (hlinks : s.net.links.length = 8) (hn : n < 8)
    (hhigh : high < 2 ^ 64) (hport : portEnabled s (n / 2) = true) (hidle : qpsOn s n = []) :
    ∃ t, exec (.netLinkAddrWrite 0 n high) s = .next t ∧ (linkOf t n).ip = high * 2 ^ 64 + (fnOf s 0).linkAddrLow.getD n 0
      ∧ (fnOf t 0).linkAddrLow.getD n 0 = 0 ∧ (∀ k, k ≠ n → linkOf t k = linkOf s k) ∧ t.queues = s.queues ∧ t.mem = s.mem := by
  have hlow : (fnOf (trapTaken s 0) 0).linkAddrLow.getD n 0 = (fnOf s 0).linkAddrLow.getD n 0 := by rw [fnOf_trapTaken (canTrap_fn_lt h)]
  have hset := writeAddrHigh_applies (high := high) hlow (hport : portEnabled (trapTaken s 0) (n / 2) = true) hidle
  obtain ⟨sh, hsh⟩ := rowWrite_applied h (by omega) hhigh
    ((applyWord_addrHigh _ hn).trans (congrArg (Option.map fun x => dropAddrLow x 0 n) hset))
  refine ⟨_, congrArg Host.Outcome.next ((if_pos hn).trans hsh), ?address, linkAddrLow_dropped n ?low, fun k hk => ?others, by simp, by simp⟩
  case low => simpa [trapTaken] using canTrap_fn_lt h
  case address =>
    show (linkOf (setLink (trapTaken s 0) n (addressed _)) n).ip = _
    rw [linkOf_setLink_same _ _ (show n < (trapTaken s 0).net.links.length from hlinks ▸ hn)]
    rfl
  case others =>
    show linkOf (setLink (trapTaken s 0) n (addressed _)) k = _
    exact linkOf_setLink_other _ _ hk

/-! ### Port configurations (R447) -/

theorem applyWord_portCfg {s : State} {fn n : Nat} (w : WordWrite) (hn : n < 4) :
    applyWord s fn ((0x8010 + 8 * n) / 4096) ((0x8010 + 8 * n) % 4096 / 8 * 8) w = writePortCfg s fn n w := by
  have hpage : (0x8010 + 8 * n) / 4096 = 8 := by omega
  have hword : (0x8010 + 8 * n) % 4096 / 8 * 8 = 0x010 + 8 * n := by omega
  have hin : 0x010 ≤ 0x010 + 8 * n ∧ 0x010 + 8 * n < 0x030 := by omega
  have hno : (0x010 + 8 * n - 0x010) / 8 = n := by omega
  rw [hpage, hword]
  simp only [applyWord, if_pos hin, hno]

/-- What a link that goes down does to itself and to its port. -/
def linkLost (s : State) (n : Nat) : State :=
  let x := setLink s n fun l => { l with up := false, sa := none }
  if n % 2 = 0 then setPort x (n / 2) fun P => { P with sync := false, good := 0 } else x

/-- A link without queue pairs takes nothing else down. -/
theorem linkDown_idle {s : State} {n : Nat} (hidle : qpsOn s n = []) : linkDown s n = if (linkOf s n).up then linkLost s n else s := by
  unfold linkDown
  rw [hidle]
  cases (linkOf s n).up <;> rfl

theorem linkLost_keeps (s : State) (n : Nat) : (linkLost s n).net.ports.length = s.net.ports.length
    ∧ (linkLost s n).net.qps = s.net.qps ∧ (linkLost s n).queues = s.queues ∧ (linkLost s n).mem = s.mem := by
  unfold linkLost
  dsimp only
  split <;> simp

theorem linkOf_linkLost_same (s : State) (n : Nat) : (linkOf (linkLost s n) n).up = false := by
  have hset : linkOf (linkLost s n) n = linkOf (setLink s n fun l => { l with up := false, sa := none }) n := by
    unfold linkLost
    dsimp only
    split <;> rfl
  rw [hset]
  by_cases h : n < s.net.links.length
  · rw [linkOf_setLink_same s _ h]
  · rw [linkOf, setLink_net, modifyAt_beyond _ _ (Nat.le_of_not_lt h), List.getD_eq_default _ _ (Nat.le_of_not_lt h)]
    rfl

theorem linkOf_linkLost_other (s : State) {n k : Nat} (hk : k ≠ n) : linkOf (linkLost s n) k = linkOf s k := by
  unfold linkLost
  dsimp only
  split
  · exact linkOf_setLink_other s _ hk
  · exact linkOf_setLink_other s _ hk

section
variable {s : State} {n : Nat} (hidle : qpsOn s n = [])
include hidle

theorem linkDown_idle_keeps : (linkDown s n).net.ports.length = s.net.ports.length ∧ (linkDown s n).net.qps = s.net.qps
    ∧ (linkDown s n).queues = s.queues ∧ (linkDown s n).mem = s.mem := by
  rw [linkDown_idle hidle]
  split
  · exact linkLost_keeps s n
  · exact ⟨rfl, rfl, rfl, rfl⟩

theorem linkOf_linkDown_same : (linkOf (linkDown s n) n).up = false := by
  rw [linkDown_idle hidle]
  split
  · exact linkOf_linkLost_same s n
  · next h => simpa using h

theorem linkOf_linkDown_other {k : Nat} (hk : k ≠ n) : linkOf (linkDown s n) k = linkOf s k := by
  rw [linkDown_idle hidle]
  split
  · exact linkOf_linkLost_other s hk
  · rfl

end

/-- Both links of a port without queue pairs go down, and nothing else. -/
theorem portDown_idle {s : State} {n : Nat} (hfirst : qpsOn s (2 * n) = []) (hsecond : qpsOn s (2 * n + 1) = []) :
    (linkOf (portDown s n) (2 * n)).up = false ∧ (linkOf (portDown s n) (2 * n + 1)).up = false
      ∧ (portDown s n).net.ports.length = s.net.ports.length ∧ (portDown s n).queues = s.queues ∧ (portDown s n).mem = s.mem := by
  obtain ⟨hports, hqps, hqueues, hmem⟩ := linkDown_idle_keeps hfirst
  have hsecond' : qpsOn (linkDown s (2 * n)) (2 * n + 1) = [] := by rw [qpsOn, hqps]; exact hsecond
  obtain ⟨hports', -, hqueues', hmem'⟩ := linkDown_idle_keeps hsecond'
  refine ⟨?_, linkOf_linkDown_same hsecond', hports'.trans hports, hqueues'.trans hqueues, hmem'.trans hmem⟩
  rw [portDown, linkOf_linkDown_other hsecond' (by omega)]
  exact linkOf_linkDown_same hfirst

/-- A legal configuration applies to a port whose links have no queue pairs. -/
theorem writePortCfg_applies {s : State} {n val : Nat} (hval : val < 2 ^ 64)
    (hreserved : anySet val [(24, 40), (18, 2), (14, 2), (2, 10)] = false) (hmode : fld val 0 2 ≠ 3) (hmtu : fld val 12 2 ≠ 3)
    (hport : portEnabled s n = true) (hfirst : qpsOn s (2 * n) = []) (hsecond : qpsOn s (2 * n + 1) = [])
    (hlocked : unlocksMacsec s n val = false) :
    writePortCfg s 0 n ⟨true, true, val⟩
      = some (setPort (if fld val 0 2 = fld (portOf s n).cfg 0 2 then s else portDown s n) n fun P => { P with cfg := val }) := by
  simp [writePortCfg, mergeWord_whole _ hval, hreserved, hmode, hmtu, hport, hfirst, hsecond, hlocked]

theorem exec_netPortCfgWrite_applies {s : State} {n val : Nat} (h : canTrap s 0) (hports : s.net.ports.length = 4) (hn : n < 4)
    (hval : val < 2 ^ 64) (hreserved : anySet val [(24, 40), (18, 2), (14, 2), (2, 10)] = false) (hmode : fld val 0 2 ≠ 3)
    (hmtu : fld val 12 2 ≠ 3) (hport : portEnabled s n = true) (hfirst : qpsOn s (2 * n) = []) (hsecond : qpsOn s (2 * n + 1) = [])
    (hlocked : unlocksMacsec s n val = false) :
    ∃ t, exec (.netPortCfgWrite 0 n val) s = .next t ∧ (portOf t n).cfg = val
      ∧ (fld val 0 2 ≠ fld (portOf s n).cfg 0 2 → (linkOf t (2 * n)).up = false ∧ (linkOf t (2 * n + 1)).up = false)
      ∧ t.queues = s.queues ∧ t.mem = s.mem := by
  let x := trapTaken s 0
  let y := if fld val 0 2 = fld (portOf x n).cfg 0 2 then x else portDown x n
  obtain ⟨hdown, hdown', hlength, hqueues, hmem⟩ := portDown_idle (s := x) hfirst hsecond
  have hy : y.net.ports.length = 4 ∧ y.queues = s.queues ∧ y.mem = s.mem := by
    dsimp only [y]
    split
    · exact ⟨hports, rfl, rfl⟩
    · exact ⟨hlength.trans hports, hqueues, hmem⟩
  obtain ⟨hyPorts, hyQueues, hyMem⟩ := hy
  obtain ⟨sh, hsh⟩ := rowWrite_applied h (by omega) hval ((applyWord_portCfg _ hn).trans
    (writePortCfg_applies (s := x) hval hreserved hmode hmtu hport hfirst hsecond hlocked))
  refine ⟨_, congrArg Host.Outcome.next ((if_pos hn).trans hsh), ?config, fun hchange => ?links, by simpa using hyQueues, by simpa using hyMem⟩
  case config =>
    show (portOf (setPort y n fun P => { P with cfg := val }) n).cfg = val
    rw [portOf_setPort_same y _ (hyPorts ▸ hn)]
  case links =>
    have hy : y = portDown x n := if_neg hchange
    show (linkOf y (2 * n)).up = false ∧ (linkOf y (2 * n + 1)).up = false
    rw [hy]
    exact ⟨hdown, hdown'⟩

/-- Settles O32: each row's word is one that firmware does not refuse. -/
theorem networkWrites : Obligations.NetworkWrites := by
  refine ⟨fun s fn p n h hfn hn => ⟨exec_qpCreate_creates h hfn, fun x hx hpart hidle =>
    ⟨exec_qpDestroy_destroys h hfn hn hx hpart hidle, exec_qpReset_resets h hfn hn hx hpart hidle⟩⟩,
    fun s h hlinks hports => ⟨fun n high hn hhigh hport hidle => exec_netLinkAddrWrite_applies h hlinks hn hhigh hport hidle,
      fun n val hn hval hreserved hmode hmtu hport hfirst hsecond hlocked =>
        exec_netPortCfgWrite_applies h hports hn hval hreserved hmode hmtu hport hfirst hsecond hlocked⟩⟩

end Sys2Proof.Machine
end

section
/-! The words that hardware serves (R388, R434, R440, R441, R502, R503), and the shadow (R377). -/

namespace Sys2Proof.Machine

/-! ### Bits -/

theorem bitOf_clearBit_same (x i : Nat) : bitOf (clearBit x i) i = false := by
  unfold clearBit
  split
  · next hset =>
    rw [bitOf_eq_testBit] at hset ⊢
    obtain ⟨y, rfl⟩ : ∃ y, x = 2 ^ i + y := ⟨x - 2 ^ i, (Nat.add_sub_cancel' (Nat.ge_two_pow_of_testBit hset)).symm⟩
    rw [Nat.testBit_two_pow_add_eq] at hset
    simpa using hset
  · next hclear => simpa using hclear

/-! ### Units of a function -/

/-- A function that may issue requests is one of the device's. -/
theorem mayIssue_fn_lt {s : State} {fn : Nat} (h : mayIssue s fn = true) : fn < s.pcie.fns.length := by
  by_contra hge
  have hnone : pciFn s fn = noPciFn := List.getD_eq_default _ _ (Nat.le_of_not_lt hge)
  simp [mayIssue, hnone, noPciFn] at h

section
variable {s : State} {fn m : Nat} (hfn : fn < s.fns.length) (f : Mailbox → Mailbox)
include hfn

theorem mbxOf_setMbx_same (hm : m < (fnOf s fn).mailboxes.length) : mbxOf (setMbx s fn m f) fn m = f (mbxOf s fn m) := by
  rw [mbxOf, setMbx, fnOf_setFn_same s fn _ hfn]
  exact modifyAt_getD_same f _ _ m hm

theorem mbxOf_setMbx_other {k : Nat} (hk : k ≠ m) : mbxOf (setMbx s fn m f) fn k = mbxOf s fn k := by
  rw [mbxOf, setMbx, fnOf_setFn_same s fn _ hfn]
  exact modifyAt_getD_other f _ _ hk

end

/-! ### Start-up (R503) -/

theorem bootGo_loads {s : State} (h : s.boot.st = .idle ∨ s.boot.st = .failed) :
    bootGo s = { s with boot := { s.boot with
      attempts := satAdd 16 s.boot.attempts 1
      st := if fetchRefused s then .failed else .fetch
      fail := if fetchRefused s then 7 else 0 } } := if_neg (by rcases h with h | h <;> simp [h])

/-! ### MSI-X (R441) -/

/-- A table entry with its Mask bit 0. -/
def unmasked (w : W128) : W128 := BitVec.ofNat 128 (clearBit w.toNat 96)

theorem getLsbD_unmasked (w : W128) : (unmasked w).getLsbD 96 = false := by
  rw [unmasked, BitVec.getLsbD_ofNat, ← bitOf_eq_testBit, bitOf_clearBit_same, Bool.and_false]

/-- A function's table with an entry changed. -/
def withEntry (e : Nat) (f : W128 → W128) (F : Function) : Function := { F with msix := modifyAt e f F.msix }

/-- The message of a pending entry is sent. -/
def messageSent (s : State) (fn e : Nat) : State :=
  setPci (setFn s fn fun F => { F with pba := clearBit F.pba e }) fn fun f => { f with sent := modifyAt e (· + 1) f.sent }

theorem unmaskEntry_sends {s : State} {fn e : Nat} (hfn : fn < s.fns.length) (he : e < (fnOf s fn).msix.length)
    (hpending : bitOf (fnOf s fn).pba e = true) (hd0 : (pciFn s fn).d3hot = false) (hissue : mayIssue s fn = true) :
    unmaskEntry s fn e = messageSent (setFn s fn (withEntry e unmasked)) fn e := by
  have hentry : fnOf (setFn s fn (withEntry e unmasked)) fn = withEntry e unmasked (fnOf s fn) := fnOf_setFn_same s fn _ hfn
  have hmask : ((fnOf (setFn s fn (withEntry e unmasked)) fn).msix.getD e maskedEntry).getLsbD 96 = false := by
    rw [hentry]
    exact (congrArg (BitVec.getLsbD · 96) (modifyAt_getD_same unmasked maskedEntry _ e he)).trans (getLsbD_unmasked _)
  have hpba : bitOf (fnOf (setFn s fn (withEntry e unmasked)) fn).pba e = true := by rw [hentry]; exact hpending
  have hd0' : (pciFn (setFn s fn (withEntry e unmasked)) fn).d3hot = false := hd0
  have hissue' : mayIssue (setFn s fn (withEntry e unmasked)) fn = true := hissue
  refine if_pos ?_
  show (bitOf (fnOf (setFn s fn (withEntry e unmasked)) fn).pba e
    && !((fnOf (setFn s fn (withEntry e unmasked)) fn).msix.getD e maskedEntry).getLsbD 96
    && !(pciFn (setFn s fn (withEntry e unmasked)) fn).d3hot && mayIssue (setFn s fn (withEntry e unmasked)) fn) = true
  rw [hpba, hmask, hd0', hissue']
  rfl

/-- What a message leaves: no pending bit, and one message more. -/
theorem bitOf_pba_messageSent {s : State} {fn : Nat} (e : Nat) (hfn : fn < s.fns.length) : bitOf (fnOf (messageSent s fn e) fn).pba e = false := by
  have hset : fnOf (messageSent s fn e) fn = { fnOf s fn with pba := clearBit (fnOf s fn).pba e } := fnOf_setFn_same s fn _ hfn
  rw [hset]
  exact bitOf_clearBit_same _ e

theorem sent_messageSent {s : State} {fn : Nat} (e : Nat) (hfn : fn < s.pcie.fns.length) : (pciFn (messageSent s fn e) fn).sent.getD e 0
    = if e < (pciFn s fn).sent.length then (pciFn s fn).sent.getD e 0 + 1 else 0 := by
  have hset : pciFn (messageSent s fn e) fn = { pciFn s fn with sent := modifyAt e (· + 1) (pciFn s fn).sent } :=
    modifyAt_getD_same _ _ _ fn hfn
  rw [hset]
  split
  · next hlt => exact modifyAt_getD_same _ _ _ e hlt
  · next hge => exact List.getD_eq_default _ _ (by simpa using hge)

theorem exec_msixUnmask_sends {s : State} {fn e : Nat} (hwrite : canWrite s fn) (hfns : s.fns.length = 5) (he : e < 64)
    (hpending : bitOf (fnOf s fn).pba e = true) (hlength : (fnOf s fn).msix.length = 64) (hd0 : (pciFn s fn).d3hot = false)
    (hissue : mayIssue s fn = true) :
    ∃ t, exec (.msixUnmask fn e) s = .next t ∧ bitOf (fnOf t fn).pba e = false
      ∧ (pciFn t fn).sent.getD e 0 = (if e < (pciFn s fn).sent.length then (pciFn s fn).sent.getD e 0 + 1 else 0)
      ∧ t.queues = s.queues ∧ t.mem = s.mem := by
  have hfn : fn < s.fns.length := by obtain ⟨-, -, -, hlt, -⟩ := hwrite; omega
  have hsends := unmaskEntry_sends hfn (hlength ▸ he) hpending hd0 hissue
  exact ⟨_, congrArg Host.Outcome.next ((barWrite_reaches _ hwrite).trans ((if_pos he).trans hsends)),
    bitOf_pba_messageSent e (by simpa using hfn), sent_messageSent (s := setFn s fn (withEntry e unmasked)) e (mayIssue_fn_lt hissue), rfl, rfl⟩

/-! ### Mailboxes (R388) -/

theorem postMbx_posts {s : State} {fn m : Nat} (hm : m < 8) (hfree : (mbxOf s fn m).state = .free) (hready : s.boot.fwReady = true) :
    postMbx s fn m = setMbx s fn m fun M => { M with state := .posted, order := nextPost s } := if_pos (by simp [hfree, hready, hm])

theorem releaseMbx_frees {s : State} {fn m : Nat} (hreplied : (mbxOf s fn m).state = .replied) :
    releaseMbx s fn m = setMbx s fn m fun M => { M with state := .free } := if_pos (by simp [hreplied])

/-- A row that changes one mailbox of a function, as hardware serves it. -/
theorem exec_changesMbx {s : State} {fn m : Nat} {i : Instr} {act : State → State} {f : Mailbox → Mailbox} (hwrite : canWrite s fn)
    (hfns : s.fns.length = 5) (hm : m < 8) (hboxes : (fnOf s fn).mailboxes.length = 8)
    (hi : exec i s = .next (barWrite s fn fun x => if m < 8 then act x else x)) (hact : act s = setMbx s fn m f) :
    ∃ t, exec i s = .next t ∧ mbxOf t fn m = f (mbxOf s fn m) ∧ (∀ k, k ≠ m → mbxOf t fn k = mbxOf s fn k)
      ∧ t.queues = s.queues ∧ t.mem = s.mem := by
  have hfn : fn < s.fns.length := by obtain ⟨-, -, -, hlt, -⟩ := hwrite; omega
  rw [barWrite_reaches _ hwrite, if_pos hm, hact] at hi
  exact ⟨_, hi, mbxOf_setMbx_same hfn f (hboxes ▸ hm), fun k hk => mbxOf_setMbx_other hfn f hk, rfl, rfl⟩

/-! ### Registers of page 0 (R434, R440) -/

/-- A write of 8 bytes to SHD_EVENT clears the bits that it sets. -/
theorem bar0Write_event (s : State) (fn val : Nat) :
    bar0Write s fn 0x098 8 val = setFn s fn fun F => { F with event := clearBits F.event (val % 2 ^ 64) } := by
  have hserved : (liveRegs s fn).any (fun r => inWord r (0x098 % 4096 / 8 * 8)) = true :=
    List.any_eq_true.2 ⟨⟨0x098, 64, (fnOf s fn).event⟩, by simp [liveRegs], by simp [inWord, slotBytes, ceilDiv]⟩
  have hword : writeLive s fn (0x098 % 4096 / 8 * 8) (wordWrite 0x098 8 val) = writeEvent s fn (wordWrite 0x098 8 val) := rfl
  have hdata : (wordWrite 0x098 8 val).data = val % 2 ^ 64 := by simp [wordWrite]
  have hwindow : windowWrite s fn 0x098 8 val = writeEvent s fn (wordWrite 0x098 8 val) := by
    unfold windowWrite
    rw [if_neg (by decide), if_neg (by decide), if_neg (by decide), if_pos ⟨by decide, hserved⟩, hword]
  rw [bar0Write, if_pos (by decide), hwindow, writeEvent, hdata]

/-! ### The shadow (R377) -/

/-- A page that firmware brings up to date. -/
theorem buildPage_builds (s : State) (key : Nat) : ∃ pg, buildPage s key = { s with shadow := insertKey key pg s.shadow }
    ∧ pg.words = pageWords (shadowRegs s key) ∧ pg.stamp = s.now
    ∧ (∀ old, lookupKey key s.shadow = some old → pg.seq = if old.words = pg.words then old.seq else (old.seq + 2) % 2 ^ 64) := by
  refine ⟨_, rfl, ?_⟩
  cases hold : lookupKey key s.shadow with
  | none => exact ⟨rfl, rfl, nofun⟩
  | some old =>
    refine ⟨rfl, rfl, fun _ h => ?_⟩
    cases h
    rfl

/-- Settles O33: each word's write passes its own test, and the shadow's page is the one that is built. -/
theorem hardwareRegistersServe : Obligations.HardwareRegistersServe := by
  refine ⟨fun s fn hwrite hfns => ⟨fun hpf hst => ?go, fun e he hpending hlength hd0 hissue =>
    exec_msixUnmask_sends hwrite hfns he hpending hlength hd0 hissue, fun m hm hboxes hfree hready => ?post,
    fun m hm hboxes hreplied => ?release, fun off size val => ?poisoned, fun val => ?event⟩, fun s fn page key hfn hserve hkey => ?shadow⟩
  case go => exact congrArg _ ((barWrite_reaches _ hwrite).trans ((if_pos hpf).trans (bootGo_loads hst)))
  case post => exact exec_changesMbx hwrite hfns hm hboxes (act := fun x => postMbx x fn m) rfl (postMbx_posts hm hfree hready)
  case release => exact exec_changesMbx hwrite hfns hm hboxes (act := fun x => releaseMbx x fn m) rfl (releaseMbx_frees hreplied)
  case poisoned => exact congrArg _ (barWrite_reaches _ hwrite)
  case event => exact congrArg _ ((barWrite_reaches _ hwrite).trans (bar0Write_event s fn val))
  case shadow =>
    obtain ⟨pg, hbuilt, hwords, hstamp, hseq⟩ := buildPage_builds s key
    have hexec : exec (.shadowPageUpdate fn page) s = .next (buildPage s key) := by
      show Host.Outcome.next (match shadowKey s fn page with | some key => _ | none => _) = _
      rw [hkey]
      exact congrArg _ (if_pos (by simp [hserve, hfn]))
    rw [hbuilt] at hexec
    exact ⟨_, pg, hexec, lookupKey_insertKey_same .., hwords, hstamp, hseq, fun k hk => lookupKey_insertKey_other pg _ hk, rfl⟩

end Sys2Proof.Machine
end

section
/-! FRAME. What stores, undefined outputs and early ends of commands leave of the invariant's parts and of the network: memories stay in
canonical form, no unit comes or goes, and of the network side only a queue pair's note of writes under way can change (R364). -/

namespace Sys2Proof.Machine

/-- A queue pair, and the network side, but for the writes under way. -/
def quieted (x : Qp) : Qp := { x with unacked := false }
def netQuiet (n : Net) : Net := { n with qps := n.qps.map fun e => (e.1, quieted e.2) }

/-- A step that keeps the invariant's parts, and the network side but for the writes under way. -/
structure Calm (s t : State) : Prop where
  mem : memoryOk s.mem → memoryOk t.mem
  field : fieldOk s.field → fieldOk t.field
  sizes : sizes t = sizes s
  net : netQuiet t.net = netQuiet s.net
  boot : t.boot = s.boot

namespace Calm

theorem rfl {s : State} : Calm s s := ⟨id, id, Eq.refl _, Eq.refl _, Eq.refl _⟩

theorem trans {s t u : State} (h : Calm s t) (g : Calm t u) : Calm s u :=
  ⟨g.mem ∘ h.mem, g.field ∘ h.field, g.sizes.trans h.sizes, g.net.trans h.net, g.boot.trans h.boot⟩

/-- The second step first: its state says what the first one is. -/
theorem after {s t u : State} (g : Calm t u) (h : Calm s t) : Calm s u := h.trans g

/-- Such a step keeps the invariant. -/
theorem ok {s t : State} (h : Calm s t) (hs : stateOk s) : stateOk t := by
  obtain ⟨hm, hf, hz⟩ := hs
  exact ⟨h.mem hm, h.field hf, h.sizes.trans hz⟩

/-- What changes none of these parts. -/
theorem same {s t : State} (hm : t.mem = s.mem) (hf : t.field = s.field) (hz : Machine.sizes t = Machine.sizes s) (hn : t.net = s.net)
    (hb : t.boot = s.boot) : Calm s t := ⟨fun h => hm ▸ h, fun h => hf ▸ h, hz, congrArg netQuiet hn, hb⟩

/-- A change of memory that keeps its own part. -/
theorem ofMem {s t : State} (hf : t.field = s.field) (hz : Machine.sizes t = Machine.sizes s) (hn : t.net = s.net)
    (hb : t.boot = s.boot) (hm : memoryOk s.mem → memoryOk t.mem) : Calm s t := ⟨hm, fun h => hf ▸ h, hz, congrArg netQuiet hn, hb⟩

/-- A change of the field that keeps its own part. -/
theorem ofField {s t : State} (hm : t.mem = s.mem) (hz : Machine.sizes t = Machine.sizes s) (hn : t.net = s.net)
    (hb : t.boot = s.boot) (hf : fieldOk s.field → fieldOk t.field) : Calm s t := ⟨fun h => hm ▸ h, hf, hz, congrArg netQuiet hn, hb⟩

theorem foldl {α : Type} {f : State → α → State} (hf : ∀ s a, Calm s (f s a)) : ∀ (xs : List α) (s : State), Calm s (xs.foldl f s)
  | [], _ => rfl
  | x :: xs, s => (hf s x).trans (foldl hf xs (f s x))

theorem foldlM {α ε : Type} {f : State → α → Except ε State} (hf : ∀ {s t a}, f s a = .ok t → Calm s t) :
    ∀ {xs : List α} {s t : State}, xs.foldlM f s = .ok t → Calm s t
  | [], _, _, h => by cases h; exact rfl
  | x :: xs, s, t, h => by
    rw [List.foldlM_cons] at h
    cases hx : f s x with
    | error e => rw [hx] at h; cases h
    | ok u =>
      rw [hx] at h
      exact (hf hx).trans (foldlM hf h)

end Calm

/-! ### Updates of one unit -/

@[simp] theorem sizes_setQueue (s : State) (q : Nat) (f : Queue → Queue) : sizes (setQueue s q f) = sizes s := by simp [sizes]
@[simp] theorem sizes_setPart (s : State) (p : Nat) (f : Partition → Partition) : sizes (setPart s p f) = sizes s := by simp [sizes]

theorem calm_setQueue (s : State) (q : Nat) (f : Queue → Queue) : Calm s (setQueue s q f) := .same rfl rfl (sizes_setQueue ..) rfl rfl
theorem calm_setPart (s : State) (p : Nat) (f : Partition → Partition) : Calm s (setPart s p f) := .same rfl rfl (sizes_setPart ..) rfl rfl
theorem calm_setResult (s : State) (q : Nat) (r : Result) : Calm s (setResult s q r) := calm_setQueue ..
theorem calm_setCmd (s : State) (q : Nat) (f : Cmd → Cmd) : Calm s (setCmd s q f) := calm_setQueue ..
theorem calm_setPartMem (s : State) (p : Nat) (f : MemCounts → MemCounts) : Calm s (setPartMem s p f) := calm_setPart ..
theorem calm_regulate (s : State) (p lines : Nat) (write : Bool) : Calm s (regulate s p lines write) := calm_setPart ..

theorem calm_setStream (s : State) (id : Nat) (f : Stream → Stream) : Calm s (setStream s id f) := by
  unfold setStream
  split
  · exact .rfl
  · exact .same rfl rfl rfl rfl rfl

theorem calm_setEngine (s : State) (e : Nat) (f : Engine → Engine) : Calm s (setEngine s e f) :=
  .ofField rfl rfl rfl rfl fun ⟨he, hh, ha, ht, hs⟩ => ⟨(modifyAt_length ..).trans he, hh, ha, ht, hs⟩

theorem calm_setSlot (s : State) (e i : Nat) (x : Slot) : Calm s (setSlot s e i x) := calm_setEngine ..

/-! ### Stores -/

theorem calm_keyLine (s : State) (line : Nat) : Calm s (keyLine s line) := by
  unfold keyLine
  split
  · exact .rfl
  · exact .ofMem rfl rfl rfl rfl id

theorem calm_putPhys (s : State) (a : Nat) (bs : List Byte) : Calm s (putPhys s a bs) :=
  (calm_keyLine ..).after (.ofMem rfl rfl rfl rfl fun ⟨hp, hh, hr, hc⟩ => ⟨memWrite_wf bs a hp, hh, hr, hc⟩)

theorem calm_failLate (s : State) (q : Nat) (f : Fail) : Calm s (failLate s q f) := calm_setQueue ..

theorem calm_poisonCmds (s : State) (e : WcbEntry) : Calm s (poisonCmds s e) := .foldl (fun x q => calm_failLate x q _) _ _

/-- Bytes laid over a memory one by one. -/
theorem foldl_memSet_wf (base : Nat) (bytes : List (Nat × Byte)) {m : Memory} (h : Memory.wf m = true) :
    Memory.wf (bytes.foldl (fun m (o, b) => memSet m (base + o) b) m) = true :=
  List.foldlRecOn (motive := fun m => Memory.wf m = true) _ _ h fun _ hm x _ => memSet_wf (base + x.1) x.2 hm

/-- The wait for a partial line (R338) and the write itself charge the regulator. -/
theorem calm_drainEntry (s : State) (e : WcbEntry) : Calm s (drainEntry s e) := by
  unfold drainEntry
  dsimp only
  split
  · exact ((calm_poisonCmds ..).after (calm_regulate ..)).after (.ofMem rfl rfl rfl rfl id)
  · have hdrained (old : Memory) (hold : Memory.wf s.mem.phys = true → Memory.wf old = true) (poison : List Nat) (wcb : List WcbEntry) :
        Calm s (keyLine { s with mem := { s.mem with
          wcb := wcb, phys := e.bytes.foldl (fun m (o, b) => memSet m (e.line * 64 + o) b) old, poison := poison } } e.line) :=
      (calm_keyLine ..).after (.ofMem rfl rfl rfl rfl fun ⟨hp, hh, hr, hc⟩ => ⟨foldl_memSet_wf _ _ (hold hp), hh, hr, hc⟩)
    have hold : Memory.wf s.mem.phys = true → Memory.wf (if staleLine { s with mem := { s.mem with wcb := s.mem.wcb.filter (·.line != e.line) } } e.line
        then memWrite s.mem.phys (e.line * 64) (readLine { s with mem := { s.mem with wcb := s.mem.wcb.filter (·.line != e.line) } } e.line)
        else s.mem.phys) = true := by
      intro h
      split
      · exact memWrite_wf _ _ h
      · exact h
    split
    · exact (hdrained _ hold _ _).trans (calm_regulate ..)
    · exact (hdrained _ hold _ _).trans ((calm_regulate ..).trans ((calm_setPartMem ..).trans (calm_regulate ..)))

theorem calm_drainOldest (s : State) (p : Nat) : Calm s (drainOldest s p) := by
  unfold drainOldest
  split
  · exact .rfl
  · next e _ => exact .after (.after (calm_setPartMem ..) (.same (s := drainEntry s e) rfl rfl rfl rfl rfl)) (calm_drainEntry ..)

theorem calm_wcbMerge (s : State) (p q a : Nat) (bs : List Byte) : Calm s (wcbMerge s p q a bs) := by
  unfold wcbMerge
  dsimp only
  split
  · split
    · have hmerged (wcb : List WcbEntry) (f : MemCounts → MemCounts) : Calm s (setPartMem { s with mem := { s.mem with wcb := wcb } } p f) :=
        (calm_setPartMem ..).after (.ofMem rfl rfl rfl rfl id)
      split
      · exact (hmerged _ _).trans (calm_drainEntry ..)
      · exact hmerged _ _
    · exact (calm_drainEntry ..).trans (.ofMem rfl rfl rfl rfl id)
  · split
    · exact (calm_drainOldest ..).trans (.ofMem rfl rfl rfl rfl id)
    · exact .ofMem rfl rfl rfl rfl id

theorem calm_physStoreLine {s t : State} {p q a : Nat} {bs : List Byte} (h : physStoreLine s p q a bs = .ok t) : Calm s t := by
  unfold physStoreLine at h
  dsimp only at h
  split at h
  · split at h
    · cases h; exact (calm_putPhys ..).trans (calm_regulate ..)
    · cases h; exact calm_wcbMerge ..
  · split at h
    · cases h
    · cases h; exact calm_putPhys ..

/-- A write on its way through a queue pair is noted there alone (R364). -/
theorem netQuiet_sentRemote (s : State) (qp : Nat) : netQuiet (sentRemote s qp).net = netQuiet s.net := by
  simp only [netQuiet, sentRemote, List.map_map]
  refine congrArg (fun qps => { s.net with qps := qps }) (List.map_congr_left fun e _ => ?_)
  dsimp only [Function.comp_apply]
  split <;> rfl

theorem calm_storeHome {s t : State} {p q va : Nat} {bs : List Byte} (h : storeHome s p q va bs = .ok t) : Calm s t := by
  unfold storeHome at h
  split at h
  · cases h
  · exact calm_physStoreLine h
  · cases h
    exact .ofMem rfl (by simp [sizes]) rfl rfl fun ⟨hp, hh, hr, hc⟩ => ⟨hp, memWrite_wf _ _ hh, hr, hc⟩
  · cases h
    exact ⟨fun ⟨hp, hh, hr, hc⟩ => ⟨hp, hh, memWrite_wf _ _ hr, hc⟩, id, rfl, netQuiet_sentRemote s _, rfl⟩
  · cases h

theorem calm_storeLine {s t : State} {p q va : Nat} {bs : List Byte} (h : storeLine s p q va bs = .ok t) : Calm s t := by
  unfold storeLine at h
  split at h
  · cases h; exact .ofMem rfl rfl rfl rfl id
  · exact calm_storeHome h

theorem calm_storeBytes {s t : State} {p q va : Nat} {bs : List Byte} (h : storeBytes s p q va bs = .ok t) : Calm s t :=
  .foldlM calm_storeLine h

theorem calm_storeAll {s t : State} {p q : Nat} {ws : List (Nat × List Byte)} (h : storeAll s p q ws = .ok t) : Calm s t :=
  .foldlM calm_storeBytes h

theorem calm_physStore {s t : State} {p q a : Nat} {bs : List Byte} (h : physStore s p q a bs = .ok t) : Calm s t :=
  .foldlM calm_physStoreLine h

theorem calm_touchPlots (s : State) (p : Nat) (spans : List (Nat × Nat)) : Calm s (touchPlots s p spans) := calm_setPart ..

theorem calm_storeOnce {s t : State} {p q va : Nat} {bs : List Byte} (h : storeOnce s p q va bs = .ok t) : Calm s t := by
  unfold storeOnce at h
  split at h
  · next hstore => cases h; exact (calm_storeBytes hstore).trans (calm_touchPlots ..)
  · cases h

theorem calm_havoc (s : State) (p q : Nat) (spans : List (Nat × Nat)) : Calm s (havoc s p q spans) := by
  refine .foldl (fun x a => ?_) _ _
  have htake : Calm x (takeFree x a.2).2 := .same rfl rfl rfl rfl rfl
  dsimp only
  split
  · next h => exact htake.trans (calm_storeBytes h)
  · exact htake

/-! ### Resident state -/

theorem calm_setStateFields (s : State) (gs : List Nat) (row : Nat) (r : Record) (fs : List Nat) : Calm s (setStateFields s gs row r fs) :=
  .ofField rfl rfl rfl rfl fun ⟨he, hh, ha, ht, hs⟩ => ⟨he, hh,
    List.foldlRecOn (motive := fun m => Memory.wf m = true) _ _ ha fun _ hm _ _ => memWrite_wf _ _ hm, ht, hs⟩

theorem calm_writeState (s : State) (st : Stream) (slot : Nat) (r : Record) (fs : List Nat) : Calm s (writeState s st slot r fs) :=
  calm_setStateFields ..

theorem calm_havocState (s : State) (st : Stream) : Calm s (havocState s st) :=
  .foldl (fun x (_, f) => (calm_writeState ..).after (t := (takeFree x f.n).2) (.same rfl rfl rfl rfl rfl)) _ _

theorem calm_markUndef (s : State) (id : Nat) : Calm s (markUndef s id) := by
  unfold markUndef
  split
  · split
    · exact (calm_havocState ..).trans (calm_setStream ..)
    · exact .rfl
  · exact .rfl

/-! ### Early ends -/

theorem calm_endEarly (s : State) (q p : Nat) (f : Fail) (outs : List (Nat × Nat)) (work : Nat) : Calm s (endEarly s q p f outs work) := by
  unfold endEarly
  split
  · exact (calm_havoc ..).trans ((Calm.foldl calm_markUndef _ _).trans (calm_setResult ..))
  · exact calm_setResult ..

theorem calm_endNet (s : State) (q : Nat) (f : Fail) : Calm s (endNet s q f) := by
  unfold endNet
  dsimp only
  split
  · exact .rfl
  · split
    · exact calm_setResult ..
    · split
      · exact .rfl
      · exact calm_endEarly ..

end Sys2Proof.Machine
end

section
/-! O45. A NET command that no LC one precedes begins as every command does; what the peer answers goes to the oldest message of its queue
pair, and a pair that enters ERROR is found again through the frame of the early ends of its commands. -/

namespace Sys2Proof.Machine

theorem netCommand_starts {s : State} {q op : Nat} {checks : State → Queue → Cmd → List (Bool × Fail)} {Q : Queue} {c : Cmd}
    (eff : State → Queue → Cmd → State) (hlc : lcNetFirst s q = false) (h : starts s q op checks Q c) :
    netCommand s q op checks eff = eff (running s q c) Q c := by
  rw [netCommand, hlc, runCommand_starts eff h]; rfl

/-- The loader takes no time. -/
theorem running_now (s : State) (q : Nat) (c : Cmd) : (running s q c).now = s.now :=
  congrArg (·.2.2) (atStageB_atChecks s q (queueOf s q) c)

theorem computeNetSend_sends {s : State} {q : Nat} {d : Cmd} {bs : List Byte} (hd : (queueOf s q).cmd = some d)
    (hbs : loadBytes s (queueOf s q).cfg.part (fld d.body 0 48) (nsLen d.body) = .ok bs) :
    computeNetSend s q = sendOn s q (nsQp d.body) (if nsOp d.body = 0 then none else some (nsRemote d.body)) (sendMessage d.body bs) bs := by
  simp only [computeNetSend, hd, hbs]

theorem ackCmd_completes {s : State} {q : Nat} {c : Cmd} (hc : (queueOf s q).cmd = some c) (hend : c.ending = none) (hop : hOpcode c.hdr ≠ 0x403) :
    ackCmd s q = setResult s q ⟨.completed, 0, 0, 1⟩ := by
  simp only [ackCmd, hc, hend, if_neg hop]

/-- A queue pair whose oldest message has been acknowledged. -/
def ackedQp (rest : List Nat) (y : Qp) : Qp := { y with sends := rest, tries := 0 }

/-- The acknowledgement of a message that is no NET_MIGRATE. -/
theorem ackReceived_completes {s : State} {n q : Nat} {x : Qp} {rest : List Nat} {c : Cmd} (hx : qpOf s n = some x) (hst : x.st = .ready)
    (hsends : x.sends = q :: rest) (hc : (queueOf s q).cmd = some c) (hend : c.ending = none) (hop : hOpcode c.hdr ≠ 0x403) :
    ackReceived s n = setResult (setQp s n (ackedQp rest)) q ⟨.completed, 0, 0, 1⟩ := by
  simp only [ackReceived, hx, hst, hsends]
  exact ackCmd_completes (s := setQp s n (ackedQp rest)) hc hend hop

/-! ### A queue pair enters ERROR -/

theorem lookupKey_map {α β : Type} (g : α → β) (k : Nat) : ∀ xs : List (Nat × α),
    lookupKey k (xs.map fun e => (e.1, g e.2)) = (lookupKey k xs).map g
  | [] => rfl
  | (i, v) :: xs => by
    rw [List.map_cons, lookupKey, lookupKey]
    split
    · rfl
    · exact lookupKey_map g k xs

/-- What a calm step leaves of a queue pair: all but its note of writes under way. -/
theorem Calm.qpOf_ctx {s t : State} {n : Nat} {x : Qp} (h : Calm s t) (hx : qpOf s n = some x) : ∃ y, qpOf t n = some y ∧ y.ctx = x.ctx := by
  have hfound := congrArg (lookupKey n) (congrArg Net.qps h.net)
  rw [netQuiet, netQuiet, lookupKey_map quieted, lookupKey_map quieted] at hfound
  change Option.map _ (qpOf t n) = Option.map _ (qpOf s n) at hfound
  rw [hx] at hfound
  obtain ⟨y, hy, hyx⟩ := Option.map_eq_some_iff.mp hfound
  have hctx : (quieted y).ctx = (quieted x).ctx := by rw [hyx]
  exact ⟨y, hy, hctx⟩

theorem qpError_errs {s : State} {n : Nat} {x : Qp} (st : Status) (hx : qpOf s n = some x) :
    ∃ y, qpOf (qpError s n st) n = some y ∧ y.st = .error ∧ y.cause = st ∧ y.sends = [] ∧ y.recvs = [] ∧ y.ctx = x.ctx := by
  have hends : Calm s ((qpUsers s n).eraseDups.foldl (fun x q => endNet x q (failAt st 0 0)) s) := .foldl (fun x q => calm_endNet x q _) _ _
  obtain ⟨y, hy, hctx⟩ := hends.qpOf_ctx hx
  exact ⟨_, (qpOf_setQp_same _ n _).trans (congrArg _ hy), rfl, rfl, rfl, rfl, hctx⟩

/-! ### Retries (R451) -/

theorem ackTimeout_retries {s : State} {n : Nat} {x : Qp} (hx : qpOf s n = some x) (hst : x.st = .ready) (hsends : x.sends ≠ []) :
    ackTimeout s n = if x.tries < ctxRetry x.ctx then
        setLink (setQp s n fun y => { y with tries := y.tries + 1 }) (qpLink x) fun l => { l with retransmits := satAdd 32 l.retransmits 1 }
      else qpError s n .memFarTimeout := by
  simp [ackTimeout, hx, hst, hsends]

/-- Settles O45. The barrier is the one step that reads more than its command: its list of queue pairs. -/
theorem netCommandsRun : Obligations.NetCommandsRun := by
  unfold Obligations.NetCommandsRun
  refine ⟨fun s q Q c => ⟨fun hlc h => ?send, fun d bs hQ hd hbs => ?compute, fun hlc h => ?recv, fun qps hlc h hqps => ?barrier⟩,
    fun s n x hx hst => ⟨fun q rest c hsends hc hend hop hq => ?ack, ?nak, fun st => qpError_errs st hx, fun hsends hlt => ?retry,
      fun hsends hle => ?giveUp⟩⟩
  case send => exact congrArg Host.Outcome.next (netCommand_starts _ hlc h)
  case compute =>
    subst hQ
    exact computeNetSend_sends hd hbs
  case recv => exact congrArg Host.Outcome.next (netCommand_starts _ hlc h)
  case barrier =>
    refine congrArg Host.Outcome.next ((netCommand_starts _ hlc h).trans ?_)
    simp only [effectNetBarrier, hqps, running_now]
  case ack =>
    refine ⟨_, congrArg Host.Outcome.next (ackReceived_completes hx hst hsends hc hend hop), ?_, ?_, fun r hr => ?_, fun k hk => ?_, rfl, rfl⟩
    · exact (qpOf_setQp_same s n (ackedQp rest)).trans (congrArg _ hx)
    · exact congrArg Queue.result (queueOf_setQueue_same _ q _ hq)
    · exact queueOf_setQueue_other _ _ hr
    · exact qpOf_setQp_other s (ackedQp rest) hk
  case nak =>
    refine congrArg Host.Outcome.next ?_
    simp only [nakReceived, hx, if_pos hst]
  case retry => exact congrArg Host.Outcome.next ((ackTimeout_retries hx hst hsends).trans (if_pos hlt))
  case giveUp => exact congrArg Host.Outcome.next ((ackTimeout_retries hx hst hsends).trans (if_neg (Nat.not_lt.mpr hle)))

end Sys2Proof.Machine
end

section
/-! O46. A request for a READY queue pair on a link that is up and protected as its port demands is taken; the rest says what each kind
of request then does. -/

namespace Sys2Proof.Machine

section Inbound

variable {s : State} {n : Nat} {x : Qp}

/-- The request is taken. -/
theorem inbound_takes (act : Qp → State → State) (hx : qpOf s n = some x) (hst : x.st = .ready) (hup : (linkOf s (qpLink x)).up = true)
    (hsa : linkMacsec s (qpLink x) = false ∨ (linkOf s (qpLink x)).sa.isSome = true) : inbound s n act = act x s := by
  have hprotected : (linkMacsec s (qpLink x) && (linkOf s (qpLink x)).sa.isNone) = false := by
    rcases hsa with h | h
    · rw [h, Bool.false_and]
    · rw [← Option.not_isSome, h, Bool.not_true, Bool.and_false]
  simp [inbound, hx, hup, hprotected, hst]

theorem placeInbound_places {t : State} {addr : Nat} {bs : List Byte} (ok : State → State) (h : inboundStore s x.part addr bs = .ok t) :
    placeInbound s n x addr bs ok = ok t := by
  simp only [placeInbound, h]

/-- Bytes that the plots do not let a command write are refused (log entry 60). -/
theorem placeInbound_refuses {addr : Nat} {bs : List Byte} (ok : State → State) (h : mappedWrite s x.part addr bs.length = false) :
    placeInbound s n x addr bs ok = refuseInbound s n := by
  simp [placeInbound, inboundStore, h]


/-- Whether an epoch is below the last that its identifier has finished. -/
def staleToken (last : Option Nat) (epoch : Nat) : Bool :=
  match last with | some e => decide (epoch < e) | none => false

theorem not_staleToken {last : Option Nat} {epoch : Nat} (h : ∀ e, last = some e → e ≤ epoch) : ¬ staleToken last epoch = true := by
  cases last with
  | none => exact Bool.false_ne_true
  | some e => exact fun hlt => Nat.not_lt.mpr (h e rfl) (of_decide_eq_true hlt)

end Inbound

/-- Settles O46: each request is taken, and the cases are those of its own window, its receive or its barrier. -/
theorem inboundArrives : Obligations.InboundArrives := by
  unfold Obligations.InboundArrives
  intro s n x hx hst hup hsa
  have htaken (act : Qp → State → State) : inbound s n act = act x s := inbound_takes act hx hst hup hsa
  refine ⟨fun key addr bs => ⟨fun t hgrant ht => ?placed, fun hgrant => ?outside, fun hgrant hmap => ?unmapped⟩,
    fun key addr len => ⟨fun bs hgrant hbs => ?read, fun hgrant => ?readOutside⟩, fun bs hposted => ?noReceive,
    fun bs q rest c t hposted hc hlen ht => ?message, fun bs q rest c hposted hc hlen => ?tooLong,
    fun key addr imm bs t hgrant hposted ht => ?immediate, fun imm epoch himm => ?noToken, fun imm epoch himm => ⟨fun b hb => ?matched,
      fun hnone hepoch hroom => ?held⟩⟩
  case placed => exact congrArg Host.Outcome.next ((htaken _).trans ((if_pos hgrant).trans (placeInbound_places _ ht)))
  case outside => exact congrArg Host.Outcome.next ((htaken _).trans (if_neg (by simp [hgrant])))
  case unmapped => exact congrArg Host.Outcome.next ((htaken _).trans ((if_pos hgrant).trans (placeInbound_refuses _ hmap)))
  case read =>
    refine congrArg Host.Outcome.next ((htaken _).trans ((if_pos hgrant).trans ?_))
    simp only [hbs]
  case readOutside => exact congrArg Host.Outcome.next ((htaken _).trans (if_neg (by simp [hgrant])))
  case noReceive =>
    refine congrArg Host.Outcome.next ((htaken _).trans ?_)
    simp only [hposted]
  case message =>
    refine congrArg Host.Outcome.next ((htaken _).trans ?_)
    simp only [hposted, hc, if_neg (Nat.not_lt.mpr hlen), placeInbound_places _ ht]
  case tooLong =>
    refine congrArg Host.Outcome.next ((htaken _).trans ?_)
    simp only [hposted, hc, if_pos hlen, refuseInbound]
  case immediate =>
    refine congrArg Host.Outcome.next ((htaken _).trans ?_)
    simp only [hgrant, List.isEmpty_iff, if_neg hposted, placeInbound_places _ ht, Bool.not_true, Bool.false_eq_true, if_false]
  case noToken => exact congrArg Host.Outcome.next ((htaken _).trans (if_pos himm))
  case matched =>
    refine congrArg Host.Outcome.next ((htaken _).trans ((if_neg (not_not_intro himm)).trans ?_))
    simp only [hb]
  case held =>
    refine congrArg Host.Outcome.next ((htaken _).trans ((if_neg (not_not_intro himm)).trans ?_))
    simp only [hnone, List.find?_nil]
    exact (if_neg (not_staleToken hepoch)).trans (if_neg (Nat.not_le.mpr hroom))

end Sys2Proof.Machine
end

section
/-! O48. The governor and the cooling change the power state alone, and of it neither the estimates nor the limits; together they move
ACLK by one step at most. A window of the slew limiter counts what it admits and releases against its allowance. -/

namespace Sys2Proof.Machine

/-! ### One action of the governor -/

/-- What the governor's actions leave of the power state: the estimates, the energy and the limits. -/
def gauges (P : Power) : Nat × List Nat × Nat × Nat × Nat × Option PwrCfg × PwrCfg :=
  (P.est, P.history, P.mean1, P.mean100, P.counts.energy, P.next, P.cfg)

/-- ACLK after one step of 25 MHz at most (R464). -/
def oneStep (old new : Nat) : Prop := new = old ∨ new = old + 25 ∨ new = old - 25

/-- An action on the power state that leaves what is measured and moves ACLK by one step at most. -/
structure Governed (s t : State) : Prop where
  power : t = { s with pwr := t.pwr }
  gauges : gauges t.pwr = gauges s.pwr
  aclk : oneStep s.pwr.aclk t.pwr.aclk

namespace Governed

theorem rfl {s : State} : Governed s s := ⟨Eq.refl _, Eq.refl _, .inl (Eq.refl _)⟩

/-- The levers' own fields. -/
theorem lever {s t : State} (h : Governed s t) (f : Power → Power) (hf : Machine.gauges (f t.pwr) = Machine.gauges t.pwr)
    (ha : (f t.pwr).aclk = t.pwr.aclk) : Governed s (setPwr t f) :=
  ⟨by rw [h.power]; exact Eq.refl _, hf.trans h.gauges, by rw [setPwr_pwr, ha]; exact h.aclk⟩

/-- Two actions of which the first leaves ACLK. -/
theorem andThen {s t u : State} (h : Governed s t) (ha : t.pwr.aclk = s.pwr.aclk) (g : Governed t u) : Governed s u :=
  ⟨by rw [g.power, h.power], g.gauges.trans h.gauges, ha ▸ g.aclk⟩

end Governed

/-- The counters of time by frequency, and no other, take the time at the old frequency (Table 21-10). -/
theorem timeCounts_times (s : State) : ∃ boost nominal below floor,
    timeCounts s = { s.pwr.counts with boostNs := boost, nominalNs := nominal, belowNs := below, floorNs := floor } := by
  unfold timeCounts
  dsimp only
  split
  · exact ⟨_, _, _, _, rfl⟩
  · split
    · exact ⟨_, _, _, _, rfl⟩
    · split <;> exact ⟨_, _, _, _, rfl⟩

theorem timeCounts_energy (s : State) : (timeCounts s).energy = s.pwr.counts.energy := by
  obtain ⟨_, _, _, _, h⟩ := timeCounts_times s
  rw [h]

theorem gauges_setAclk (s : State) (mhz : Nat) : gauges (setAclk s mhz).pwr = gauges s.pwr := by
  simp only [gauges, setAclk, setPwr_pwr, timeCounts_energy]

theorem governed_stepDown (s : State) : Governed s (stepDown s) := ⟨rfl, gauges_setAclk .., .inr (.inr rfl)⟩

theorem governed_stepUp (s : State) : Governed s (stepUp s) := ⟨rfl, gauges_setAclk .., .inr (.inl rfl)⟩

theorem governed_tighten (s : State) : Governed s (tighten s) := by
  unfold tighten
  dsimp only
  split
  · exact (governed_stepDown s).lever _ rfl rfl
  · split
    · exact Governed.rfl.lever _ rfl rfl
    · split
      · exact (governed_stepDown s).lever _ rfl rfl
      · exact Governed.rfl.lever _ rfl rfl

theorem governed_release (s : State) : Governed s (release s) := by
  have hcut : Governed s (setPwr s fun x => { x with cut := x.cut - 1 }) := Governed.rfl.lever _ rfl rfl
  unfold release
  dsimp only
  split
  · exact .rfl
  · split
    · split
      · exact Governed.rfl.lever _ rfl rfl
      · split
        · exact .rfl
        · exact (governed_stepUp s).lever _ rfl rfl
    · split
      · exact Governed.rfl.lever _ rfl rfl
      · split
        · split
          · exact hcut.andThen rfl (governed_stepUp _)
          · exact hcut
        · split
          · exact governed_stepUp s
          · exact .rfl

theorem governed_govern (s : State) : Governed s (govern s) := by
  unfold govern
  dsimp only
  split
  · exact .rfl
  · split
    · exact Governed.rfl.lever _ rfl rfl
    · split
      · exact governed_tighten s
      · split
        · exact governed_release s
        · exact .rfl

theorem governed_coolDown (s : State) : Governed s (coolDown s) := by
  unfold coolDown
  dsimp only
  split
  · exact .rfl
  · split
    · exact (governed_stepDown s).lever _ rfl rfl
    · split
      · exact governed_stepDown s
      · exact .rfl

/-- The cooling acts in an interval in which the governor leaves ACLK. -/
def governAndCool (s : State) : State := if (govern s).pwr.aclk = s.pwr.aclk then coolDown (govern s) else govern s

theorem governed_governAndCool (s : State) : Governed s (governAndCool s) := by
  unfold governAndCool
  split
  · next h => exact (governed_govern s).andThen h (governed_coolDown _)
  · exact governed_govern s

/-! ### The limits take effect (R462) -/

/-- The power state with a PWR_CONFIG in effect. -/
def withLimits (c : PwrCfg) (P : Power) : Power :=
  { P with cfg := c, next := none, cut := if c.fixed then 0 else P.cut, low := if c.fixed then 0 else P.low }

/-- All that the end of an interval can do with accepted limits. -/
theorem applyNext_cases (s : State) : (s.pwr.next = none ∧ applyNext s = s)
    ∨ ∃ c, s.pwr.next = some c ∧ (applyNext s = setAclk (setPwr s (withLimits c)) 1400 ∨ applyNext s = setPwr s (withLimits c)) := by
  cases h : s.pwr.next with
  | none => exact .inl ⟨rfl, by simp only [applyNext, h]⟩
  | some c =>
    refine .inr ⟨c, rfl, ?_⟩
    simp only [applyNext, h]
    exact ite_eq_or_eq ..

theorem applyNext_none {s : State} (h : s.pwr.next = none) : applyNext s = s := by
  simp only [applyNext, h]

theorem applyNext_limits (s : State) : (applyNext s).pwr.next = none ∧ (applyNext s).pwr.cfg = s.pwr.next.getD s.pwr.cfg := by
  obtain ⟨h, heq⟩ | ⟨c, h, heq | heq⟩ := applyNext_cases s <;> rw [heq, h]
  · exact ⟨rfl, rfl⟩
  · exact ⟨rfl, rfl⟩
  · exact ⟨rfl, rfl⟩

theorem applyNext_power (s : State) : applyNext s = { s with pwr := (applyNext s).pwr } := by
  obtain ⟨-, heq⟩ | ⟨c, -, heq | heq⟩ := applyNext_cases s <;> rw [heq] <;> rfl

/-- What is measured, but for the limits. -/
def estimates (P : Power) : Nat × List Nat × Nat × Nat × Nat := (P.est, P.history, P.mean1, P.mean100, P.counts.energy)

theorem estimates_of_gauges {P R : Power} (h : gauges P = gauges R) : estimates P = estimates R := by
  simp only [gauges, Prod.mk.injEq] at h
  obtain ⟨hest, hhistory, hmean1, hmean100, henergy, -⟩ := h
  simp only [estimates, hest, hhistory, hmean1, hmean100, henergy]

theorem applyNext_estimates (s : State) : estimates (applyNext s).pwr = estimates s.pwr := by
  obtain ⟨-, heq⟩ | ⟨c, -, heq | heq⟩ := applyNext_cases s <;> rw [heq]
  · exact estimates_of_gauges (R := (setPwr s (withLimits c)).pwr) (gauges_setAclk ..)
  · rfl

/-! ### Reports (R543) -/

/-- A part of the state outside the management state and what has been sent. -/
def apartFromReports {γ : Type} (view : State → γ) : Prop := ∀ (s : State) (mgmt : Mgmt) (out : List Answer), view { s with mgmt := mgmt, out := out } = view s

theorem platformEvents_keeps {γ : Type} {view : State → γ} (apart : apartFromReports view) (s : State) : view (platformEvents s) = view s := by
  refine frame_foldl (fun x e => ?_) _ _
  unfold sensorEvent
  dsimp only
  split
  · rfl
  · split
    · exact apart x ..
    · rfl

@[simp] theorem platformEvents_pwr (s : State) : (platformEvents s).pwr = s.pwr := platformEvents_keeps (fun _ _ _ => rfl) s
@[simp] theorem platformEvents_queues (s : State) : (platformEvents s).queues = s.queues := platformEvents_keeps (fun _ _ _ => rfl) s
@[simp] theorem platformEvents_mem (s : State) : (platformEvents s).mem = s.mem := platformEvents_keeps (fun _ _ _ => rfl) s
@[simp] theorem platformEvents_streams (s : State) : (platformEvents s).streams = s.streams := platformEvents_keeps (fun _ _ _ => rfl) s
@[simp] theorem platformEvents_net (s : State) : (platformEvents s).net = s.net := platformEvents_keeps (fun _ _ _ => rfl) s

/-! ### An interval -/

/-- The interval that ends, with its estimate (R460, R463, R476). -/
def intervalClosed (s : State) (est : Nat) : State := recordEstimate (closeInterval (settleBuckets s)) est

theorem intervalClosed_energy (s : State) (est : Nat) : (intervalClosed s est).pwr.counts.energy = s.pwr.counts.energy + est := by
  unfold intervalClosed recordEstimate closeInterval
  simp only [setPwr_pwr]
  split <;> rfl

theorem estimationInterval_eq {s : State} (est : Nat) (h : powered s = true) :
    estimationInterval s est = platformEvents (applyNext (governAndCool (intervalClosed s est))) := by
  simp only [estimationInterval, h, Bool.not_true, Bool.false_eq_true, if_false]
  rfl

/-- What an interval has measured when it has ended. -/
theorem interval_estimates (s : State) (est : Nat) : estimates (applyNext (governAndCool (intervalClosed s est))).pwr
    = (est, (est :: s.pwr.history).take 50000, meanOf ((est :: s.pwr.history).take 50000) 500,
      meanOf ((est :: s.pwr.history).take 50000) 50000, s.pwr.counts.energy + est) := by
  rw [applyNext_estimates, estimates_of_gauges (governed_governAndCool _).gauges, estimates, intervalClosed_energy]
  rfl

/-- Accepted limits stand until they take effect. -/
theorem interval_limits (s : State) (est : Nat) :
    (governAndCool (intervalClosed s est)).pwr.next = s.pwr.next ∧ (governAndCool (intervalClosed s est)).pwr.cfg = s.pwr.cfg := by
  have h := (governed_governAndCool (intervalClosed s est)).gauges
  simp only [gauges, Prod.mk.injEq] at h
  obtain ⟨-, -, -, -, -, hnext, hcfg⟩ := h
  exact ⟨hnext, hcfg⟩

/-- An interval changes the power state and the partitions' regulators alone. -/
theorem interval_frame (s : State) (est : Nat) : ∃ parts pwr, applyNext (governAndCool (intervalClosed s est)) = { s with parts := parts, pwr := pwr } := by
  refine ⟨(settleBuckets s).parts, (applyNext (governAndCool (intervalClosed s est))).pwr, ?_⟩
  rw [applyNext_power, (governed_governAndCool (intervalClosed s est)).power]
  rfl

/-! ### The slew limiter -/

/-- A part of the state outside the queues, the field and the count of free values. -/
def apartFromWork {γ : Type} (view : State → γ) : Prop :=
  ∀ (s : State) (queues : List Queue) (field : Field) (free : Nat), view { s with queues := queues, field := field, free := free } = view s

/-- A taker that takes an item changes its queue and itself (R133). -/
theorem takeItem_keeps {γ : Type} {view : State → γ} (apart : apartFromWork view) (s : State) (harrow : Bool) (i q : Nat) (fb : Bool) :
    view (takeItem s harrow i q fb) = view s := by
  have hstage (q f : Nat) (x : State) (t : Nat) : view (stageTile q f x t) = view x := by
    unfold stageTile
    split
    · rfl
    · exact apart x ..
  have hspill (x : State) (e q n : Nat) (w : Work) (tiles : List Nat) : view (spillItem x e q n w tiles) = view x := by
    unfold spillItem
    split
    · rfl
    · exact apart x ..
  have hslots (x : State) (e q : Nat) (w : Work) (tiles : List Nat) : view (takeSlots x e q w tiles) = view x := by
    unfold takeSlots
    dsimp only
    split
    · exact apart x ..
    · exact frame_foldl (fun y a => apart y ..) _ _
  unfold takeItem
  split
  · rfl
  · next src w _ =>
    have hsource : view (takeSource s i q src) = view s := by cases src <;> exact apart s ..
    have hstaged (f : Nat) : view (if w.grid.haloWidth = 0 then takeSource s i q src
        else (tilesOf w.grid (sourceItem src)).foldl (stageTile q f) (takeSource s i q src)) = view s := by
      split
      · exact hsource
      · exact (frame_foldl (hstage q f) _ _).trans hsource
    dsimp only
    split
    · exact (apart ..).trans (hstaged _)
    · exact ((apart ..).trans ((apart ..).trans ((hslots ..).trans (hspill ..)))).trans (hstaged _)

/-- What a window leaves. -/
def slewFrame (s : State) : PwrCfg × List (Nat × Stream) × MemSys × Net := (s.pwr.cfg, s.streams, s.mem, s.net)

/-- What a taker leaves that takes an item. -/
theorem takeItem_slew (s : State) (harrow : Bool) (i q : Nat) (fb : Bool) :
    (takeItem s harrow i q fb).pwr = s.pwr ∧ slewFrame (takeItem s harrow i q fb) = slewFrame s :=
  ⟨takeItem_keeps (fun _ _ _ _ => rfl) .., takeItem_keeps (fun _ _ _ _ => rfl) ..⟩

/-- A waiting unit's start is granted: its current counts in the window. -/
def grantWaiting (s : State) (x : SlewUnit) (cur : Nat) : State :=
  drawUnit (setPwr (leaveWaiting s x) fun P => { P with admitted := P.admitted + cur }) x.taker cur

theorem admitWaiting_window : ∀ (n : Nat) (s : State), s.pwr.admitted ≤ slewAllowance →
    (admitWaiting n s).pwr.admitted ≤ slewAllowance ∧ (admitWaiting n s).pwr.released = s.pwr.released
      ∧ slewFrame (admitWaiting n s) = slewFrame s
  | 0, _, h => ⟨h, rfl, rfl⟩
  | n + 1, s, h => by
    unfold admitWaiting
    split
    · exact ⟨h, rfl, rfl⟩
    · next x xs _ =>
      split
      · exact admitWaiting_window n (leaveWaiting s x) h
      · next q fb cur _ =>
        split
        · next hfits =>
          obtain ⟨hpwr, hframe⟩ := takeItem_slew (grantWaiting s x cur) (unitTaker x.taker).1 (unitTaker x.taker).2 q fb
          obtain ⟨hadmitted, hreleased, hrest⟩ := admitWaiting_window n
            (takeItem (grantWaiting s x cur) (unitTaker x.taker).1 (unitTaker x.taker).2 q fb) (by rw [hpwr]; exact hfits)
          exact ⟨hadmitted, hreleased.trans (by rw [hpwr]; rfl), hrest.trans hframe⟩
        · exact ⟨h, rfl, rfl⟩

theorem releaseBallast_window : ∀ (n : Nat) (s : State), s.pwr.released ≤ slewAllowance →
    (releaseBallast n s).pwr.released ≤ slewAllowance ∧ (releaseBallast n s).pwr.admitted = s.pwr.admitted
      ∧ slewFrame (releaseBallast n s) = slewFrame s
  | 0, _, h => ⟨h, rfl, rfl⟩
  | n + 1, s, h => by
    unfold releaseBallast
    split
    · exact ⟨h, rfl, rfl⟩
    · next x _ _ =>
      split
      · next hfits =>
        exact releaseBallast_window n (setPwr (leaveBallast s x.taker) fun P => { P with released := P.released + x.current }) hfits
      · exact ⟨h, rfl, rfl⟩

/-- A window begins with nothing admitted or released. -/
def windowOpened (s : State) : State := setPwr s fun P => { P with admitted := 0, released := 0 }

theorem slewWindow_bounds {s : State} (h : powered s = true) :
    (slewWindow s).pwr.admitted ≤ slewAllowance ∧ (slewWindow s).pwr.released ≤ slewAllowance ∧ slewFrame (slewWindow s) = slewFrame s := by
  simp only [slewWindow, h, Bool.not_true, Bool.false_eq_true, if_false]
  obtain ⟨hadmitted, hnone, hbefore⟩ := admitWaiting_window s.pwr.waiting.length (windowOpened s) (Nat.zero_le _)
  obtain ⟨hreleased, hkept, hafter⟩ := releaseBallast_window (admitWaiting s.pwr.waiting.length (windowOpened s)).pwr.ballast.length
    (admitWaiting s.pwr.waiting.length (windowOpened s)) (by rw [hnone]; exact Nat.zero_le _)
  exact ⟨Nat.le_trans (Nat.le_of_eq hkept) hadmitted, hreleased, hafter.trans hbefore⟩

/-- Settles O48. -/
theorem powerIntervals : Obligations.PowerIntervals := by
  unfold Obligations.PowerIntervals
  refine fun s hs => ⟨fun est => ?interval, ?window⟩
  case interval =>
    have hmeasured := interval_estimates s est
    simp only [estimates, Prod.mk.injEq] at hmeasured
    obtain ⟨hest, hhistory, hmean1, hmean100, henergy⟩ := hmeasured
    obtain ⟨hnext, hcfg⟩ := interval_limits s est
    obtain ⟨hnone, hlimits⟩ := applyNext_limits (governAndCool (intervalClosed s est))
    obtain ⟨parts, pwr, hframe⟩ := interval_frame s est
    refine ⟨_, congrArg Host.Outcome.next (estimationInterval_eq est hs), ?_⟩
    simp only [platformEvents_pwr, platformEvents_queues, platformEvents_mem, platformEvents_streams, platformEvents_net]
    refine ⟨hest, hhistory, hmean1.trans (by rw [hhistory]), hmean100.trans (by rw [hhistory]), henergy, hnone, ?_, fun hs => ?_, ?_, ?_, ?_, ?_⟩
    · rw [hlimits, hnext, hcfg]
    · rw [applyNext_none (hnext.trans hs)]
      exact (governed_governAndCool (intervalClosed s est)).aclk
    all_goals rw [hframe]
  case window =>
    obtain ⟨hadmitted, hreleased, hframe⟩ := slewWindow_bounds hs
    simp only [slewFrame, Prod.mk.injEq] at hframe
    obtain ⟨hcfg, hstreams, hmem, hnet⟩ := hframe
    exact ⟨_, rfl, hadmitted, hreleased, hcfg, hstreams, hmem, hnet⟩

end Sys2Proof.Machine
end

section
/-! O49. Droop, alert and thermal protections: what each does to the power state, and that a thermal sample without an armed point reads
the temperatures themselves. -/

namespace Sys2Proof.Machine

/-! ### Droop (R470) -/

theorem droopTrip_acts {s : State} {f : Nat} (hs : powered s = true) (hf : f < 96) (h : lookupKey f s.pwr.droop = none) :
    droopTrip s f = setPwr s fun P => { P with
      droop := insertKey f s.now P.droop, acted := true, counts := { P.counts with droopEvents := satAdd 32 P.counts.droopEvents 1 } } := by
  simp [droopTrip, hs, hf, h]

theorem droopRelease_acts {s : State} {f b : Nat} (h : lookupKey f s.pwr.droop = some b) :
    droopRelease s f = setPwr s fun P => { P with
      droop := eraseKey f P.droop, acted := true
      counts := { P.counts with droopCycles := satAdd 48 P.counts.droopCycles ((s.now - b) * P.aclk / 2000) } } := by
  simp only [droopRelease, h]

/-! ### VR_ALERT_N (R471) -/

theorem timeCounts_vrAlerts (s : State) : (timeCounts s).vrAlerts = s.pwr.counts.vrAlerts := by
  obtain ⟨_, _, _, _, h⟩ := timeCounts_times s
  rw [h]

theorem vrAlertAssert_latches {s : State} {ns : Nat} (hs : powered s = true) (hlow : s.pwr.vrLow = false) (hns : 50 ≤ ns) :
    vrAlertAssert s ns = latchAlert s := by
  have h20 : ¬ ns < 20 := by omega
  simp [vrAlertAssert, hs, hlow, hns, h20]

theorem vrAlertAssert_glitch {s : State} {ns : Nat} (hns : ns < 20) : vrAlertAssert s ns = s := by
  simp [vrAlertAssert, hns]

theorem vrAlertHoldEnd_eq {s : State} {b : Nat} (hs : powered s = true) (h : s.pwr.vrRise = some b) :
    vrAlertHoldEnd s = if b + 100000 ≤ s.now then leaveFloor (setPwr s fun P => { P with vrRise := none, acted := true }) else s := by
  simp [vrAlertHoldEnd, hs, h]

/-! ### Thermal samples (R473 to R475) -/

theorem injected_unarmed {s : State} (h : s.flt.inj = []) (point target : Nat) : injected s point target = (false, s) := by
  simp [injected, armedPoint, h]

theorem sensedTemps_unarmed {s : State} (h : s.flt.inj = []) (f k : Nat) : sensedTemps s f k = (f, k, s) := by
  unfold sensedTemps
  dsimp only
  refine List.foldlRecOn (motive := fun r => r = (f, k, s)) _ _ rfl fun r hr t _ => ?_
  subst hr
  dsimp only
  rw [injected_unarmed h]

/-- The state that a sample's levels leave, before a hold begins or ends. -/
def sampled (s : State) (f k : Nat) : State := setPwr (settleBuckets s) fun P => thermalLevels P f k

theorem thermalSample_trips {s : State} (hs : powered s = true) (hinj : s.flt.inj = []) {f : Nat} (hf : 110 ≤ f) (k : Nat) :
    thermalSample s f k = hardTrip s := by
  simp [thermalSample, hs, sensedTemps_unarmed hinj, hf]

theorem thermalSample_holds {s : State} (hs : powered s = true) (hinj : s.flt.inj = []) {f : Nat} (hf : f < 110) (k : Nat) :
    thermalSample s f k = platformEvents (thermalHold (sampled s f k) f k) := by
  simp [thermalSample, hs, sensedTemps_unarmed hinj, hf, sampled]

theorem timeCounts_holds (s : State) : (timeCounts s).holds = s.pwr.counts.holds := by
  obtain ⟨_, _, _, _, h⟩ := timeCounts_times s
  rw [h]

/-- A thermal hold takes ACLK to the floor. -/
def holdBegun (s : State) : State :=
  setPwr (setAclk s 400) fun P => { P with hold := true, acted := true, counts := { P.counts with holds := satAdd 32 P.counts.holds 1 } }

theorem thermalHold_begins {s : State} {f k : Nat} (h : s.pwr.hold = false) (hot : 100 ≤ f ∨ 100 ≤ k) : thermalHold s f k = holdBegun s := by
  simp [thermalHold, h, hot, holdBegun]

theorem thermalHold_stays_off {s : State} {f k : Nat} (h : s.pwr.hold = false) (hf : f < 100) (hk : k < 100) : thermalHold s f k = s := by
  simp [thermalHold, h, hf, hk]

theorem thermalHold_ends {s : State} {f k : Nat} (h : s.pwr.hold = true) (hf : f ≤ 97) (hk : k ≤ 97) :
    thermalHold s f k = leaveFloor (setPwr s fun P => { P with hold := false, acted := true }) := by
  simp [thermalHold, h, hf, hk]

/-- Leaving the floor moves ACLK and no more. -/
theorem leaveFloor_cases (s : State) : leaveFloor s = s ∨ ∃ mhz, leaveFloor s = setAclk s mhz := by
  unfold leaveFloor
  split
  · exact .inl rfl
  · exact .inr ⟨_, rfl⟩

theorem leaveFloor_levels (s : State) : (leaveFloor s).pwr.hold = s.pwr.hold ∧ (leaveFloor s).pwr.tjMax = s.pwr.tjMax
    ∧ (leaveFloor s).pwr.hbmMax = s.pwr.hbmMax ∧ (leaveFloor s).queues = s.queues ∧ (leaveFloor s).mem = s.mem := by
  obtain h | ⟨mhz, h⟩ := leaveFloor_cases s <;> rw [h] <;> exact ⟨rfl, rfl, rfl, rfl, rfl⟩

/-- Settles O49. -/
theorem protectionsAct : Obligations.ProtectionsAct := by
  unfold Obligations.ProtectionsAct
  refine fun s hs => ⟨fun f hf h => ?trip, fun f b h => ?release, fun ns hlow => ⟨fun hns => ?alert, fun hns => ?glitch⟩, fun hlow => ?rise,
    fun b hb => ⟨fun hlate => ?held, fun hearly => ?holding⟩, fun f k hinj => ⟨fun hf => ?hard, fun hf hot hhold => ?hold,
      fun hf hk hhold => ?cool, fun hf hk hhold => ?resume⟩⟩
  case trip => exact congrArg Host.Outcome.next (droopTrip_acts hs hf h)
  case release => exact congrArg Host.Outcome.next ((if_pos hs).trans (droopRelease_acts h))
  case alert =>
    exact ⟨_, congrArg Host.Outcome.next (vrAlertAssert_latches hs hlow hns), rfl, rfl, congrArg (satAdd 32 · 1) (timeCounts_vrAlerts s), rfl⟩
  case glitch => exact congrArg Host.Outcome.next (vrAlertAssert_glitch hns)
  case rise => exact congrArg Host.Outcome.next (if_pos (by rw [hs, hlow]; rfl))
  case held => exact congrArg Host.Outcome.next ((vrAlertHoldEnd_eq hs hb).trans (if_pos hlate))
  case holding => exact congrArg Host.Outcome.next ((vrAlertHoldEnd_eq hs hb).trans (if_neg (Nat.not_le.mpr hearly)))
  case hard => exact ⟨_, congrArg Host.Outcome.next (thermalSample_trips hs hinj hf k), rfl, rfl, rfl, rfl, rfl⟩
  case hold =>
    have hbegun : thermalHold (sampled s f k) f k = holdBegun (sampled s f k) := thermalHold_begins hhold hot
    refine ⟨_, congrArg Host.Outcome.next (thermalSample_holds hs hinj hf k), ?_⟩
    simp only [platformEvents_pwr, platformEvents_queues, platformEvents_mem, hbegun]
    exact ⟨rfl, rfl, rfl, rfl, congrArg (satAdd 32 · 1) (timeCounts_holds (sampled s f k)), rfl, rfl⟩
  case cool =>
    have hoff : thermalHold (sampled s f k) f k = sampled s f k := thermalHold_stays_off hhold hf hk
    refine ⟨_, congrArg Host.Outcome.next (thermalSample_holds hs hinj (Nat.lt_of_lt_of_le hf (by decide)) k), ?_⟩
    simp only [platformEvents_pwr, platformEvents_queues, platformEvents_mem, hoff]
    exact ⟨hhold, rfl, rfl, rfl, rfl, rfl⟩
  case resume =>
    have hended : thermalHold (sampled s f k) f k = leaveFloor (setPwr (sampled s f k) fun P => { P with hold := false, acted := true }) :=
      thermalHold_ends hhold hf hk
    refine ⟨_, congrArg Host.Outcome.next (thermalSample_holds hs hinj (Nat.lt_of_le_of_lt hf (by decide)) k), ?_⟩
    simp only [platformEvents_pwr, platformEvents_queues, platformEvents_mem, hended]
    exact leaveFloor_levels _

end Sys2Proof.Machine
end

section
/-! O50. A failure that no other precedes is fenced as it is latched; what its handling, its release and the periodic tests then do is one
branch of each step. -/

namespace Sys2Proof.Machine

/-! ### What an interrupt leaves -/

/-- A part of the state outside the functions' windows and configuration spaces. -/
def apartFromEvents {γ : Type} (view : State → γ) : Prop :=
  ∀ (s : State) (fns : List Function) (pcie : Pcie), view { s with fns := fns, pcie := pcie } = view s

section
variable {γ : Type} {view : State → γ} (apart : apartFromEvents view)
include apart

theorem raiseMsix_leaves (s : State) (fn entry : Nat) : view (raiseMsix s fn entry) = view s := by
  unfold raiseMsix
  split
  · rfl
  · split
    · exact apart s ..
    · split
      · exact apart s ..
      · rfl

theorem raiseEventFn_leaves (s : State) (bit fn : Nat) : view (raiseEventFn s bit fn) = view s :=
  (raiseMsix_leaves apart ..).trans (apart ..)

theorem raiseEventAll_leaves (s : State) (bit : Nat) : view (raiseEventAll s bit) = view s :=
  frame_foldl (fun x fn => raiseEventFn_leaves apart x bit fn) _ _

theorem raiseFenced_leaves (s : State) (u : FailUnit) : view (raiseFenced s u) = view s :=
  frame_foldl (fun x fn => raiseEventFn_leaves apart x 4 fn) _ _

end

/-- Where a failed unit is noted. -/
def failures (s : State) : Faults × List SubChannel := (s.flt, s.mem.channels)

theorem failures_apart : apartFromEvents failures := fun _ _ _ => rfl

theorem unitFailed_of_failures {s t : State} (h : failures t = failures s) (u : FailUnit) : unitFailed t u = unitFailed s u := by
  simp only [failures, Prod.mk.injEq] at h
  obtain ⟨hflt, hchannels⟩ := h
  cases u <;> simp only [unitFailed, hflt, hchannels]

theorem failures_withdraw (s : State) (harrow : Bool) (i : Nat) : failures (withdraw s harrow i) = failures s := by
  unfold withdraw enterBallast
  dsimp only
  split <;> rfl

theorem failures_withdrawFurrow (s : State) (f : Nat) : failures (withdrawFurrow s f) = failures s :=
  (failures_withdraw ..).trans ((failures_withdraw ..).trans (failures_withdraw ..))

/-! ### A fence (R519) -/

/-- The unit as its fence marks it, before the interrupt. -/
def fenceMarked (s : State) (u : FailUnit) : State :=
  match u with
  | .engine e => withdraw (setFlt s fun F => { F with engines := F.engines ++ [e] }) false e
  | .furrow f => withdrawFurrow (setFlt s fun F => { F with furrows := F.furrows ++ [f] }) f
  | .block _ => haltDevice s
  | u => markFenced s u

theorem fenceUnit_eq (s : State) (u : FailUnit) : fenceUnit s u = tellFence (fenceMarked s u) u := by
  cases u <;> rfl

theorem tellFence_failed {s : State} {u : FailUnit} (h : unitFailed s u = true) : unitFailed (tellFence s u) u = true := by
  rw [tellFence, unitFailed_of_failures (raiseFenced_leaves failures_apart ..)]
  cases u <;> exact h

theorem tellFence_newFence (s : State) (u : FailUnit) : (tellFence s u).flt.newFence = true :=
  congrArg Faults.newFence (raiseFenced_leaves (view := State.flt) (fun _ _ _ => rfl) _ u)

/-- A fence marks every unit that exists but a buffer. -/
theorem fenceMarked_failed {s : State} {u : FailUnit} (hchannel : ∀ h, u = .channel h → h < s.mem.channels.length) (hbuffer : ∀ n, u ≠ .buffer n) :
    unitFailed (fenceMarked s u) u = true := by
  cases u with
  | engine e =>
    rw [fenceMarked, unitFailed_of_failures (failures_withdraw ..)]
    simp [unitFailed]
  | furrow f =>
    rw [fenceMarked, unitFailed_of_failures (failures_withdrawFurrow ..)]
    simp [unitFailed]
  | link l => simp [fenceMarked, markFenced, unitFailed]
  | frame n => simp [fenceMarked, markFenced, unitFailed]
  | slice n => simp [fenceMarked, markFenced, unitFailed]
  | channel h =>
    rw [fenceMarked, markFenced, unitFailed_of_failures (raiseEventAll_leaves failures_apart ..)]
    · exact congrArg SubChannel.failed (modifyAt_getD_same _ _ _ _ (hchannel h rfl))
    all_goals exact nofun
  | block b =>
    rw [fenceMarked, haltDevice, unitFailed_of_failures (raiseEventAll_leaves failures_apart ..)]
    rfl
  | buffer n => exact absurd rfl (hbuffer n)

/-- The first failure is fenced as it is latched. -/
theorem latchFailure_fences {s : State} {u : FailUnit} {det : Nat} (hnew : unitFailed s u = false) (hfirst : s.flt.handling = []) :
    latchFailure s u det false = tellFence (fenceMarked (joinHandling s u det false) u) u := by
  rw [← fenceUnit_eq]
  simp [latchFailure, hnew, inHandling, hfirst, joinHandling, fenceFirst]

/-! ### Detector events (R515) -/

theorem injectedAt_unarmed {s : State} (h : s.flt.inj = []) (u : FailUnit) (det : Nat) : injectedAt s u det = (false, s) := by
  have hnone : (injTargets u det).find? (fun t => (armedPoint s det t).isSome) = none :=
    List.find?_eq_none.mpr fun t _ => by simp [armedPoint, h]
  simp [injectedAt, hnone]

theorem faultLatch_detects {s : State} {u : FailUnit} {det : Nat} (hs : powered s = true) (hdet : (detectorsOf u).contains det = true)
    (hu : unitEnabled s u = true) (hnew : unitFailed s u = false) (hinj : s.flt.inj = []) :
    faultLatch s u det = detect (countEvent s det) u det false := by
  simp only [faultLatch, hs, hdet, hu, hnew, injectedAt_unarmed hinj]
  rfl

/-! ### Periodic tests (R523 to R525) -/

/-- A slice that has fallen due. -/
theorem bistSlice_due {s : State} (hs : powered s = true) (hstart : s.flt.bist.startupDone = true) (hperiodic : s.flt.bist.periodic = true)
    (hdue : s.flt.bist.due ≤ s.now) : bistSlice s =
      (let x := setBist s fun b => { b with due := nextSlice s.now }
       if s.flt.bist.paused then x
       else if s.pwr.aclk < 1400 then setBist x (skipTargets 12)
       else (List.range 12).foldl claimTarget (setBist x fun b => { skipTargets s.flt.bist.claims.length b with
         slices := satAdd 48 b.slices 1, claims := [] })) := by
  have hnow : decide (s.now < s.flt.bist.due) = false := decide_eq_false (Nat.not_lt.mpr hdue)
  simp only [bistSlice, hs, hstart, hperiodic, hnow]
  rfl

/-- The test of a data-path target that has ended its item. -/
theorem bistTargetTest_runs {s : State} {col : Nat} {c : Claim} (passed : Bool) (hs : powered s = true)
    (hc : s.flt.bist.claims.find? (·.col == col) = some c) (hidle : targetIdle s (targetOf col c.target) = true)
    (hpath : isStorage (targetOf col c.target) = false) : bistTargetTest s col passed =
      (let x := setBist s fun b => { b with claims := b.claims.filter (·.col != col) }
       if passed then x else testFails x (targetUnit (targetOf col c.target))) := by
  simp only [bistTargetTest, hc, hs, hidle, hpath]
  rfl

/-- Settles O50. -/
theorem faultsProceed : Obligations.FaultsProceed := by
  unfold Obligations.FaultsProceed
  refine fun s hs => ⟨fun u det hdet hu hnew hinj => ⟨?event, fun hchannel hbuffer hfirst => ?latch⟩,
    fun h rest hh => ⟨fun hsettled => ?settle, fun hsettled => ?release⟩, fun hstart hperiodic hdue => ?slice,
    fun col c hc hidle hpath => ⟨?passes, ?fails⟩⟩
  case event => exact congrArg Host.Outcome.next (faultLatch_detects hs hdet hu hnew hinj)
  case latch =>
    rw [latchFailure_fences hnew hfirst]
    exact ⟨tellFence_failed (fenceMarked_failed hchannel hbuffer), tellFence_newFence ..⟩
  case settle =>
    refine congrArg Host.Outcome.next ?_
    simp only [faultSettleDone, hh, hs, hsettled]
    rfl
  case release =>
    refine congrArg Host.Outcome.next ?_
    simp only [faultRelease, hh, hs, hsettled]
    rfl
  case slice =>
    have hslice := bistSlice_due hs hstart hperiodic hdue
    refine ⟨fun hpaused => ?_, fun hpaused hslow => ?_, fun hpaused hfast => ?_⟩ <;> refine congrArg Host.Outcome.next (hslice.trans ?_)
    · exact if_pos hpaused
    · exact (if_neg (by simp [hpaused])).trans (if_pos hslow)
    · exact (if_neg (by simp [hpaused])).trans (if_neg (Nat.not_lt.mpr hfast))
  case passes => exact congrArg Host.Outcome.next (bistTargetTest_runs true hs hc hidle hpath)
  case fails => exact congrArg Host.Outcome.next (bistTargetTest_runs false hs hc hidle hpath)

end Sys2Proof.Machine
end

section
/-! O51. A watchdog's expiry changes the start-up state and the functions alone; how it ends turns on the expiries of the last second and the
bank's hash. -/

namespace Sys2Proof.Machine

/-! ### An expiry (R506, R509, R512) -/

/-- What the watchdogs note of the start-up state. -/
def watchNotes (b : Boot) : Bool × BootSt × List Nat × List (Nat × Nat) × List Nat := (b.fwAlive, b.st, b.expired, b.expiries, b.recovering)

/-- What an expiry leaves. -/
def besideFirmware (s : State) : List Queue × MemSys × List (Nat × Stream) × Net := (s.queues, s.mem, s.streams, s.net)

/-- The reeve is stopped, its request held, and an update in progress ended. -/
def reeveExpired (s : State) (r : Nat) (held : Option (Nat × Nat)) : State := endUpdate (holdRequest (stopReeve s r) r held) r

theorem startReeves_notes (s : State) : watchNotes (startReeves s).boot = watchNotes s.boot ∧ besideFirmware (startReeves s) = besideFirmware s := by
  unfold startReeves
  split <;> exact ⟨rfl, rfl⟩

theorem restartReeve_notes (s : State) (r : Nat) : watchNotes (restartReeve s r).boot = watchNotes s.boot
    ∧ besideFirmware (restartReeve s r) = besideFirmware s := by
  unfold restartReeve
  split <;> exact ⟨rfl, rfl⟩

theorem endUpdate_notes (s : State) (r : Nat) : watchNotes (endUpdate s r).boot = watchNotes s.boot
    ∧ besideFirmware (endUpdate s r) = besideFirmware s := by
  unfold endUpdate
  split
  · exact ⟨rfl, rfl⟩
  · dsimp only
    split
    · exact startReeves_notes _
    · exact ⟨rfl, rfl⟩

theorem holdRequest_notes (s : State) (r : Nat) (held : Option (Nat × Nat)) : (holdRequest s r held).boot = s.boot
    ∧ besideFirmware (holdRequest s r held) = besideFirmware s := by
  unfold holdRequest
  split
  · split <;> exact ⟨rfl, rfl⟩
  · exact ⟨rfl, rfl⟩

theorem stopReeve_notes (s : State) (r : Nat) : watchNotes (stopReeve s r).boot
      = (false, s.boot.st, modifyAt r (fun n => satAdd 16 n 1) s.boot.expired, expiriesNow s r, s.boot.recovering.filter (· != r) ++ [r])
    ∧ besideFirmware (stopReeve s r) = besideFirmware s :=
  ⟨raiseEventAll_leaves (view := fun t => watchNotes t.boot) (fun _ _ _ => rfl) _ _,
    raiseEventAll_leaves (view := besideFirmware) (fun _ _ _ => rfl) _ _⟩

theorem reeveExpired_notes (s : State) (r : Nat) (held : Option (Nat × Nat)) : watchNotes (reeveExpired s r held).boot
      = (false, s.boot.st, modifyAt r (fun n => satAdd 16 n 1) s.boot.expired, expiriesNow s r, s.boot.recovering.filter (· != r) ++ [r])
    ∧ besideFirmware (reeveExpired s r held) = besideFirmware s := by
  obtain ⟨hstop, hstopRest⟩ := stopReeve_notes s r
  obtain ⟨hhold, hholdRest⟩ := holdRequest_notes (stopReeve s r) r held
  obtain ⟨hend, hendRest⟩ := endUpdate_notes (holdRequest (stopReeve s r) r held) r
  exact ⟨hend.trans ((congrArg watchNotes hhold).trans hstop), hendRest.trans (hholdRest.trans hstopRest)⟩

/-- With the new one there is one more expiry of the reeve in the last second. -/
theorem expiriesNow_count (s : State) (r : Nat) : ((expiriesNow s r).filter (·.1 == r)).length
    = (s.boot.expiries.filter fun e => e.1 == r && decide (s.now < e.2 + 1000000000)).length + 1 := by
  simp [expiriesNow, List.filter_append, List.filter_filter]

theorem watchdogExpiry_eq {s : State} {r : Nat} (ok : Bool) (held : Option (Nat × Nat)) (hdev : s.boot.dev = .run) (hst : s.boot.st = .running)
    (hr : r < 4) (hinj : s.flt.inj = []) : watchdogExpiry s r ok held
      = if !ok || decide (3 ≤ ((reeveExpired s r held).boot.expiries.filter (·.1 == r)).length) then failFirmware (reeveExpired s r held)
        else restartReeve (reeveExpired s r held) r := by
  simp only [watchdogExpiry, hdev, hst, hr, noteInjected_unarmed _ _ hinj]
  rfl

/-! ### Recovery (R507) -/

theorem watchdogRecoveryDone_eq {s : State} {r : Nat} (finish : Bool) (hdev : s.boot.dev = .run) (hst : s.boot.st = .running)
    (hr : s.boot.recovering.contains r = true) : watchdogRecoveryDone s r finish
      = setBoot ((heldBy s r).foldl (recoverBox finish) s) fun b => { b with
          recovering := b.recovering.filter (· != r), handoff := if (b.recovering.filter (· != r)).isEmpty then false else b.handoff } := by
  simp only [watchdogRecoveryDone, hdev, hst, hr]
  rfl

@[simp] theorem mbxOf_endFull (s : State) (fn m fn' m' : Nat) : mbxOf (endFull s fn m) fn' m' = mbxOf s fn' m' := by
  unfold endFull
  dsimp only
  split <;> rfl

/-- An entry that is rolled back. -/
theorem recoverBox_replies {s : State} {fn m : Nat} (h : (mbxOf s fn m).begun = false ∨ reqCode (mbxOf s fn m) ≠ 0x0051) :
    recoverBox false s (fn, m) = answer (endFull s fn m) fn m ⟨.faultWatchdog, 0, 0, []⟩ := by
  have hunmap : ((mbxOf s fn m).begun && reqCode (mbxOf s fn m) == 0x0051) = false := by
    rcases h with h | h <;> simp [h]
  simp [recoverBox, hunmap]

/-! ### What firmware sets (R505, R508) -/

/-- Pages change the shadow alone. -/
theorem buildAll_showing (s : State) : ∃ sh, buildAll s = showing s sh := buildPages_showing allKeys s

theorem fwAliveSet_sets {s : State} (hdev : s.boot.dev = .run) (hst : s.boot.st = .running) (halive : s.boot.fwAlive = false)
    (hnone : s.boot.recovering = []) : fwAliveSet s = drainAll (setBoot s fun b => { b with fwAlive := true }) := by
  have hcond : (s.boot.dev == .run && s.boot.st == .running && !s.boot.fwAlive && s.boot.recovering.isEmpty) = true := by
    simp [hdev, hst, halive, hnone]
  rw [fwAliveSet, if_pos hcond]

theorem fwReadySet_sets {s : State} (hdev : s.boot.dev = .run) (halive : s.boot.fwAlive = true) (hready : s.boot.fwReady = false) :
    ∃ sh, fwReadySet s = setBoot (showing s sh) fun b => { b with fwReady := true } := by
  obtain ⟨sh, hbuilt⟩ := buildAll_showing s
  have hcond : (s.boot.dev == .run && s.boot.fwAlive && !s.boot.fwReady) = true := by simp [hdev, halive, hready]
  exact ⟨sh, by rw [fwReadySet, if_pos hcond, hbuilt]⟩

/-- Settles O51. -/
theorem watchdogsAct : Obligations.WatchdogsAct := by
  unfold Obligations.WatchdogsAct
  refine fun s hdev hst => ⟨fun r ok held hr hinj hlen => ?expiry, fun r finish hr => ⟨fun hnone => ?idle, fun fn m hone hbox => ?request⟩,
    fun halive hnone => ?alive, fun halive hready => ?ready⟩
  case expiry =>
    obtain ⟨hnotes, hrest⟩ := reeveExpired_notes s r held
    simp only [watchNotes, besideFirmware, Prod.mk.injEq] at hnotes hrest
    obtain ⟨halive, hrun, hexpired, hexpiries, hrecovering⟩ := hnotes
    obtain ⟨hqueues, hmem, hstreams, hnet⟩ := hrest
    have hcounted : (reeveExpired s r held).boot.expired.getD r 0 = satAdd 16 (s.boot.expired.getD r 0) 1 := by
      rw [hexpired]
      exact modifyAt_getD_same _ _ _ _ (hlen ▸ hr)
    have heq := watchdogExpiry_eq ok held hdev hst hr hinj
    rw [hexpiries, expiriesNow_count] at heq
    by_cases hfail : ok = false ∨ 2 ≤ (s.boot.expiries.filter fun e => e.1 == r && decide (s.now < e.2 + 1000000000)).length
    · have hcond : (!ok || decide (3 ≤ (s.boot.expiries.filter fun e => e.1 == r && decide (s.now < e.2 + 1000000000)).length + 1)) = true := by
        rcases hfail with h | h
        · rw [h]; rfl
        · rw [decide_eq_true (Nat.succ_le_succ h), Bool.or_true]
      exact ⟨_, congrArg Host.Outcome.next (heq.trans (if_pos hcond)), rfl, hcounted, fun _ => rfl,
        fun hok hfew => absurd hfail (by simp [hok, hfew]), hqueues, hmem, hstreams, hnet⟩
    · have hcond : ¬ (!ok || decide (3 ≤ (s.boot.expiries.filter fun e => e.1 == r && decide (s.now < e.2 + 1000000000)).length + 1)) = true := by
        simpa using hfail
      obtain ⟨hkept, hkeptRest⟩ := restartReeve_notes (reeveExpired s r held) r
      simp only [watchNotes, besideFirmware, Prod.mk.injEq] at hkept hkeptRest
      obtain ⟨halive', hrun', hexpired', -, hrecovering'⟩ := hkept
      obtain ⟨hqueues', hmem', hstreams', hnet'⟩ := hkeptRest
      refine ⟨_, congrArg Host.Outcome.next (heq.trans (if_neg hcond)), halive'.trans halive, ?_, fun h => absurd h hfail,
        fun _ _ => ⟨(hrun'.trans hrun).trans hst, ?_⟩, hqueues'.trans hqueues, hmem'.trans hmem, hstreams'.trans hstreams, hnet'.trans hnet⟩
      · rw [hexpired', hcounted]
      · rw [hrecovering', hrecovering]
        simp
  case idle =>
    refine congrArg Host.Outcome.next ((watchdogRecoveryDone_eq finish hdev hst hr).trans ?_)
    rw [hnone]
    rfl
  case request =>
    refine congrArg Host.Outcome.next ((watchdogRecoveryDone_eq false hdev hst hr).trans ?_)
    rw [hone, List.foldl_cons, List.foldl_nil, recoverBox_replies hbox]
  case alive => exact congrArg Host.Outcome.next (fwAliveSet_sets hdev hst halive hnone)
  case ready =>
    obtain ⟨sh, hset⟩ := fwReadySet_sets hdev halive hready
    exact ⟨_, congrArg Host.Outcome.next hset, rfl, rfl, rfl, rfl⟩

end Sys2Proof.Machine
end

section
/-! O41. INJECT and BIST_RUN: what each mode and operation replies, once its checks pass. -/

namespace Sys2Proof.Machine

section Requests

variable {x : State} {a : Asked}

/-! ### INJECT (R529) -/

/-- The points that are armed at other targets. -/
def injCleared (x : State) (bs : List Byte) : State :=
  setFlt x fun F => { F with inj := F.inj.filter fun e => !sameTarget (payFld bs 0 2) (payFld bs 4 2) e }

/-- What INJECT checks of its point. -/
structure InjectAllowed (x : State) (bs : List Byte) : Prop where
  low : 0 < payFld bs 0 2
  high : payFld bs 0 2 ≤ 0x1F
  range : targetInRange (payFld bs 0 2) (payFld bs 4 2) = true
  enabled : targetEnabled x (payFld bs 0 2) (payFld bs 4 2) = true
  mode : testModePoint (payFld bs 0 2) = true → x.boot.testMode = true

/-- The point, as it waits for its delay. -/
def injWaiting (x : State) (bs : List Byte) : Inj :=
  { point := payFld bs 0 2, mode := payFld bs 2 1, target := payFld bs 4 2, count := payFld bs 6 2, due := x.now + payFld bs 8 8, armed := false }

/-- Past the checks. -/
theorem runInject_allowed (h : InjectAllowed x a.body) (hmode : payFld a.body 2 1 ≤ 3) (hcount : payFld a.body 2 1 = 2 → payFld a.body 6 2 ≠ 0) :
    runInject x a = if payFld a.body 2 1 = 0 then (some (plain .completed), injCleared x a.body)
      else match lowestFree ((injCleared x a.body).flt.inj.map (·.1)) 16 with
        | none => (some (plain .loadUnitDisabled), x)
        | some slot => (some (plain .completed),
            if payFld a.body 8 8 = 0 then
              armSlot (setFlt (injCleared x a.body) fun F => { F with inj := insertKey slot (injWaiting x a.body) F.inj }) slot (injWaiting x a.body)
            else setFlt (injCleared x a.body) fun F => { F with inj := insertKey slot (injWaiting x a.body) F.inj }) := by
  obtain ⟨hlow, hhigh, hrange, henabled, htest⟩ := h
  have hshape : ¬ (payFld a.body 0 2 = 0 ∨ 0x1F < payFld a.body 0 2 ∨ 3 < payFld a.body 2 1 ∨ (payFld a.body 2 1 = 2 ∧ payFld a.body 6 2 = 0)
      ∨ targetInRange (payFld a.body 0 2) (payFld a.body 4 2) = false) := by
    rintro (h | h | h | ⟨h, hzero⟩ | h)
    · omega
    · omega
    · omega
    · exact hcount h hzero
    · exact Bool.noConfusion (hrange.symm.trans h)
  have hforbidden : ¬ (testModePoint (payFld a.body 0 2) && !x.boot.testMode) = true := by
    cases hp : testModePoint (payFld a.body 0 2) with
    | false => simp
    | true => simp [htest hp]
  refine (if_neg hshape).trans ((if_neg ?_).trans ((if_neg hforbidden).trans rfl))
  rw [henabled]
  exact Bool.false_ne_true

theorem injectArm_arms {s : State} {slot : Nat} {i : Inj} (hi : lookupKey slot s.flt.inj = some i) (hs : powered s = true)
    (hwaits : i.armed = false) (hdue : i.due ≤ s.now) : injectArm s slot = armSlot s slot i := by
  simp [injectArm, hi, hs, hwaits, hdue]

/-! ### BIST_RUN (R527, R528) -/

theorem testForbidden_none (h : anyConfigured x = false) : testForbidden x = none := by
  simp [testForbidden, h]

theorem duringFull_begins (finish : State → Reply × State) (hnew : (mbxOf x a.fn a.box).begun = false) (hnone : anyConfigured x = false)
    (hfull : x.flt.bist.full = false) : duringFull x a finish
      = (none, setMbx (setBist x fun b => { b with full := true }) a.fn a.box fun y => { y with begun := true }) := by
  simp [duringFull, hnew, testForbidden_none hnone, hfull]

theorem runBist_begins (failing : List FailUnit) (hop : payFld a.body 0 1 = 3 ∨ payFld a.body 0 1 = 4)
    (hnew : (mbxOf x a.fn a.box).begun = false) (hnone : anyConfigured x = false) (hfull : x.flt.bist.full = false) :
    runBist failing x a = (none, setMbx (setBist x fun b => { b with full := true }) a.fn a.box fun y => { y with begun := true }) := by
  rcases hop with h | h <;> simp only [runBist, h, duringFull_begins _ hnew hnone hfull]

theorem runBist_report (failing : List FailUnit) (hop : payFld a.body 0 1 = 0) :
    runBist failing x a = (some ⟨.completed, 0, 0, bistReport x⟩, x) := by
  simp only [runBist, hop]

theorem runBist_pauses (failing : List FailUnit) (hop : payFld a.body 0 1 = 1) (hfield : fullField x = true) :
    runBist failing x a = (some (plain .completed), setBist x fun b => { b with paused := true }) := by
  simp only [runBist, hop, if_pos hfield]

theorem runBist_resumes (failing : List FailUnit) (hop : payFld a.body 0 1 = 2) (hfield : fullField x = true) :
    runBist failing x a = (some (plain .completed), setBist x fun b => { b with paused := false }) := by
  simp only [runBist, hop, if_pos hfield]

theorem runBist_applies (failing : List FailUnit) (hop : payFld a.body 0 1 = 5) (hnone : anyConfigured x = false) (hfn : mayIssue x a.fn = true) :
    runBist failing x a = if reportValid x (memRead x.mem.host (payFld a.body 8 8) 5139)
      then (some (plain .completed), applyReport x (memRead x.mem.host (payFld a.body 8 8) 5139)) else (some (plain .secSignature), x) := by
  simp only [runBist, hop, testForbidden_none hnone, hfn, Bool.not_true, Bool.false_eq_true, if_false]

end Requests

/-- Settles O41. -/
theorem testRequests : Obligations.TestRequests := by
  unfold Obligations.TestRequests
  refine fun s fn m bs => ⟨fun h hlow hhigh hrange henabled htest => ?inject, fun slot i hi hs hwaits hdue => ?arm,
    fun failing h => ⟨fun hop => ?report, fun hop hfield => ?pause, fun hop hfield => ?resume, fun hop hnew hnone hfull => ?full,
      fun hop hnone hfn => ?apply⟩⟩
  case inject =>
    have hallowed : InjectAllowed (taken s fn m) (asking s fn m bs).body := ⟨hlow, hhigh, hrange, henabled, htest⟩
    refine ⟨fun hmode => ?_, fun slot hone hthree hcount hslot => ?_⟩
    · have hrun := runInject_allowed (a := asking s fn m bs) hallowed (by show payFld bs 2 1 ≤ 3; omega) (by show payFld bs 2 1 = 2 → _; omega)
      exact congrArg Host.Outcome.next (serve_replies h (hrun.trans (if_pos hmode)))
    · have hrun := runInject_allowed (a := asking s fn m bs) hallowed hthree hcount
      have hmode : ¬ payFld (asking s fn m bs).body 2 1 = 0 := by show ¬ payFld bs 2 1 = 0; omega
      rw [if_neg hmode, show lowestFree ((injCleared (taken s fn m) (asking s fn m bs).body).flt.inj.map (·.1)) 16 = some slot from hslot] at hrun
      exact congrArg Host.Outcome.next (serve_replies h hrun)
  case arm => exact congrArg Host.Outcome.next (injectArm_arms hi hs hwaits hdue)
  case report => exact congrArg Host.Outcome.next (serve_replies h (runBist_report failing hop))
  case pause => exact congrArg Host.Outcome.next (serve_replies h (runBist_pauses failing hop hfield))
  case resume => exact congrArg Host.Outcome.next (serve_replies h (runBist_resumes failing hop hfield))
  case full => exact congrArg Host.Outcome.next (serve_continues h (runBist_begins failing hop hnew hnone hfull))
  case apply =>
    have hrun := runBist_applies (a := asking s fn m bs) failing hop hnone hfn
    refine congrArg Host.Outcome.next ?_
    split
    · next hvalid => exact serve_replies h (hrun.trans (if_pos hvalid))
    · next hinvalid => exact serve_replies h (hrun.trans (if_neg hinvalid))

end Sys2Proof.Machine
end

section
/-! O52. The milestones are single branches; what is left to prove is what zeroing loam leaves in memory. -/

namespace Sys2Proof.Machine

/-! ### Zeroed loam (R533) -/

/-- A byte at an address that a filter keeps. -/
theorem memGet_filter_kept (keep : Nat → Bool) {a : Nat} (h : keep a = true) : ∀ m : Memory, memGet (m.filter fun c => keep c.1) a = memGet m a
  | [] => rfl
  | c :: m => by
    by_cases hc : keep c.1 = true
    · rw [List.filter_cons, if_pos hc, memGet, memGet, memGet_filter_kept keep h m]
    · have hne : c.1 ≠ a := fun heq => hc (heq ▸ h)
      rw [List.filter_cons, if_neg hc, memGet_filter_kept keep h m, memGet, if_neg hne]

/-- And at one that it drops. -/
theorem memGet_filter_dropped (keep : Nat → Bool) {a : Nat} (h : keep a = false) : ∀ m : Memory, memGet (m.filter fun c => keep c.1) a = 0
  | [] => rfl
  | c :: m => by
    by_cases hc : keep c.1 = true
    · have hne : c.1 ≠ a := fun heq => Bool.false_ne_true (h.symm.trans (heq ▸ hc))
      rw [List.filter_cons, if_pos hc, memGet, if_neg hne, memGet_filter_dropped keep h m]
    · rw [List.filter_cons, if_neg hc, memGet_filter_dropped keep h m]

/-! ### Milestones (Table 25-1) -/

section Milestones

variable {s : State}

theorem clockLock_locks (hdev : s.boot.dev = .run) (hclocks : s.boot.clocks = false) :
    clockLock s = setBoot (setAclk s 400) fun b => { b with clocks := true } := by
  simp [clockLock, hdev, hclocks]

theorem randomSourceDone_ends (ok : Bool) (hs : powered s = true) (hdone : s.boot.rngDone = false) : randomSourceDone s ok
    = { s with free := (takeFree s 1).2.free, boot := { s.boot with rngDone := true, rngOk := ok }
               mem := { s.mem with devKey := Config.freeKey (takeFree s 1).1 } } := by
  simp only [randomSourceDone, hs, hdone]
  rfl

theorem loamZeroDone_zeroes (hs : powered s = true) (hzero : s.boot.loamZeroed = false) : loamZeroDone s
    = { setBoot s fun b => { b with loamZeroed := true } with mem := { s.mem with phys := s.mem.phys.filter fun c => isSub c.1 } } := by
  simp only [loamZeroDone, hs, hzero]
  rfl

/-- The link state once it has trained. -/
def pcieTrained (P : Pcie) (speed width : Nat) (flit : Bool) : Pcie :=
  { P with
    linkUp := true, trained := true, speed := speed, width := width, flit := flit
    retrains := if P.trained then satAdd 32 P.retrains 1 else P.retrains
    readiness := if P.trained then P.readiness else P.readiness ++ [0] }

theorem pcieLinkUp_trains {speed width : Nat} {flit : Bool} (hs : powered s = true) (hrng : s.boot.rngDone = true) (hdown : s.pcie.linkUp = false)
    (hshape : linkShape speed width flit = true) : pcieLinkUp s speed width flit = { s with pcie := pcieTrained s.pcie speed width flit } := by
  simp only [pcieLinkUp, hs, hrng, hdown, hshape]
  rfl

end Milestones

/-! ### JTAG (R555) -/

/-- The boundary register captures what the pins carry. -/
theorem jtagInstruction_scans {s : State} {op : JtagOp} (data : Nat) (h : op = .samplePreload ∨ (op ≠ .bypass ∧ op ≠ .idcode ∧ s.boot.dev = .held)) :
    ∃ v, jtagInstruction s op data = { s with free := s.free + 1, pins := { s.pins with jtag := op, boundary := data, shifted := v } } := by
  have hheld (hop : op ≠ .samplePreload) : s.boot.dev = .held := by
    obtain h | ⟨-, -, h⟩ := h
    · exact absurd h hop
    · exact h
  cases op with
  | bypass => simp at h
  | idcode => simp at h
  | samplePreload => exact ⟨_, rfl⟩
  | extest => exact ⟨_, if_pos (by rw [hheld nofun]; rfl)⟩
  | extestPulse => exact ⟨_, if_pos (by rw [hheld nofun]; rfl)⟩
  | extestTrain => exact ⟨_, if_pos (by rw [hheld nofun]; rfl)⟩

theorem jtagInstruction_refused {s : State} {op : JtagOp} (data : Nat) (hop : op = .extest ∨ op = .extestPulse ∨ op = .extestTrain)
    (hdev : s.boot.dev ≠ .held) : jtagInstruction s op data = s := by
  have hhigh : ¬ (s.boot.dev == .held) = true := by simpa using hdev
  rcases hop with rfl | rfl | rfl <;> exact if_neg hhigh

/-- Settles O52. -/
theorem startUpProceeds : Obligations.StartUpProceeds := by
  unfold Obligations.StartUpProceeds
  refine ⟨fun s => ⟨fun hdev => ?perst, fun strap hdev => ?release, fun hdev => ?rail, fun hdev hclocks => ?clocks,
    fun hs => ⟨fun ok hrng => ?rng, ?mgmt, fun hzero => ?loam, fun speed width flit hrng hdown hshape => ?link⟩⟩,
    fun s op data => ⟨rfl, rfl, fun hop hdev => ?refused, fun hop => ?scans⟩⟩
  case perst =>
    have hlost : exec .perstAssert s = .next (lostAll s .held) := congrArg Host.Outcome.next (if_neg (by simpa using hdev))
    exact ⟨_, hlost, rfl, rfl, rfl, rfl, rfl, rfl⟩
  case release => exact congrArg Host.Outcome.next (if_pos (by rw [hdev]; rfl))
  case rail =>
    have hlost : exec .railFault s = .next (lostAll s .railStop) := congrArg Host.Outcome.next (if_pos (by rw [hdev]; rfl))
    exact ⟨_, hlost, rfl, rfl, rfl⟩
  case clocks => exact ⟨_, congrArg Host.Outcome.next (clockLock_locks hdev hclocks), rfl, rfl, rfl⟩
  case rng => exact congrArg Host.Outcome.next (randomSourceDone_ends ok hs hrng)
  case mgmt => exact congrArg Host.Outcome.next (if_pos hs)
  case loam =>
    exact ⟨_, congrArg Host.Outcome.next (loamZeroDone_zeroes hs hzero), rfl, fun a ha => memGet_filter_dropped isSub ha _,
      fun a ha => memGet_filter_kept isSub ha _, rfl, rfl⟩
  case link =>
    exact ⟨_, congrArg Host.Outcome.next (pcieLinkUp_trains hs hrng hdown hshape), rfl, rfl, rfl, rfl, rfl,
      fun hnew => if_neg (by simp [hnew]), fun hold => if_pos hold, rfl⟩
  case refused => exact congrArg Host.Outcome.next (jtagInstruction_refused data hop hdev)
  case scans =>
    obtain ⟨v, hscan⟩ := jtagInstruction_scans data hop
    exact ⟨v, congrArg Host.Outcome.next hscan⟩

end Sys2Proof.Machine
end

section
/-! O53. A load: the checks' outcome decides where the start-up state goes, and the test's end starts the image. -/

namespace Sys2Proof.Machine

section Load

variable {s : State}

theorem leaveFloor_boot (s : State) : (leaveFloor s).boot = s.boot := by
  obtain h | ⟨mhz, h⟩ := leaveFloor_cases s <;> rw [h]
  rfl

theorem bootFetchDone_fails {p : Profile} {i : Image} {code : Nat} (hst : s.boot.st = .fetch) (hfail : bootFail s p i = some code) :
    bootFetchDone s p i = failLoad (writeBank s 0 i) code := by
  simp [bootFetchDone, hst, hfail]

theorem bootFetchDone_passes {p : Profile} {i : Image} (hst : s.boot.st = .fetch) (hpass : bootFail s p i = none) :
    bootFetchDone s p i = passChecks (writeBank s 0 i) p i := by
  simp [bootFetchDone, hst, hpass]

/-- The start-up state once the checks have passed. -/
theorem passChecks_boot (s : State) (p : Profile) (i : Image) : (passChecks s p i).boot
    = { s.boot with st := .check, profile := some p, identity := some p.head.boundKey, image := some i, bank := 0 } := leaveFloor_boot _

/-! ### The start-up test (R526, R577) -/

/-- The state in which a start-up test that finds nothing has ended. -/
def testPassed (s : State) : State :=
  setBist { s with field := { s.field with accum := [], tilth := [] } } fun b => { b with
    startupDone := true, periodic := fullField s, due := nextSlice s.now }

theorem startTest_passes {failing : List FailUnit} (h : fullField s = true → failing = []) : startTest s failing = testPassed s := by
  unfold startTest
  dsimp only
  split
  · next hfull => rw [h hfull]; rfl
  · rfl

/-- What the test leaves of the start-up state when the microprograms have been loaded. -/
theorem loadProfileMicros_eq (s : State) : ∃ loaded refused, loadProfileMicros s = setBoot s (fun b => { b with loaded := loaded, refused := refused })
    ∧ ∀ p, s.boot.profile = some p → loaded = (loadMicros p.micros).1 ∧ refused = (loadMicros p.micros).2 := by
  unfold loadProfileMicros
  cases hp : s.boot.profile with
  | none => exact ⟨s.boot.loaded, s.boot.refused, rfl, nofun⟩
  | some p => exact ⟨_, _, rfl, fun q hq => by cases hq; exact ⟨rfl, rfl⟩⟩

/-- The image starts in all four reeves. -/
def imageReleased (s : State) : State :=
  startReeves (match s.boot.image with | some i => startImage s i | none => s)

theorem startupTestDone_runs {failing : List FailUnit} (hs : powered s = true) (hst : s.boot.st = .check) (h : fullField s = true → failing = []) :
    startupTestDone s failing = setBoot (imageReleased (loadProfileMicros (testPassed s))) fun b => { b with st := .running, testMode := true } := by
  simp only [startupTestDone, hs, hst, startTest_passes h]
  rfl

/-- What a release leaves beside the start-up state. -/
theorem imageReleased_boot (s : State) : ∃ b, imageReleased s = setBoot s (fun _ => b) ∧ b.loaded = s.boot.loaded ∧ b.refused = s.boot.refused
    ∧ ∀ i, s.boot.image = some i → b.chain = Config.sha384 (s.boot.chain ++ i.head.digest ++ toLe 4 i.head.svn)
      ∧ b.reeves = List.replicate 4 (runningReeve s.boot.bank i) := by
  unfold imageReleased startReeves
  cases hi : s.boot.image with
  | none =>
    dsimp only
    rw [hi]
    exact ⟨s.boot, rfl, rfl, rfl, nofun⟩
  | some i => exact ⟨_, rfl, rfl, rfl, fun j hj => by cases hj; exact ⟨rfl, rfl⟩⟩

end Load

/-- Settles O53. -/
theorem loadsRun : Obligations.LoadsRun := by
  unfold Obligations.LoadsRun
  refine fun s => ⟨fun hst => ⟨fun p i => ?fetched, fun hinj => ?timeout⟩, fun hs hst failing hfull => ?tested⟩
  case fetched =>
    cases hcheck : bootFail s p i with
    | some code => exact ⟨_, congrArg Host.Outcome.next (bootFetchDone_fails hst hcheck), rfl⟩
    | none =>
      obtain ⟨-, -, -, hqueues, hmem⟩ := leaveFloor_levels (applyMacs (setBoot (writeBank s 0 i) fun b => { b with
        st := .check, profile := some p, identity := some p.head.boundKey, image := some i, bank := 0 }) p)
      refine ⟨_, congrArg Host.Outcome.next (bootFetchDone_passes hst hcheck), ?_⟩
      dsimp only
      rw [passChecks_boot]
      exact ⟨rfl, rfl, rfl, rfl, rfl, hqueues, hmem⟩
  case timeout => exact congrArg Host.Outcome.next ((if_pos (by rw [hst]; rfl)).trans (noteInjected_unarmed (s := failLoad s 7) 0x1A 0 hinj))
  case tested =>
    have heq := startupTestDone_runs hs hst hfull
    obtain ⟨loaded, refused, hmicros, hprofile⟩ := loadProfileMicros_eq (testPassed s)
    obtain ⟨b, hreleased, hloaded, hrefused, himage⟩ := imageReleased_boot (loadProfileMicros (testPassed s))
    rw [hreleased] at heq
    rw [hmicros] at heq hloaded hrefused himage
    refine ⟨_, congrArg Host.Outcome.next heq, rfl, rfl, rfl, rfl, rfl, rfl, himage, fun p hp => ?_, rfl, rfl⟩
    obtain ⟨hp1, hp2⟩ := hprofile p hp
    exact ⟨hloaded.trans hp1, hrefused.trans hp2⟩

end Sys2Proof.Machine
end

section
/-! O55. Completion errors, IDE keys and DOE discovery: one branch each. -/

namespace Sys2Proof.Machine

section Protected

variable {s : State}

theorem hostCompletionError_load {q : Nat} (hst : s.boot.st = .fetch) (hinj : s.flt.inj = []) : hostCompletionError s q = failLoad s 7 := by
  simp only [hostCompletionError, hst, beq_self_eq_true, if_true]
  exact noteInjected_unarmed (s := failLoad s 7) 0x19 0 hinj

theorem hostCompletionError_ends {t : State} {q : Nat} (hst : s.boot.st ≠ .fetch) (ht : hostErrorEnd s q = some t) :
    hostCompletionError s q = noteInjected t 0x19 (queueOf s q).cfg.owner := by
  simp only [hostCompletionError, beq_iff_eq, if_neg hst, ht]

theorem hostCompletionError_none {q : Nat} (hst : s.boot.st ≠ .fetch) (hnone : hostErrorEnd s q = none) : hostCompletionError s q = s := by
  simp only [hostCompletionError, beq_iff_eq, if_neg hst, hnone]

/-- A change of an IDE stream, and its answer. -/
def ideChanged (s : State) (i : Nat) (f : IdeStream → IdeStream) : State :=
  { s with pcie := { s.pcie with ide := modifyAt i f s.pcie.ide }, out := s.out ++ [.spdm true (.ideKm i true)] }

section Session

variable {n i : Nat} (hreach : pciReaches s 0 = true) (hsession : doeSession s n = true) (hi : i < 5)
include hreach hsession hi

/-! IDE_KM over a session of the physical function's DOE (R443). -/

theorem ideKm_program (k : Nat) : ideKm s n i (.program k) = ideChanged s i fun x => { x with key := some k } := by
  simp only [ideKm, hreach, hsession, if_neg (Nat.not_le.mpr hi)]
  rfl

theorem ideKm_go : ideKm s n i .go = if (s.pcie.ide.getD i noIde).key.isSome then ideChanged s i fun x => { x with secure := true }
    else { s with out := s.out ++ [.spdm true (.ideKm i false)] } := by
  simp only [ideKm, hreach, hsession, if_neg (Nat.not_le.mpr hi)]
  rfl

theorem ideKm_stop : ideKm s n i .stop = ideChanged s i dropIde := by
  simp only [ideKm, hreach, hsession, if_neg (Nat.not_le.mpr hi)]
  rfl

end Session

theorem doeDiscovery_answers (i : Nat) (hreach : pciReaches s 0 = true) :
    exec (.doeDiscovery i) s = .next { s with out := s.out ++ [.discovery i (doeKinds[i]?).toList] } :=
  congrArg Host.Outcome.next (if_pos hreach)

end Protected

/-- Settles O55. -/
theorem linksAreProtected : Obligations.LinksAreProtected := by
  unfold Obligations.LinksAreProtected
  refine fun s => ⟨fun q hinj => ⟨fun hst => ?load, fun t hst ht => ?read, fun hst hnone => ?nothing⟩,
    fun n i hreach hsession hi => ⟨fun k => ?program, fun hkey => ?start, fun hkey => ?refused, ?stop⟩, fun i hup hsecure => ?check,
    fun i hreach => ⟨doeDiscovery_answers i hreach, fun hi => ?beyond⟩⟩
  case load => exact congrArg Host.Outcome.next (hostCompletionError_load hst hinj)
  case read => exact congrArg Host.Outcome.next (hostCompletionError_ends hst ht)
  case nothing => exact congrArg Host.Outcome.next (hostCompletionError_none hst hnone)
  case program => exact congrArg Host.Outcome.next (ideKm_program hreach hsession hi k)
  case start => exact congrArg Host.Outcome.next ((ideKm_go hreach hsession hi).trans (if_pos hkey))
  case refused => exact congrArg Host.Outcome.next ((ideKm_go hreach hsession hi).trans (if_neg (by rw [hkey]; exact Bool.false_ne_true)))
  case stop => exact congrArg Host.Outcome.next (ideKm_stop hreach hsession hi)
  case check => exact congrArg Host.Outcome.next (if_pos (by rw [hup, hsecure]; rfl))
  case beyond =>
    have hnone : doeKinds[i]? = none := List.getElem?_eq_none hi
    rw [doeDiscovery_answers i hreach, hnone]
    rfl

end Sys2Proof.Machine
end

section
/-! O54. A function-level reset disables the queues of the device, which has 256; the statement speaks of every state, also of one that
lists a queue beyond them. -/

namespace Sys2Proof.Machine

/-- A running device whose first virtual function is enabled, with a queue of that function at index 256, which no device of 256 queues
has. -/
def extraQueue : State :=
  { State.reset with
    boot := { noBoot with dev := .run }
    pcie := { noPcie with linkUp := true, fns := List.replicate 5 { noPciFn with enabled := true } }
    queues := List.replicate 256 noQueue ++ [{ noQueue with state := .check, cfg := { noQueue.cfg with owner := 1 } }] }

theorem extraQueue_reached : pciReaches extraQueue 1 = true ∧ extraQueue.fns.length = 5 ∧ extraQueue.pcie.fns.length = 5 := by decide +kernel

theorem extraQueue_owned : (queueOf extraQueue 256).cfg.owner = 1 := by decide +kernel

/-- None of its mailboxes is taken. -/
theorem extraQueue_free (m : Nat) : (mbxOf extraQueue 1 m).state = .free := by
  have hfree : ∀ M ∈ (fnOf extraQueue 1).mailboxes, M.state = .free := by decide +kernel
  rw [mbxOf, List.getD_eq_getElem?_getD]
  cases h : (fnOf extraQueue 1).mailboxes[m]? with
  | none => rfl
  | some M => exact hfree M (List.mem_of_getElem? h)

/-- The reset leaves the queue as it is. -/
theorem extraQueue_stays : (queueOf (functionLevelReset extraQueue 1) 256).state = .check := by decide +kernel

/-- Refutes O54: the statement does not say that the state has the device's 256 queues; one beyond them is not disabled by the reset of its
function. -/
theorem not_functionsReset : ¬ Obligations.FunctionsReset := by
  unfold Obligations.FunctionsReset
  intro h
  obtain ⟨hreach, hfns, hpcie⟩ := extraQueue_reached
  obtain ⟨-, -, hreset, -⟩ := h extraQueue 1 hreach
  have hfree (m : Nat) : (mbxOf extraQueue 1 m).state ≠ .taken := by rw [extraQueue_free m]; decide
  obtain ⟨t, ht, -, -, -, hdisabled, -⟩ := hreset (by decide) hfns hpcie hfree
  have hreached : functionLevelReset extraQueue 1 = t := Host.Outcome.next.inj ht
  have hdone := hdisabled 256 extraQueue_owned
  rw [← hreached, extraQueue_stays] at hdone
  exact absurd hdone (by decide)

end Sys2Proof.Machine
end

section
/-! INVARIANT. Every function of the model that gives a state keeps the invariant: one lemma a function, in the order of the model, each
from the lemmas of the functions it calls. A function that gives the state in a pair, an option or an outcome has it as an equation. -/

namespace Sys2Proof.Machine

/-- What is asked of a state: the invariant, where `inv` holds, and a property of its boot state. -/
structure Kept where
  inv : Prop
  boot : Boot → Prop

/-- The invariant alone. -/
def anyBoot : Kept := ⟨True, fun _ => True⟩

/-- A state that meets what is asked of it. A function that leaves the boot state alone keeps every `P`, and one that writes it `anyBoot`. -/
structure Sound (P : Kept) (s : State) : Prop where
  ok : P.inv → stateOk s
  boot : P.boot s.boot

/-! ### Shapes of the model's functions: record updates, folds, branches, pairs -/

section
variable {α β ε : Type} {P : Kept} {s t : State}

theorem sound_same (h : Sound P s) (hm : t.mem = s.mem) (hf : t.field = s.field) (hz : sizes t = sizes s) (hb : t.boot = s.boot) :
    Sound P t := ⟨fun hi => ok_same hm hf hz (h.ok hi), hb ▸ h.boot⟩

theorem sound_newBoot (h : Sound anyBoot s) (hm : t.mem = s.mem) (hf : t.field = s.field) (hz : sizes t = sizes s) : Sound anyBoot t :=
  ⟨fun hi => ok_same hm hf hz (h.ok hi), trivial⟩

theorem sound_mem (h : Sound P s) (hf : t.field = s.field) (hz : sizes t = sizes s) (hb : t.boot = s.boot)
    (hm : memoryOk s.mem → memoryOk t.mem) : Sound P t := ⟨fun hi => ok_mem hf hz (h.ok hi) hm, hb ▸ h.boot⟩

theorem sound_field (h : Sound P s) (hm : t.mem = s.mem) (hz : sizes t = sizes s) (hb : t.boot = s.boot)
    (hf : fieldOk s.field → fieldOk t.field) : Sound P t := ⟨fun hi => ok_field hm hz (h.ok hi) hf, hb ▸ h.boot⟩

theorem Calm.sound (hc : Calm s t) (h : Sound P s) : Sound P t := ⟨fun hi => hc.ok (h.ok hi), hc.boot ▸ h.boot⟩

/-- A fold whose accumulator holds the state, as `get` says. -/
theorem sound_foldOf (get : β → State) {f : β → α → β} (hf : ∀ y a, Sound P (get y) → Sound P (get (f y a))) {xs : List α} {y : β}
    (h : Sound P (get y)) : Sound P (get (xs.foldl f y)) :=
  List.foldlRecOn (motive := fun y => Sound P (get y)) xs f h fun y hy a _ => hf y a hy

theorem sound_foldl {f : State → α → State} (hf : ∀ s a, Sound P s → Sound P (f s a)) {xs : List α} (h : Sound P s) :
    Sound P (xs.foldl f s) := sound_foldOf id hf h

theorem sound_foldlM {f : State → α → Except ε State} (hf : ∀ {s t a}, f s a = .ok t → Sound P s → Sound P t) :
    ∀ {xs : List α} {s t : State}, xs.foldlM f s = .ok t → Sound P s → Sound P t
  | [], _, _, h, hs => by cases h; exact hs
  | x :: xs, s, t, h, hs => by
    rw [List.foldlM_cons] at h
    cases hx : f s x with
    | error e => rw [hx] at h; cases h
    | ok u =>
      rw [hx] at h
      exact sound_foldlM hf h (hf hx hs)

theorem sound_of_pair {x : α × State} {a : α} (he : x = (a, t)) (h : Sound P x.2) : Sound P t := by
  rw [he] at h
  exact h

theorem sound_ite {c : Prop} {_ : Decidable c} (hs : Sound P s) (ht : Sound P t) : Sound P (if c then s else t) := by
  split
  · exact hs
  · exact ht

theorem sound_next {Fault Refusal : Type} (he : (.next s : Host.Outcome State Fault Refusal) = .next t) (h : Sound P s) : Sound P t :=
  Host.Outcome.next.inj he ▸ h

theorem sound_nextIte {Fault Refusal : Type} {c : Prop} {_ : Decidable c} {u : State}
    (he : (if c then .next s else .next t : Host.Outcome State Fault Refusal) = .next u) (hs : Sound P s) (ht : Sound P t) : Sound P u := by
  split at he
  · exact sound_next he hs
  · exact sound_next he ht

/-- What passes a guard. -/
theorem ok_of_guard {c : Prop} {_ : Decidable c} {e : ε} {x : Except ε α} {y : α} (he : (if c then .error e else x) = .ok y) : x = .ok y := by
  split at he
  · cases he
  · exact he

theorem sound_takeFree {n r0 : Nat} (he : takeFree s n = (r0, t)) (h : Sound P s) : Sound P t := by
  cases he
  exact sound_same h rfl rfl rfl rfl

theorem sound_taken {n : Nat} (h : Sound P s) : Sound P (takeFree s n).2 := sound_takeFree rfl h

theorem sound_setBoot {f : Boot → Boot} (h : Sound anyBoot s) : Sound anyBoot (setBoot s f) := sound_newBoot h rfl rfl rfl

end

section
variable {P : Kept} {s t s0 : State} {p q e id slot fn key n i d units addr k stream m size off session : Nat} {harrow doe i3c : Bool}
variable {a : Asked} {r : Result} {st : Stream} {c : Cmd} {Q : Queue} {w : WordWrite} {cx : AttendCtx} {K : Pool} {bs : List Byte}

/-! ### Memory -/

theorem sound_setPart {f : Partition → Partition} (h : Sound P s) : Sound P (setPart s p f) := (calm_setPart ..).sound h

theorem sound_setPartMem {f : MemCounts → MemCounts} (h : Sound P s) : Sound P (setPartMem s p f) := (calm_setPartMem ..).sound h

theorem sound_charge {loam sub : Nat} (h : Sound P s) : Sound P (charge s p loam sub) := sound_setPart h

theorem sound_uncharge {loam sub : Nat} (h : Sound P s) : Sound P (uncharge s p loam sub) := sound_setPart h

theorem sound_keyLine {line : Nat} (h : Sound P s) : Sound P (keyLine s line) := (calm_keyLine ..).sound h

theorem sound_keyFrame {f : Nat} (h : Sound P s) : Sound P (keyFrame s f) := sound_mem h rfl rfl rfl id

theorem sound_keyWhole {a : Nat} (h : Sound P s) : Sound P (keyWhole s a) := sound_ite (sound_keyFrame h) h

theorem sound_settleBuckets (h : Sound P s) : Sound P (settleBuckets s) := by
  unfold settleBuckets
  exact sound_same h rfl rfl (by simp [sizes]) rfl

theorem sound_regulate {lines : Nat} {write : Bool} (h : Sound P s) : Sound P (regulate s p lines write) := (calm_regulate ..).sound h

theorem sound_putPhys {a : Nat} (h : Sound P s) : Sound P (putPhys s a bs) := (calm_putPhys ..).sound h

theorem sound_failLate {f : Fail} (h : Sound P s) : Sound P (failLate s q f) := (calm_failLate ..).sound h

theorem sound_poisonCmds {e : WcbEntry} (h : Sound P s) : Sound P (poisonCmds s e) := (calm_poisonCmds ..).sound h

theorem sound_drainEntry {e : WcbEntry} (h : Sound P s) : Sound P (drainEntry s e) := (calm_drainEntry ..).sound h

theorem sound_drainWhere {sel : WcbEntry → Bool} (h : Sound P s) : Sound P (drainWhere s sel) :=
  sound_foldl (fun _ _ hx => sound_drainEntry hx) h

theorem sound_drainOldest (h : Sound P s) : Sound P (drainOldest s p) := (calm_drainOldest ..).sound h

theorem sound_trimWcb : ∀ {n : Nat} {s : State}, Sound P s → Sound P (trimWcb p n s)
  | 0, _, h => h
  | _ + 1, _, h => by
    unfold trimWcb
    split
    · exact sound_trimWcb (sound_drainOldest h)
    · exact h

theorem sound_trimAll (h : Sound P s) : Sound P (trimAll s) := sound_foldl (fun _ _ hx => sound_trimWcb hx) h

theorem sound_wcbMerge {a : Nat} (h : Sound P s) : Sound P (wcbMerge s p q a bs) := (calm_wcbMerge ..).sound h

theorem sound_physStoreLine {a : Nat} (he : physStoreLine s p q a bs = .ok t) (h : Sound P s) : Sound P t := (calm_physStoreLine he).sound h

theorem sound_sentRemote {qp : Nat} (h : Sound P s) : Sound P (sentRemote s qp) := sound_same h rfl rfl rfl rfl

theorem sound_storeHome {va : Nat} (he : storeHome s p q va bs = .ok t) (h : Sound P s) : Sound P t := (calm_storeHome he).sound h

theorem sound_holdWrite {va : Nat} (h : Sound P s) : Sound P (holdWrite s p q va bs) := sound_mem h rfl rfl rfl id

theorem sound_storeLine {va : Nat} (he : storeLine s p q va bs = .ok t) (h : Sound P s) : Sound P t := (calm_storeLine he).sound h

theorem sound_storeBytes {va : Nat} (he : storeBytes s p q va bs = .ok t) (h : Sound P s) : Sound P t := (calm_storeBytes he).sound h

theorem sound_storeAll {ws : List (Nat × List Byte)} (he : storeAll s p q ws = .ok t) (h : Sound P s) : Sound P t := (calm_storeAll he).sound h

theorem sound_physStore {a : Nat} (he : physStore s p q a bs = .ok t) (h : Sound P s) : Sound P t := (calm_physStore he).sound h

theorem sound_havoc {spans : List (Nat × Nat)} (h : Sound P s) : Sound P (havoc s p q spans) := (calm_havoc ..).sound h

theorem sound_chargeReads {spans : List (Nat × Nat)} (h : Sound P s) : Sound P (chargeReads s p spans) := sound_ite h (sound_regulate h)

theorem sound_touchPlots {spans : List (Nat × Nat)} (h : Sound P s) : Sound P (touchPlots s p spans) := (calm_touchPlots ..).sound h

theorem sound_storeOnce {va : Nat} (he : storeOnce s p q va bs = .ok t) (h : Sound P s) : Sound P t := (calm_storeOnce he).sound h

/-! ### Records -/

theorem sound_setStateFields {granules : List Nat} {row : Nat} {r : Record} {fs : List Nat} (h : Sound P s) :
    Sound P (setStateFields s granules row r fs) := (calm_setStateFields ..).sound h

theorem sound_setStream {f : Stream → Stream} (h : Sound P s) : Sound P (setStream s id f) := (calm_setStream ..).sound h

theorem sound_writeState {r : Record} {fs : List Nat} (h : Sound P s) : Sound P (writeState s st slot r fs) := (calm_writeState ..).sound h

theorem sound_havocState (h : Sound P s) : Sound P (havocState s st) := (calm_havocState ..).sound h

theorem sound_markUndef (h : Sound P s) : Sound P (markUndef s id) := (calm_markUndef ..).sound h

theorem sound_markDirty {ids : List Nat} (h : Sound P s) : Sound P (markDirty s p ids) :=
  sound_foldl (fun _ _ hx => sound_ite (sound_setStream hx) hx) h

/-! ### Ops -/

theorem sound_setQueue {f : Queue → Queue} (h : Sound P s) : Sound P (setQueue s q f) := (calm_setQueue ..).sound h

theorem sound_setCmd {f : Cmd → Cmd} (h : Sound P s) : Sound P (setCmd s q f) := (calm_setCmd ..).sound h

theorem sound_setCounts {f : QueueCounts → QueueCounts} (h : Sound P s) : Sound P (setCounts s q f) := sound_setQueue h

theorem sound_setEngine {f : Engine → Engine} (h : Sound P s) : Sound P (setEngine s e f) := (calm_setEngine ..).sound h

theorem sound_setHarrow {f : Nat} {g : Harrow → Harrow} (h : Sound P s) : Sound P (setHarrow s f g) :=
  sound_field h rfl rfl rfl (fun ⟨he, hh, ha, ht, hs⟩ => ⟨he, ((modifyAt_length ..).trans hh), ha, ht, hs⟩)

theorem sound_setFn {f : Function → Function} (h : Sound P s) : Sound P (setFn s fn f) := sound_same h rfl rfl (by simp [sizes]) rfl

theorem sound_setPci {f : PciFn → PciFn} (h : Sound P s) : Sound P (setPci s fn f) := sound_same h rfl rfl (by simp [sizes]) rfl

theorem sound_barWrite {act : State → State} (h : Sound P s) (kact : ∀ (x : State), Sound P x → Sound P (act x)) :
    Sound P (barWrite s fn act) :=
  sound_ite h (sound_ite (sound_same h rfl rfl rfl rfl) (kact _ h))

theorem sound_raiseMsix {entry : Nat} (h : Sound P s) : Sound P (raiseMsix s fn entry) :=
  sound_ite h (sound_ite (sound_setFn h) (sound_ite (sound_setPci h) h))

theorem sound_raiseEventFn {bit : Nat} (h : Sound P s) : Sound P (raiseEventFn s bit fn) := sound_raiseMsix (sound_setFn h)

theorem sound_raiseEvent {bit : Nat} (h : Sound P s) : Sound P (raiseEvent s bit p) := sound_foldl (fun _ _ hx => sound_raiseEventFn hx) h

theorem sound_raiseEventAll {bit : Nat} (h : Sound P s) : Sound P (raiseEventAll s bit) := sound_foldl (fun _ _ hx => sound_raiseEventFn hx) h

theorem sound_fireSlot {x : Inj} (h : Sound P s) : Sound P (fireSlot s slot x) := sound_same h rfl rfl rfl rfl

theorem sound_injected {point target : Nat} {r0 : Bool} (he : injected s point target = (r0, t)) (h : Sound P s) : Sound P t := by
  unfold injected at he
  split at he
  · cases he
    exact sound_fireSlot h
  · cases he
    exact h

theorem sound_noteInjected {point target : Nat} (h : Sound P s) : Sound P (noteInjected s point target) := sound_injected rfl h

theorem sound_setResult (h : Sound P s) : Sound P (setResult s q r) := (calm_setResult ..).sound h

theorem sound_releaseWaiters (h : Sound P s) : Sound P (releaseWaiters s p) := by
  unfold releaseWaiters
  dsimp only
  exact sound_same h rfl rfl (by simp [sizes]) rfl

theorem sound_signalCore {f v : Nat} {err : Bool} (h : Sound P s) : Sound P (signalCore s p f v err) := sound_releaseWaiters (sound_setPart h)

theorem sound_beginRun (h : Sound P s) : Sound P (beginRun s q) := sound_setQueue h

theorem sound_releaseHeld (h : Sound P s) : Sound P (releaseHeld s q) :=
  sound_setQueue (sound_field h rfl rfl rfl (fun ⟨he, hh, ha, ht, hs⟩ => ⟨(by simpa using he), hh, ha, ht, hs⟩))

theorem sound_enterStageB (h : Sound P s) : Sound P (enterStageB s q c) := sound_ite h (sound_releaseHeld h)

theorem sound_endEarly {f : Fail} {outs : List (Nat × Nat)} {work : Nat} (h : Sound P s) :
    Sound P (endEarly s q p f outs work) := (calm_endEarly ..).sound h

/-! ### Detectors -/

theorem sound_setFlt {f : Faults → Faults} (h : Sound P s) : Sound P (setFlt s f) := sound_same h rfl rfl rfl rfl

theorem sound_setSub {j : Nat} {f : SubChannel → SubChannel} (h : Sound P s) : Sound P (setSub s j f) :=
  sound_mem h rfl rfl rfl (fun ⟨hp, hh, hr, hc⟩ => ⟨hp, hh, hr, ((modifyAt_length ..).trans hc)⟩)

theorem sound_raiseFenced {u : FailUnit} (h : Sound P s) : Sound P (raiseFenced s u) := sound_foldl (fun _ _ hx => sound_raiseEventFn hx) h

theorem sound_tellFence {u : FailUnit} (h : Sound P s) : Sound P (tellFence s u) := sound_raiseFenced (sound_setFlt h)

theorem sound_markFenced {u : FailUnit} (h : Sound P s) : Sound P (markFenced s u) := by
  unfold markFenced
  split
  · exact sound_setFlt h
  · exact sound_setFlt h
  · exact sound_setFlt h
  · exact sound_raiseEventAll (sound_setSub h)
  · exact h
  · exact h
  · exact h
  · exact h

theorem sound_joinHandling {u : FailUnit} {det : Nat} {inj : Bool} (h : Sound P s) : Sound P (joinHandling s u det inj) := sound_setFlt h

theorem sound_latchStorage {u : FailUnit} {det : Nat} {inj : Bool} (h : Sound P s) : Sound P (latchStorage s u det inj) :=
  sound_ite h (sound_ite (sound_tellFence (sound_markFenced (sound_joinHandling h))) (sound_joinHandling h))

theorem sound_countEvent {det : Nat} (h : Sound P s) : Sound P (countEvent s det) := sound_setFlt h

theorem sound_countLine {r0 : Nat} (he : countLine s key = (r0, t)) (h : Sound P s) : Sound P t := by
  unfold countLine at he
  dsimp only at he
  cases he
  exact sound_setFlt h

theorem sound_secondLine {r0 : Bool} (he : secondLine s key n = (r0, t)) (h : Sound P s) : Sound P t := by
  unfold secondLine at he
  dsimp only at he
  split at he
  · cases he
    exact sound_setFlt (sound_countLine rfl h)
  · cases he
    exact sound_countLine rfl h

theorem sound_countLoamLine {inj : Bool} (h : Sound P s) : Sound P (countLoamLine s n inj) :=
  sound_ite (sound_latchStorage (sound_secondLine rfl h)) (sound_secondLine rfl h)

theorem sound_countSubLine {j : Nat} {inj : Bool} (h : Sound P s) : Sound P (countSubLine s j inj) :=
  sound_ite (sound_latchStorage (sound_setSub h)) (sound_setSub h)

theorem sound_countSubCorrected {j : Nat} (h : Sound P s) : Sound P (countSubCorrected s j) := sound_setSub h

theorem sound_poisonLine {line : Nat} (h : Sound P s) : Sound P (poisonLine s line) := sound_mem h rfl rfl rfl id

theorem sound_readFires {point target line : Nat} (h : Sound P s) : Sound P (readFires s point target line) := by
  unfold readFires
  dsimp only
  split
  · exact sound_countEvent (sound_injected rfl h)
  · split
    · exact sound_countLoamLine (sound_countEvent (sound_poisonLine (sound_injected rfl h)))
    · split
      · exact sound_countSubCorrected (sound_countEvent (sound_injected rfl h))
      · exact sound_countSubLine (sound_countEvent (sound_poisonLine (sound_injected rfl h)))

theorem sound_fireReads {first : (Nat → Bool) → Option Nat} (h : Sound P s) : Sound P (fireReads s first) := by
  unfold fireReads
  dsimp only
  refine sound_foldl (fun _ _ hx => ?_) h
  split
  · split
    · exact sound_readFires hx
    · exact hx
  · exact hx

theorem sound_useReads {spans : List (Nat × Nat)} (h : Sound P s) : Sound P (useReads s p spans) :=
  sound_fireReads (sound_chargeReads (sound_touchPlots h))

theorem sound_fireTimes {point target : Nat} : ∀ {n : Nat} {s : State} {r0 : Nat} {t : State}, fireTimes point target n s = (r0, t) → Sound P s →
    Sound P t
  | 0, _, _, _, he, h => by cases he; exact h
  | _ + 1, _, _, _, he, h => by
    unfold fireTimes at he
    split at he
    · next hcall => cases he; exact sound_fireTimes rfl (sound_injected hcall h)
    · cases he; exact h

theorem sound_completionFires {r0 : Option Fail} (he : completionFires s fn = (r0, t)) (h : Sound P s) : Sound P t := by
  unfold completionFires at he
  dsimp only at he
  split at he
  · next hcall =>
      cases he
      exact sound_same (sound_injected hcall h) rfl rfl rfl rfl
  · cases he
    exact sound_fireTimes rfl h

theorem sound_hostFires {spans : List (Nat × Nat)} {r0 : Option Fail} (he : hostFires s p spans = (r0, t)) (h : Sound P s) : Sound P t := by
  refine sound_of_pair he (sound_foldOf Prod.snd (fun y fn hy => ?_) h)
  dsimp only
  split
  · exact hy
  · exact sound_completionFires rfl hy

theorem sound_useLines {lines : List Nat} (h : Sound P s) : Sound P (useLines s p lines) := by
  unfold useLines
  dsimp only
  exact sound_fireReads (sound_ite h (sound_regulate h))

/-! ### Operands -/

theorem sound_writeRows {rows : Except Fail (List OutRow)} {outs : List (Nat × Nat)} {stall : Option Nat} {work : Nat} (h : Sound P s) :
    Sound P (writeRows s q p rows outs stall work) := by
  unfold writeRows
  split
  · exact sound_endEarly h
  · split
    · exact sound_endEarly h
    · next hcall => exact sound_setResult (sound_storeAll hcall h)

/-! ### Dispatching -/

theorem sound_useLoader (h : Sound P s) : Sound P (useLoader s Q c) := sound_ite h (sound_useReads h)

theorem sound_atChecks (h : Sound P s) : Sound P (atChecks s q Q c) := sound_useLoader (sound_enterStageB h)

theorem sound_runCommand {op : Nat} {checks : State → Queue → Cmd → List (Bool × Fail)} {effect : State → Queue → Cmd → State} (h : Sound P s)
    (keffect : ∀ (x : State) (Q : Queue) (c : Cmd), Sound P x → Sound P (effect x Q c)) : Sound P (runCommand s q op checks effect) := by
  unfold runCommand
  dsimp only
  split
  · exact h
  · split
    · exact sound_setResult (sound_atChecks h)
    · split
      · exact sound_setResult (sound_atChecks h)
      · exact keffect _ _ _ (sound_beginRun (sound_atChecks h))

theorem sound_setReaders {needs : List Nat} {enter : Bool} (h : Sound P s) : Sound P (setReaders s p q needs enter) := sound_setPart h

theorem sound_countStall (h : Sound P s) : Sound P (countStall s q p) := sound_setPartMem (sound_setCounts h)

theorem sound_stallTime {ns : Nat} (h : Sound P s) : Sound P (stallTime s p ns) := sound_setPartMem h

theorem sound_useExtents {reads : List (Nat × Nat)} (h : Sound P s) : Sound P (useExtents s q p reads) :=
  sound_fireReads (sound_chargeReads (sound_touchPlots h))

theorem sound_onceRead {s1 : State} {reads : List (Nat × Nat)} {compute : State → State} (hs1 : Sound P s1)
    (kcompute : ∀ (x : State), Sound P x → Sound P (compute x)) : Sound P (onceRead s1 q p reads compute) := by
  unfold onceRead
  split
  · next hcall1 => exact sound_endEarly (sound_hostFires hcall1 hs1)
  · next hcall2 => exact kcompute _ (sound_hostFires hcall2 hs1)

theorem sound_afterReads {reads : List (Nat × Nat)} {compute : State → State} (h : Sound P s)
    (kcompute : ∀ (x : State), Sound P x → Sound P (compute x)) : Sound P (afterReads s q p reads compute) :=
  sound_ite (kcompute _ h) (sound_onceRead (sound_useExtents h) (fun _ hx => kcompute _ hx))

theorem sound_readMore {reads : List (Nat × Nat)} {compute : State → State} (h : Sound P s)
    (kcompute : ∀ (x : State), Sound P x → Sound P (compute x)) : Sound P (readMore s q p reads compute) :=
  sound_onceRead (sound_fireReads (sound_chargeReads h)) (fun _ hx => kcompute _ hx)

theorem sound_gated {reads : List (Nat × Nat)} {compute : State → State} (h : Sound P s)
    (kcompute : ∀ (x : State), Sound P x → Sound P (compute x)) : Sound P (gated s q p reads compute) := by
  unfold gated
  dsimp only
  split
  · exact sound_endEarly h
  · split
    · exact sound_afterReads (sound_setReaders (sound_setCmd h)) (fun _ hx => kcompute _ hx)
    · refine sound_setCmd ?_
      split
      · exact sound_setCmd h
      · exact sound_countStall (sound_setCmd h)

theorem sound_setSlot {sl : Slot} (h : Sound P s) : Sound P (setSlot s e i sl) := (calm_setSlot ..).sound h

theorem sound_setAccum {ws : List (Nat × Nat)} (h : Sound P s) : Sound P (setAccum s ws) := by
  unfold setAccum
  refine sound_field h rfl rfl rfl fun ⟨he, hh, ha, ht, hs⟩ => ⟨he, hh, ?_, ht, hs⟩
  exact List.foldlRecOn (motive := fun m => Memory.wf m = true) _ _ ha fun _ hm _ _ => memWrite_wf _ _ hm

theorem sound_openWork {w : Work} (h : Sound P s) : Sound P (openWork s q w) := sound_setQueue h

/-! ### MatrixEngine -/

theorem sound_keepPartials {ps : Except Fail (List (Nat × List Nat))} {work : Nat} (h : Sound P s) : Sound P (keepPartials s q c ps work) := by
  unfold keepPartials
  split
  · exact sound_endEarly h
  · exact sound_setResult (sound_setCmd h)

theorem sound_holdSlots {supply : List (Nat × Nat)} {shape : List Nat} (h : Sound P s) : Sound P (holdSlots s q n supply shape) :=
  sound_foldl (fun _ _ hx => sound_setSlot hx) (sound_setQueue h)

theorem sound_computeMxGemm (h : Sound P s) : Sound P (computeMxGemm s q) := by
  unfold computeMxGemm
  dsimp only
  split
  · exact h
  · split
    · exact h
    · split
      · exact sound_keepPartials h
      · split
        · exact sound_endEarly h
        · split
          · exact sound_setResult (sound_ite h (sound_setAccum h))
          · exact sound_writeRows (sound_ite h (sound_setAccum h))

theorem sound_unrun (h : Sound P s) : Sound P (unrun s q) := sound_setQueue h

theorem sound_startMxGemm (hs0 : Sound P s0) : Sound P (startMxGemm s0 q Q c) := by
  unfold startMxGemm
  dsimp only
  split
  · split
    · exact sound_setResult (sound_unrun hs0)
    · exact sound_gated (sound_setCmd (sound_openWork (sound_charge (sound_ite (sound_holdSlots hs0) hs0)))) (fun _ hx =>
        sound_computeMxGemm hx)
  · exact hs0

/-! ### Convolution -/

theorem sound_startTiled {harrowOnly : Bool} {perDrain banks haloWidth : Nat} {halo : List Bool} {outs reads : List (Nat × Nat)}
    {compute : State → State} (hs0 : Sound P s0) (kcompute : ∀ (x : State), Sound P x → Sound P (compute x)) :
    Sound P (startTiled s0 q p d units harrowOnly perDrain banks haloWidth halo outs reads compute) :=
  sound_gated (sound_setCmd (sound_openWork (sound_charge hs0))) (fun _ hx => kcompute _ hx)

theorem sound_computeConv2d (h : Sound P s) : Sound P (computeConv2d s q) := by
  unfold computeConv2d
  dsimp only
  split
  · exact h
  · split
    · exact h
    · split
      · exact sound_keepPartials h
      · exact sound_writeRows h

theorem sound_startConv2d (h : Sound P s) : Sound P (startConv2d s q Q c) := by
  unfold startConv2d
  dsimp only
  split
  · exact sound_startTiled h (fun _ hx => sound_computeConv2d hx)
  · exact h

theorem sound_computePool (h : Sound P s) : Sound P (computePool s q) := by
  unfold computePool
  dsimp only
  split
  · exact h
  · split
    · exact h
    · exact sound_writeRows h

theorem sound_startPool (h : Sound P s) : Sound P (startPool s q Q c) := by
  unfold startPool
  dsimp only
  split
  · exact sound_startTiled h (fun _ hx => sound_computePool hx)
  · exact h

/-! ### Eltwise -/

theorem sound_countDrops {b : Nat} (h : Sound P s) : Sound P (countDrops s q p b) := by
  unfold countDrops
  split
  · exact h
  · exact sound_setCounts h

theorem sound_computeEltwise (h : Sound P s) : Sound P (computeEltwise s q) := by
  unfold computeEltwise
  dsimp only
  split
  · exact h
  · split
    · exact sound_readMore (sound_countDrops (sound_takeFree rfl h)) (fun _ hx => sound_writeRows hx)
    · exact sound_writeRows h

theorem sound_startRows {outs reads : List (Nat × Nat)} {compute : State → State} (hs0 : Sound P s0)
    (kcompute : ∀ (x : State), Sound P x → Sound P (compute x)) : Sound P (startRows s0 q p n units outs reads compute) :=
  sound_gated (sound_setCmd (sound_openWork (sound_charge hs0))) (fun _ hx => kcompute _ hx)

theorem sound_startEltwise (h : Sound P s) : Sound P (startEltwise s q Q c) := sound_startRows h (fun _ hx => sound_computeEltwise hx)

/-! ### RowOps -/

theorem sound_computeNormRow (h : Sound P s) : Sound P (computeNormRow s q) := by
  unfold computeNormRow
  dsimp only
  split
  · exact h
  · split
    · exact sound_endEarly h
    · exact sound_writeRows (sound_setCounts h)

theorem sound_startNormRow (h : Sound P s) : Sound P (startNormRow s q Q c) := sound_startRows h (fun _ hx => sound_computeNormRow hx)

theorem sound_computeSoftmaxRow (h : Sound P s) : Sound P (computeSoftmaxRow s q) := by
  unfold computeSoftmaxRow
  dsimp only
  split
  · exact h
  · exact sound_writeRows h

theorem sound_softmaxReads (h : Sound P s) : Sound P (softmaxReads s q) := by
  unfold softmaxReads
  dsimp only
  split
  · exact h
  · split
    · exact sound_gated h (fun _ hx => sound_computeSoftmaxRow hx)
    · exact sound_computeSoftmaxRow h

theorem sound_startSoftmaxRow (h : Sound P s) : Sound P (startSoftmaxRow s q Q c) := sound_startRows h (fun _ hx => sound_softmaxReads hx)

/-! ### Sample -/

theorem sound_setDetails {a b : Nat} (h : Sound P s) : Sound P (setDetails s q a b) := sound_setQueue h

theorem sound_computeSample (h : Sound P s) : Sound P (computeSample s q) := by
  unfold computeSample
  dsimp only
  split
  · exact h
  · split
    · exact sound_writeRows h
    · split
      · exact sound_endEarly h
      · exact sound_setDetails (sound_writeRows h)

theorem sound_startSample (h : Sound P s) : Sound P (startSample s q Q c) := sound_startRows h (fun _ hx => sound_computeSample hx)

theorem sound_commitSeedSet (h : Sound P s) : Sound P (commitSeedSet s p c) := sound_ite (sound_setPart h) (sound_setPart h)

/-! ### Recurrent -/

theorem sound_recurStates {adv : List Advance} (h : Sound P s) : Sound P (recurStates s p slot adv) := by
  unfold recurStates
  refine sound_markDirty ?_
  refine sound_foldl (fun _ _ hx => ?_) h
  split
  · exact sound_writeState hx
  · exact hx

theorem sound_computeRecurCell (h : Sound P s) : Sound P (computeRecurCell s q) := by
  unfold computeRecurCell
  dsimp only
  split
  · exact h
  · split
    · exact sound_endEarly h
    · exact h
    · split
      · exact sound_endEarly h
      · split
        · exact sound_endEarly h
        · next hcall => exact sound_setResult (sound_recurStates (sound_storeAll hcall h))

theorem sound_startRecurCell (h : Sound P s) : Sound P (startRecurCell s q Q c) := by
  unfold startRecurCell
  dsimp only
  split
  · split
    · exact h
    · exact sound_gated (sound_setCmd (sound_openWork h)) (fun _ hx => sound_computeRecurCell hx)
  · exact h

theorem sound_computeScanLinear (h : Sound P s) : Sound P (computeScanLinear s q) := by
  unfold computeScanLinear
  dsimp only
  split
  · exact h
  · split
    · exact sound_endEarly h
    · exact sound_endEarly h
    · split
      · exact sound_endEarly h
      · next hcall => exact sound_setResult (sound_recurStates (sound_storeAll hcall h))

theorem sound_startScanLinear (h : Sound P s) : Sound P (startScanLinear s q Q c) :=
  sound_gated (sound_setCmd (sound_openWork (sound_charge h))) (fun _ hx => sound_computeScanLinear hx)

/-! ### Pages -/

theorem sound_useRegion {addr : Nat → Nat} (h : Sound P s) : Sound P (useRegion s p addr n) := sound_useLines h

theorem sound_writeRegion {addr : Nat → Nat} (he : writeRegion s p q addr bs = .ok t) (h : Sound P s) : Sound P t :=
  sound_foldlM (fun he h => sound_physStore he h) he h

theorem sound_setPool {f : Pool → Pool} (h : Sound P s) : Sound P (setPool s p k f) := sound_setPart h

theorem sound_setPage {f : Page → Page} (h : Sound P s) : Sound P (setPage s p k id f) := sound_setPool h

theorem sound_poolCount {f : PoolCounts → PoolCounts} (h : Sound P s) : Sound P (poolCount s p k f) := sound_setPool h

theorem sound_setKv {f : KvRoot → KvRoot} (h : Sound P s) : Sound P (setKv s id f) := sound_setStream h

theorem sound_dropPage (h : Sound P s) : Sound P (dropPage s p k id) := sound_poolCount (sound_setPage h)

theorem sound_movePage {dest : PageHome} (h : Sound P s) : Sound P (movePage s p k id dest) := by
  unfold movePage
  dsimp only
  split
  · exact h
  · split
    · exact h
    · split
      · exact sound_dropPage (sound_useRegion h)
      · split
        · exact sound_dropPage (sound_useRegion h)
        · next hcall => exact sound_setPage (sound_writeRegion hcall (sound_useRegion h))

theorem sound_countedMove {dest : PageHome} {f : PoolCounts → PoolCounts} (h : Sound P s) : Sound P (countedMove s p k id dest f) := by
  unfold countedMove
  dsimp only
  split
  · split
    · exact sound_poolCount (sound_movePage h)
    · exact sound_movePage h
  · exact sound_movePage h

theorem sound_demoteStep {r0 : Nat} (he : demoteStep s p k = some (r0, t)) (h : Sound P s) : Sound P t := by
  unfold demoteStep at he
  dsimp only at he
  split at he
  · cases he
  · split at he
    · split at he
      · cases he
        exact sound_countedMove h
      · cases he
    · cases he

theorem sound_takeSlot {onlyTwo : Bool} {r0 : Nat} (he : takeSlot s p k onlyTwo = some (r0, t)) (h : Sound P s) : Sound P t := by
  unfold takeSlot at he
  dsimp only at he
  split at he
  · cases he
  · split at he
    · cases he
      exact h
    · split at he
      · next hcall =>
          cases he
          exact sound_demoteStep hcall h
      · split at he
        · cases he
        · split at he
          · exact sound_demoteStep he (sound_dropPage h)
          · split at he
            · cases he
              exact sound_dropPage h
            · cases he
          · cases he

theorem sound_unref {e : DirEntry} (h : Sound P s) : Sound P (unref s p k e) := sound_setPool h

theorem sound_releaseKv (h : Sound P s) : Sound P (releaseKv s id) := by
  unfold releaseKv
  dsimp only
  split
  · exact h
  · split
    · exact h
    · exact sound_setStream (sound_setPool (sound_foldl (fun _ _ hx => sound_unref hx) h))

theorem sound_shareKv {parent child : Nat} (h : Sound P s) : Sound P (shareKv s parent child) := by
  unfold shareKv
  dsimp only
  split
  · exact h
  · split
    · exact h
    · split
      · exact h
      · split
        · exact h
        · exact sound_setStream (sound_setPool h)

theorem sound_pinEntry {pin : Bool} {e : DirEntry} (h : Sound P s) : Sound P (pinEntry s id pin k e) := by
  unfold pinEntry
  dsimp only
  split
  · exact h
  · split
    · exact h
    · exact sound_setPage (sound_setKv h)

theorem sound_queuePages {ids : List Nat} (h : Sound P s) : Sound P (queuePages s p k q ids) := sound_mem h rfl rfl rfl id

theorem sound_effectPagePin (h : Sound P s) : Sound P (effectPagePin s q Q c) := by
  unfold effectPagePin
  dsimp only
  split
  · exact sound_setResult h
  · split
    · exact sound_setResult h
    · split
      · exact sound_queuePages (sound_setCmd (sound_foldl (fun _ _ hx => sound_pinEntry hx) h))
      · exact sound_setResult (sound_foldl (fun _ _ hx => sound_pinEntry hx) h)

/-! ### Attend -/

theorem sound_writeToken {home : PageHome} {j : Nat} {bits : List Nat} (h : Sound P s) : Sound P (writeToken s cx K home j bits) := by
  unfold writeToken
  dsimp only
  refine sound_foldl (fun x a hx => ?_) h
  refine sound_foldl (fun x a hx => ?_) hx
  split
  · next hcall => exact sound_physStore hcall hx
  · exact hx

theorem sound_releaseAppends {appends : List Append} (h : Sound P s) : Sound P (releaseAppends s p appends) :=
  sound_foldl (fun _ _ hx => sound_setPool hx) h

theorem sound_clearBusy (h : Sound P s) : Sound P (clearBusy s p k) := sound_setPool h

theorem sound_andThen {x : Kv} {f : Kv → Kv} (h : Sound P x.s) (hf : Sound P (f x).s) : Sound P (x.andThen f).s := by
  unfold Kv.andThen
  split
  · exact h
  · exact hf

theorem sound_rebuildPage {idx : Nat} {x : Kv} (h : Sound P x.s) : Sound P (rebuildPage cx stream idx id x).1.s := by
  unfold rebuildPage
  split
  · exact h
  · split
    · exact h
    · dsimp only
      split
      · exact h
      · split
        · exact h
        · next htake =>
          have hs := sound_useRegion (p := cx.p) (addr := srcAddr ‹Pool› id) (n := srcBytes ‹Pool›) (sound_takeSlot htake h)
          split
          · exact sound_setPage hs
          · dsimp only
            refine sound_poolCount (sound_setPage ?_)
            split
            · next hw => exact sound_writeRegion hw (sound_takeFree rfl hs)
            · exact sound_takeFree rfl hs

theorem sound_presentPage {idx : Nat} {x : Kv} (h : Sound P x.s) : Sound P (presentPage cx stream idx id x).1.s := by
  unfold presentPage
  split
  · exact h
  · split
    · exact h
    · dsimp only
      have hx : ∀ {y : Kv × List Byte}, Sound P y.1.s → Sound P (y.1.andThen fun z =>
          { z with s := setPage z.s cx.p cx.k id fun r => { r with busy := true, lastUse := cx.us } }).s :=
        fun hy => sound_andThen hy (sound_setPage hy)
      refine hx ?_
      split
      · exact sound_rebuildPage h
      · split
        · exact sound_useRegion h
        · exact sound_rebuildPage (sound_dropPage (sound_useRegion h))

theorem sound_allocPage {x y : Kv} (he : allocPage cx x = some (id, y)) (h : Sound P x.s) : Sound P y.s := by
  unfold allocPage at he
  split at he
  · cases he
  · split at he
    · next htake => cases he; exact sound_setPool (sound_takeSlot htake h)
    · cases he

theorem sound_copyPage {idx : Nat} {e : DirEntry} {pb : List Byte} {x : Kv} (h : Sound P x.s) : Sound P (copyPage cx stream idx e pb x).s := by
  unfold copyPage
  split
  · exact h
  · next halloc =>
    have hy := sound_allocPage halloc h
    split
    · exact hy
    · split
      · dsimp only
        refine sound_poolCount (sound_setKv (sound_unref (sound_setPage ?_)))
        have hslot : ∀ {z : State} {a : Nat → Nat}, Sound P z → Sound P
          (match writeRegion z cx.p ownerless a pb with | .ok u => u | .error _ => z) :=
          fun hz => by
            split
            · next hw => exact sound_writeRegion hw hz
            · exact hz
        split
        · split
          · next hw => exact sound_writeRegion hw (hslot (sound_useRegion hy))
          · exact hslot (sound_useRegion hy)
        · exact sound_setPage (hslot (sound_useRegion hy))
      · exact hy

theorem sound_pageForAppend {idx : Nat} {fresh : List (Nat × Nat)} {x : Kv} (h : Sound P x.s) :
    Sound P (pageForAppend cx stream idx fresh x).1.s := by
  unfold pageForAppend
  split
  · exact h
  · split
    · split
      · next halloc => exact sound_allocPage halloc h
      · exact h
    · split
      · exact h
      · next e _ _ _ _ =>
        dsimp only
        have hpage (c : Bool) : Sound P (if c then presentPage cx stream idx e.page x else (x, [])).1.s := by
          split
          · exact sound_presentPage h
          · exact h
        split
        · exact hpage _
        · dsimp only
          split
          · exact sound_copyPage (hpage _)
          · exact hpage _

theorem sound_appendToken {r p0 : Nat} {acc : Kv × List (Nat × Nat)} (h : Sound P acc.1.s) : Sound P (appendToken cx r stream p0 acc i).1.s := by
  unfold appendToken
  dsimp only
  split
  · exact h
  · have hp := sound_pageForAppend (cx := cx) (stream := stream) (idx := (p0 + i) / 16) (fresh := acc.2) h
    split
    · next he =>
      rw [he] at hp
      exact hp
    · next he =>
      rw [he] at hp
      split
      · exact hp
      · split
        · refine sound_setPage ?_
          split
          · exact sound_setPage (sound_writeToken hp)
          · next hw => exact sound_writeRegion hw (sound_writeToken hp)
        · exact hp
        · exact hp

theorem sound_appendStream {x : Kv} {r : Nat} (h : Sound P x.s) : Sound P (appendStream cx x r stream).s := by
  unfold appendStream
  refine sound_andThen h ?_
  dsimp only
  split
  · exact h
  · exact sound_foldOf (fun y : Kv × List (Nat × Nat) => y.1.s) (fun _ _ hy => sound_appendToken hy) h

theorem sound_attendStream {acc : Kv × List OutRow} {r : Nat} (h : Sound P acc.1.s) : Sound P (attendStream cx acc r stream).1.s := by
  unfold attendStream
  dsimp only
  split
  · generalize hx : List.foldl _ (acc.1, []) _ = x
    have hfold : Sound P x.1.s := hx ▸ sound_foldOf (fun y : Kv × List (Nat × List Byte) => y.1.s) (fun y idx hy => by
      split
      · exact sound_presentPage hy
      · exact hy) h
    split
    · split
      · exact hfold
      · exact hfold
    · exact hfold
  · exact h

theorem sound_computeAttend (h : Sound P s) : Sound P (computeAttend s q) := by
  unfold computeAttend
  dsimp only
  split
  · exact h
  · split
    · exact h
    · split
      · exact sound_endEarly h
      · exact sound_endEarly h
      · generalize hx : List.foldl _ (List.foldl _ _ _, []) _ = x
        have hfold : Sound P x.1.s := hx ▸ sound_foldOf (fun y : Kv × List OutRow => y.1.s) (fun _ _ hy => sound_attendStream hy)
          (sound_foldOf Kv.s (fun _ _ hy => sound_appendStream hy) h)
        have hend := sound_setCmd (q := q) (f := id) hfold
        split
        · split
          · exact sound_setCmd h
          · exact sound_endEarly (sound_ite (sound_poolCount (sound_setCmd hfold)) (sound_setCmd hfold))
        · split
          · exact sound_endEarly (sound_ite (sound_poolCount (sound_setCmd hfold)) (sound_setCmd hfold))
          · next hstore => exact sound_setResult (sound_storeAll hstore (sound_setCmd hfold))

theorem sound_commitAttend {ok : Bool} (h : Sound P s) : Sound P (commitAttend s p c ok) := by
  unfold commitAttend
  dsimp only
  split
  · exact sound_releaseAppends (sound_clearBusy h)
  · refine sound_foldl (fun x a hx => ?_) (sound_clearBusy h)
    split
    · refine sound_poolCount ?_
      refine sound_foldl (fun x a hx => ?_) (sound_setStream (sound_setPool hx))
      split
      · exact sound_setPage hx
      · exact hx
    · exact hx

theorem sound_startAttend (h : Sound P s) : Sound P (startAttend s q Q c) := by
  unfold startAttend
  dsimp only
  split
  · exact sound_gated (sound_setCmd (sound_openWork h)) (fun _ hx => sound_computeAttend hx)
  · exact h

/-! ### Transitions -/

theorem sound_loadImage (h : Sound P s) : Sound P (loadImage s st bs) := sound_foldOf Prod.fst (fun _ _ hy => sound_writeState hy) h

theorem sound_useImage (h : Sound P s) : Sound P (useImage s st) := sound_ite (sound_useLines h) h

theorem sound_freeImage (h : Sound P s) : Sound P (freeImage s id) := by
  unfold freeImage
  split
  · exact h
  · split
    · exact h
    · exact sound_setStream (sound_uncharge h)

theorem sound_reserveImage {rs : List Record} {r0 : Nat} {r1 : List Nat} (he : reserveImage s p q rs = some (r0, (r1, t))) (h : Sound P s) :
    Sound P t := by
  unfold reserveImage at he
  split at he
  · cases he
  · split at he
    · cases he
    · cases he
      exact sound_setCmd (sound_charge h)

theorem sound_reserveImages : ∀ {rss : List (List Record)} {s : State} {r0 : List (Nat × List Nat)} {t : State}, reserveImages s p q rss = some
    (r0, t) → Sound P s → Sound P t
  | [], _, _, _, he, h => by cases he; exact h
  | _ :: _, _, _, _, he, h => by
    unfold reserveImages at he
    split at he
    · cases he
    · next hcall1 =>
      split at he
      · cases he
      · next hcall2 => cases he; exact sound_reserveImages hcall2 (sound_reserveImage hcall1 h)

theorem sound_dropReservation {frames : List Nat} (h : Sound P s) : Sound P (dropReservation s p q units frames) :=
  sound_setCmd (sound_uncharge h)

theorem sound_claimImage {frames : List Nat} {rs : List Record} {r0 : Option (List Nat)} (he : claimImage s p q units frames rs = (r0, t))
    (h : Sound P s) : Sound P t := by
  unfold claimImage at he
  dsimp only at he
  split at he
  · cases he
    exact sound_charge (sound_dropReservation h)
  · split at he
    · cases he
      exact sound_dropReservation h
    · split at he
      · cases he
        exact sound_dropReservation h
      · cases he
        exact sound_charge (sound_dropReservation h)

theorem sound_enterState {gs : List Nat} (h : Sound P s) : Sound P (enterState s gs) := sound_foldl (fun _ _ hx => sound_setSlot hx) h

theorem sound_leaveState {gs : List Nat} (h : Sound P s) : Sound P (leaveState s gs) :=
  sound_foldl (fun _ _ hx => sound_ite hx (sound_setSlot hx)) h

theorem sound_joinCohort (he : joinCohort s id = some t) (h : Sound P s) : Sound P t := by
  unfold joinCohort at he
  split at he
  · cases he
  · dsimp only at he
    split at he
    · obtain ⟨row, _, rfl⟩ := Option.map_eq_some_iff.1 he
      exact sound_setStream (sound_same h rfl rfl rfl rfl)
    · split at he
      · cases he
        exact sound_setStream (sound_same (sound_enterState h) rfl rfl rfl rfl)
      · cases he

theorem sound_releaseRow {row : Nat} (h : Sound P s) : Sound P (releaseRow s n row id) := by
  unfold releaseRow
  dsimp only
  split
  · exact h
  · split
    · exact h
    · split
      · exact sound_leaveState (sound_same h rfl rfl rfl rfl)
      · exact sound_same h rfl rfl rfl rfl

theorem sound_leaveCohort (h : Sound P s) : Sound P (leaveCohort s id) := by
  unfold leaveCohort
  split
  · exact h
  · split
    · exact h
    · exact sound_releaseRow (sound_setStream h)

theorem sound_storeParked {frames : List Nat} (h : Sound P s) : Sound P (storeParked s q id frames bs) := by
  unfold storeParked
  dsimp only
  split
  · exact h
  · refine sound_setStream ?_
    split
    · next hcall => exact sound_physStore hcall h
    · exact h

theorem sound_toParked {frames : List Nat} (h : Sound P s) : Sound P (toParked s q id frames) := by
  unfold toParked
  split
  · exact h
  · exact sound_storeParked (sound_leaveCohort h)

theorem sound_toLost (h : Sound P s) : Sound P (toLost s id) := sound_setStream (sound_freeImage (sound_leaveCohort h))

theorem sound_loseImage {f : Fail} (h : Sound P s) : Sound P (loseImage s id f) := sound_setStream (sound_toLost h)

theorem sound_toResident {r0 : Option Fail} (he : toResident s id = (r0, t)) (h : Sound P s) : Sound P t := by
  unfold toResident at he
  dsimp only at he
  split at he
  · cases he
    exact h
  · split at he
    · cases he
      exact h
    · next hcall =>
        split at he
        · cases he
          exact sound_loseImage (sound_useImage h)
        · split at he
          · cases he
            exact sound_loadImage (sound_setStream (sound_freeImage (sound_joinCohort hcall (sound_useImage h))))
          · cases he
            exact sound_setStream (sound_freeImage (sound_joinCohort hcall (sound_useImage h)))

theorem sound_retireStream (h : Sound P s) : Sound P (retireStream s id) :=
  sound_setStream (sound_releaseKv (sound_freeImage (sound_leaveCohort h)))

theorem sound_boundaryMove {m : BMove} {r0 : Status} (he : boundaryMove s p q m = (r0, t)) (h : Sound P s) : Sound P t := by
  unfold boundaryMove at he
  dsimp only at he
  split at he
  · cases he
    exact sound_dropReservation h
  · split at he
    · split at he
      · split at he
        · next hcall1 =>
            cases he
            exact sound_setStream (sound_toParked (sound_claimImage hcall1 h))
        · next hcall2 =>
            cases he
            exact sound_claimImage hcall2 h
      · cases he
        exact sound_dropReservation h
    · split at he
      · split at he
        · split at he
          · next hcall3 =>
              cases he
              exact sound_setStream (sound_toResident hcall3 h)
          · next hcall4 =>
              cases he
              exact sound_toResident hcall4 h
        · cases he
          exact sound_dropReservation h
      · split at he
        · cases he
          exact sound_setStream (sound_retireStream h)
        · cases he
          exact sound_dropReservation h

theorem sound_deferMove {m : BMove} (h : Sound P s) : Sound P (deferMove s p q m) := sound_setPart (sound_setCmd h)

theorem sound_runDeferred (h : Sound P s) : Sound P (runDeferred s p) :=
  sound_foldl (fun _ _ hx => sound_ite hx (sound_boundaryMove rfl (sound_setPart hx))) h

theorem sound_putStream (h : Sound P s) : Sound P (putStream s id st) := sound_same h rfl rfl rfl rfl

theorem sound_restoreStream {prior : Option Stream} (h : Sound P s) : Sound P (restoreStream s id prior) := by
  unfold restoreStream
  split
  · exact sound_putStream h
  · exact sound_same h rfl rfl rfl rfl

theorem sound_undoChild {prior : Option Stream} (h : Sound P s) : Sound P (undoChild s id prior) :=
  sound_restoreStream (sound_releaseKv (sound_freeImage (sound_leaveCohort h)))

theorem sound_undoPark {prior : Stream} (h : Sound P s) : Sound P (undoPark s id prior) := by
  unfold undoPark
  split
  · exact h
  · split
    · exact sound_putStream (sound_freeImage h)
    · exact h

theorem sound_keepImage (h : Sound P s) : Sound P (keepImage s q st) := sound_setCmd (sound_charge h)

theorem sound_undoResume {prior : Stream} (h : Sound P s) : Sound P (undoResume s q id prior) := by
  unfold undoResume
  dsimp only
  split
  · exact h
  · split
    · exact h
    · exact sound_setCmd (sound_putStream (sound_leaveCohort h))

theorem sound_releaseRows (h : Sound P s) : Sound P (releaseRows s c) := by
  unfold releaseRows
  dsimp only
  split
  · refine sound_foldl (fun _ _ hx => ?_) h
    split
    · split
      · exact hx
      · exact sound_releaseRow hx
    · exact sound_releaseRow hx
    · exact hx
  · exact h

theorem sound_undoStreams (h : Sound P s) : Sound P (undoStreams s q c) := by
  unfold undoStreams
  dsimp only
  refine sound_foldl (fun _ _ hx => ?_) h
  split
  · exact sound_undoPark hx
  · exact sound_undoResume hx
  · exact sound_undoChild hx

end

end Sys2Proof.Machine
end

section
/-! INVARIANT (continued). One lemma a function, in the order of the model. -/

namespace Sys2Proof.Machine

section
variable {P : Kept} {s t s0 : State} {p q e id slot fn key n i d units addr k stream m size off session : Nat} {harrow doe i3c : Bool}
variable {a : Asked} {r : Result} {st : Stream} {c : Cmd} {Q : Queue} {w : WordWrite} {cx : AttendCtx} {K : Pool} {bs : List Byte}

/-! ### Commit -/

theorem sound_writeRecord (h : Sound P s) : Sound P (writeRecord s q Q c r) := by
  unfold writeRecord
  dsimp only
  split
  · split
    · next hcall => exact sound_storeOnce hcall h
    · exact h
  · exact h

theorem sound_signalOf (h : Sound P s) : Sound P (signalOf s p c r) := sound_ite (sound_signalCore h) h

theorem sound_irqOf (h : Sound P s) : Sound P (irqOf s Q c) := sound_ite (sound_raiseMsix h) h

theorem sound_settleWcb {r0 : Result} (he : settleWcb s q r = (t, r0)) (h : Sound P s) : Sound P t := by
  unfold settleWcb at he
  dsimp only at he
  split at he
  · cases he
    exact sound_drainWhere h
  · split at he
    · split at he
      · cases he
        exact sound_drainWhere (sound_havoc (sound_drainWhere h))
      · cases he
        exact sound_drainWhere h
    · cases he
      exact sound_drainWhere h

theorem sound_settleHeld (h : Sound P s) : Sound P (settleHeld s q c r) := sound_ite (sound_ite h (sound_releaseHeld h)) h

theorem sound_setChannel {f : Channel → Channel} (h : Sound P s) : Sound P (setChannel s n f) := sound_same h rfl rfl (by simp [sizes]) rfl

theorem sound_finishDesc (h : Sound P s) : Sound P (finishDesc s q) := by
  unfold finishDesc
  split
  · exact h
  · dsimp only
    split
    · next he =>
      refine sound_setCmd ?_
      split at he
      · cases he; exact h
      · exact sound_storeBytes he h
    · exact sound_endEarly h

theorem sound_leaveChannel (h : Sound P s) : Sound P (leaveChannel s q Q c r) := sound_ite (sound_setChannel h) h

theorem sound_leaveNet (h : Sound P s) : Sound P (leaveNet s q Q) := sound_ite (sound_setPart (sound_same h rfl rfl rfl rfl)) h

theorem sound_leaveTakers (h : Sound P s) : Sound P (leaveTakers s q) := by
  unfold leaveTakers
  dsimp only
  exact sound_field h rfl rfl rfl (fun ⟨he, hh, ha, ht, hs⟩ => ⟨(by simpa using he), (by simpa using hh), ha, ht, hs⟩)

theorem sound_giveBack (h : Sound P s) : Sound P (giveBack s q Q c r) :=
  sound_leaveNet (sound_leaveChannel (sound_uncharge (sound_setReaders (sound_ite (sound_leaveTakers h) h))))

theorem sound_undefNamed (h : Sound P s) : Sound P (undefNamed s p c r) := by
  unfold undefNamed
  split
  · refine sound_foldl (fun _ _ hx => ?_) h
    split
    · split
      · exact hx
      · exact sound_markUndef hx
    · exact hx
  · exact h

theorem sound_setWin {w : Nat} {f : Window → Window} (h : Sound P s) : Sound P (setWin s p w f) := sound_setPart h

theorem sound_settleFill (h : Sound P s) : Sound P (settleFill s p c r) := by
  unfold settleFill
  dsimp only
  split
  · split
    · exact h
    · exact sound_setPartMem (sound_ite (sound_setWin h) h)
  · exact h

theorem sound_atCommit (h : Sound P s) : Sound P (atCommit s p c r) :=
  sound_ite (sound_ite (sound_commitSeedSet h) h) (sound_ite (sound_commitAttend h) (sound_ite (sound_settleFill h) h))

theorem sound_countEnded {st : Status} (h : Sound P s) : Sound P (countEnded s p st) := by
  unfold countEnded
  dsimp only
  split
  · exact sound_setPartMem h
  · exact sound_setPartMem h
  · exact sound_same h rfl rfl rfl rfl
  · exact sound_same h rfl rfl rfl rfl
  · exact h

theorem sound_commitBase (h : Sound P s) : Sound P (commitBase s q) := by
  unfold commitBase
  dsimp only
  split
  · split
    · exact sound_settleWcb rfl h
    · exact sound_runDeferred (sound_ite (sound_raiseEvent (sound_irqOf (sound_signalOf (sound_writeRecord (sound_atCommit (sound_countEnded
        (sound_setQueue (sound_giveBack (sound_releaseRows (sound_undefNamed (sound_settleHeld (sound_settleWcb rfl h)))))))))))) (sound_irqOf
        (sound_signalOf (sound_writeRecord (sound_atCommit (sound_countEnded (sound_setQueue (sound_giveBack (sound_releaseRows (sound_undefNamed
        (sound_settleHeld (sound_settleWcb rfl h))))))))))))
  · exact h

theorem sound_closeSwath (h : Sound P s) : Sound P (closeSwath s p q) := sound_setPart h

theorem sound_undefDirty {ids : List Nat} (h : Sound P s) : Sound P (undefDirty s ids) := by
  unfold undefDirty
  refine sound_foldl (fun _ _ hx => ?_) h
  split
  · split
    · exact sound_markUndef hx
    · exact hx
  · exact hx

theorem sound_stopSwath {w : Swath} (h : Sound P s) : Sound P (stopSwath s p w r) := sound_setResult (sound_undefDirty (sound_closeSwath h))

theorem sound_runMoves : ∀ {ms : List BMove} {s : State} {r0 : List Status} {t : State}, runMoves s p q ms = (r0, t) → Sound P s → Sound P t
  | [], _, _, _, he, h => by cases he; exact h
  | m :: _, s, _, _, he, h => by
    have hstep : Sound P (if moveBlocked s p m && moveAccepted s m then (Status.completed, deferMove s p q m) else boundaryMove s p q m).2 := by
      split
      · exact sound_deferMove h
      · exact sound_boundaryMove rfl h
    exact sound_of_pair he (sound_runMoves (s := (if _ then _ else _ : Status × State).2) rfl hstep)

theorem sound_countStep {late : Option Nat} {failed : Nat} (h : Sound P s) : Sound P (countStep s p late failed) := sound_setPart h

theorem sound_commitSwath {w : Swath} {late : Option Nat} (h : Sound P s) : Sound P (commitSwath s p w late) := by
  unfold commitSwath
  dsimp only
  split
  · exact sound_commitBase (sound_setResult (sound_countStep (sound_runMoves rfl (sound_foldl (fun _ _ hx => sound_setStream hx)
      (sound_closeSwath h)))))
  · next hcall => exact sound_commitBase (sound_setResult (sound_storeOnce hcall (sound_countStep (sound_runMoves rfl (sound_foldl (fun _ _ hx =>
      sound_setStream hx) (sound_closeSwath h))))))

theorem sound_settleOne (h : Sound P s) : Sound P (settleOne s) := by
  unfold settleOne
  dsimp only
  split
  · exact h
  · split
    · exact sound_commitBase (sound_stopSwath h)
    · split
      · exact sound_commitSwath h
      · exact sound_setPart h

theorem sound_settleSwaths : ∀ {n : Nat} {s : State}, Sound P s → Sound P (settleSwaths n s)
  | 0, _, h => h
  | n + 1, _, h => sound_settleSwaths (n := n) (sound_settleOne h)

theorem sound_settled (h : Sound P s) : Sound P (settled s) := sound_settleSwaths h

theorem sound_commitQueue (h : Sound P s) : Sound P (commitQueue s q) := sound_settled (sound_commitBase h)

theorem sound_signalFence {f v : Nat} {err : Bool} (h : Sound P s) : Sound P (signalFence s p f v err) := sound_settled (sound_signalCore h)

theorem sound_discardItems (h : Sound P s) : Sound P (discardItems s q) := by
  unfold discardItems
  refine sound_setQueue (sound_field (sound_takeFree rfl h) rfl rfl rfl fun ⟨he, hh, ha, ht, hs⟩ => ⟨?_, ?_, ha, ht, hs⟩)
  · simpa using he
  · simpa using hh

theorem sound_dropMoves (h : Sound P s) : Sound P (dropMoves s q) := sound_mem h rfl rfl rfl id

theorem sound_stopEffects (h : Sound P s) : Sound P (stopEffects s q c) := by
  unfold stopEffects
  dsimp only
  refine sound_havoc ?_
  split
  · refine sound_undoStreams ?_
    split
    · refine sound_foldl (fun _ _ hx => sound_markUndef hx) ?_
      refine sound_discardItems ?_
      split
      · exact sound_setCmd (sound_ite h (sound_stallTime h))
      · exact h
    · refine sound_discardItems ?_
      split
      · exact sound_setCmd (sound_ite h (sound_stallTime h))
      · exact h
  · split
    · refine sound_foldl (fun _ _ hx => sound_markUndef hx) ?_
      refine sound_discardItems ?_
      split
      · exact sound_setCmd (sound_ite h (sound_stallTime h))
      · exact h
    · refine sound_discardItems ?_
      split
      · exact sound_setCmd (sound_ite h (sound_stallTime h))
      · exact h

theorem sound_stopCmd {st : Status} {a : Nat} (hs0 : Sound P s0) : Sound P (stopCmd s0 q st a) := by
  unfold stopCmd
  dsimp only
  split
  · exact sound_finishDesc hs0
  · split
    · exact sound_finishDesc hs0
    · split
      · exact sound_stopSwath (sound_finishDesc hs0)
      · split
        · exact sound_setCmd (sound_dropMoves (sound_finishDesc hs0))
        · exact sound_setResult (sound_ite (sound_stopEffects (sound_dropMoves (sound_finishDesc hs0))) (sound_dropMoves (sound_finishDesc hs0)))

theorem sound_endRange {first last : Nat} {st : Status} {r0 : Nat} (he : endRange s q first last st = (r0, t)) (h : Sound P s) : Sound P t := by
  refine sound_of_pair he ?_
  unfold endRange
  refine sound_setQueue ?_
  split
  · exact sound_stopCmd h
  · exact h

theorem sound_abortRange {first last : Nat} {r0 : Status} {r1 : Nat} (he : abortRange s q first last = (r0, (r1, t))) (h : Sound P s) :
    Sound P t := by
  unfold abortRange at he
  dsimp only at he
  split at he
  · cases he
    exact h
  · split at he
    · cases he
      exact sound_endRange rfl h
    · cases he
      exact sound_endRange rfl h

theorem sound_abandonSwath {w : Swath} (h : Sound P s) : Sound P (abandonSwath s p w) :=
  sound_foldl (fun _ _ hx => sound_ite (sound_endRange rfl hx) hx) (sound_commitBase (sound_stopSwath (sound_setPart h)))

theorem sound_arriveSwath {j : Nat} {e : Nat × Nat × Bool} (h : Sound P s) : Sound P (arriveSwath j s e) := by
  unfold arriveSwath
  dsimp only
  split
  · exact h
  · split
    · exact h
    · split
      · exact sound_commitSwath h
      · split
        · exact sound_abandonSwath h
        · exact sound_setPart h

theorem sound_latchSwaths {j : Nat} (h : Sound P s) : Sound P (latchSwaths s n j) :=
  sound_settled (sound_foldl (fun _ _ hx => sound_arriveSwath hx) h)

/-! ### Slew -/

theorem sound_setPwr {f : Power → Power} (h : Sound P s) : Sound P (setPwr s f) := sound_same h rfl rfl rfl rfl

theorem sound_leaveBallast {u : Nat} (h : Sound P s) : Sound P (leaveBallast s u) := by
  unfold leaveBallast
  dsimp only
  exact sound_setPwr h

theorem sound_drawUnit {u cur : Nat} (h : Sound P s) : Sound P (drawUnit s u cur) := sound_setPwr h

theorem sound_askStart {u cur : Nat} {r0 : Bool} (he : askStart s u cur = (r0, t)) (h : Sound P s) : Sound P t := by
  unfold askStart at he
  split at he
  · cases he
    exact sound_drawUnit h
  · split at he
    · cases he
      exact sound_drawUnit (sound_leaveBallast h)
    · split at he
      · cases he
        exact h
      · split at he
        · cases he
          exact sound_drawUnit (sound_setPwr h)
        · cases he
          exact sound_setPwr h

theorem sound_enterBallast {u : Nat} (h : Sound P s) : Sound P (enterBallast s u) := by
  unfold enterBallast
  split
  · exact sound_setPwr h
  · exact h

theorem sound_releaseBallast : ∀ {n : Nat} {s : State}, Sound P s → Sound P (releaseBallast n s)
  | 0, _, h => h
  | _ + 1, _, h => by
    unfold releaseBallast
    split
    · exact h
    · split
      · exact sound_releaseBallast (sound_setPwr (sound_leaveBallast h))
      · exact h

/-! ### Steps -/

theorem sound_stageTile {f j : Nat} (h : Sound P s) : Sound P (stageTile q f s j) := by
  unfold stageTile
  dsimp only
  split
  · exact h
  · exact sound_setCmd (sound_setCounts h)

theorem sound_takeSource {src : Source} (h : Sound P s) : Sound P (takeSource s i q src) := by
  unfold takeSource
  dsimp only
  split
  · exact sound_setCmd h
  · exact sound_setQueue h
  · exact sound_setQueue h

theorem sound_takeSlots {w : Work} {tiles : List Nat} (h : Sound P s) : Sound P (takeSlots s e q w tiles) :=
  sound_ite (sound_setEngine h) (sound_foldl (fun _ _ hx => sound_setSlot hx) h)

theorem sound_spillItem {x : Nat} {w : Work} {tiles : List Nat} (h : Sound P s) : Sound P (spillItem s e q x w tiles) := by
  unfold spillItem
  split
  · exact h
  · exact sound_setCmd (sound_setCounts h)

theorem sound_loadOperands (h : Sound P s) : Sound P (loadOperands s e) := sound_setEngine (sound_takeFree rfl h)

theorem sound_completeHarrow {f : Nat} (h : Sound P s) : Sound P (completeHarrow s f) := by
  unfold completeHarrow
  dsimp only
  split
  · exact h
  · split
    · exact sound_setQueue (sound_setCmd (sound_setHarrow h))
    · exact sound_setCmd (sound_setHarrow h)

theorem sound_takeItem {fb : Bool} (h : Sound P s) : Sound P (takeItem s harrow i q fb) := by
  unfold takeItem
  dsimp only
  split
  · exact h
  · split
    · exact sound_setHarrow (sound_ite (sound_takeSource h) (sound_foldl (fun _ _ hx => sound_stageTile hx) (sound_takeSource h)))
    · exact sound_setEngine (sound_loadOperands (sound_takeSlots (sound_spillItem (sound_ite (sound_takeSource h) (sound_foldl (fun _ _ hx =>
        sound_stageTile hx) (sound_takeSource h))))))

theorem sound_idleTaker (h : Sound P s) : Sound P (idleTaker s harrow i) := sound_enterBallast (sound_ite (sound_setHarrow h) (sound_setEngine h))

theorem sound_startItem {fb : Bool} (h : Sound P s) : Sound P (startItem s harrow i q fb) := by
  unfold startItem
  split
  · next hcall1 => exact sound_takeItem (sound_askStart hcall1 h)
  · next hcall2 => exact sound_askStart hcall2 h

theorem sound_workItemTake (h : Sound P s) : Sound P (workItemTake s harrow i) := by
  unfold workItemTake
  dsimp only
  split
  · exact h
  · split
    · split
      · exact sound_completeHarrow h
      · split
        · exact sound_startItem (sound_completeHarrow h)
        · split
          · exact sound_idleTaker (sound_completeHarrow h)
          · exact sound_completeHarrow h
    · split
      · exact h
      · split
        · exact sound_startItem h
        · split
          · exact sound_idleTaker h
          · exact h

theorem sound_dropTile {j : Nat} (h : Sound P s) : Sound P (dropTile s e q j) := sound_setEngine h

theorem sound_leaveSlots {j : Nat} {holds : Bool} (h : Sound P s) : Sound P (leaveSlots s e q j holds) := sound_setEngine (sound_setCmd h)

theorem sound_countWritten (h : Sound P s) : Sound P (countWritten s q n) := sound_setCmd h

theorem sound_tileDrain (h : Sound P s) : Sound P (tileDrain s e) := by
  unfold tileDrain
  dsimp only
  split
  · exact h
  · split
    · exact h
    · split
      · exact h
      · split
        · exact h
        · split
          · exact sound_countWritten (sound_leaveSlots (sound_dropTile (sound_setCmd h)))
          · split
            · exact h
            · exact sound_countWritten (sound_leaveSlots (sound_dropTile (sound_setCmd (sound_setHarrow h))))

theorem sound_splitkArrival (h : Sound P s) : Sound P (splitkArrival s e) := by
  unfold splitkArrival
  dsimp only
  split
  · exact h
  · split
    · exact h
    · split
      · exact h
      · split
        · exact h
        · split
          · exact sound_leaveSlots (sound_dropTile (sound_setCmd h))
          · exact sound_setCmd h

theorem sound_writeReduced {rows : Except Fail (List OutRow)} (h : Sound P s) : Sound P (writeReduced s q p c rows) := by
  unfold writeReduced
  dsimp only
  split
  · exact sound_endEarly (sound_discardItems h)
  · split
    · exact sound_endEarly (sound_discardItems h)
    · next hcall => exact sound_setQueue (sound_storeAll hcall h)

theorem sound_splitkReduce {j : Nat} (h : Sound P s) : Sound P (splitkReduce s q j) := by
  unfold splitkReduce
  dsimp only
  split
  · exact h
  · split
    · exact h
    · split
      · exact h
      · split
        · exact h
        · exact sound_writeReduced (sound_countWritten (sound_leaveSlots (sound_dropTile (sound_setCounts (sound_setCmd h)))))

theorem sound_scanPhase2 {pair : Nat} (h : Sound P s) : Sound P (scanPhase2 s q pair) := by
  unfold scanPhase2
  dsimp only
  split
  · exact h
  · split
    · exact h
    · exact sound_setQueue h

/-! ### Queues -/

theorem sound_rejectDoorbell (h : Sound P s) : Sound P (rejectDoorbell s p) := sound_setPart h

theorem sound_doorbellWrite {from_ : Sender} {val : Nat} (h : Sound P s) : Sound P (doorbellWrite s from_ q size val) := by
  unfold doorbellWrite
  dsimp only
  split
  · exact h
  · split
    · exact sound_rejectDoorbell h
    · exact sound_setQueue h

theorem sound_fenceWrite {val : Nat} (h : Sound P s) : Sound P (fenceWrite s fn off size val) := by
  unfold fenceWrite
  split
  · exact h
  · split
    · exact sound_signalFence h
    · exact h

theorem sound_ringFault {f : Fail} {op : Nat} (h : Sound P s) : Sound P (ringFault s q f op) :=
  sound_raiseEvent (sound_countEnded (sound_setQueue h))

theorem sound_accept {j body : Nat} (h : Sound P s) : Sound P (accept s q j body) := by
  unfold accept
  dsimp only
  split
  · exact sound_setQueue h
  · exact sound_setQueue h
  · exact sound_setQueue h

theorem sound_useRing {r0 : Option Fail} (he : useRing s Q n = (r0, t)) (h : Sound P s) : Sound P t := sound_hostFires he (sound_useReads h)

theorem sound_queueFetch (h : Sound P s) : Sound P (queueFetch s q) := by
  unfold queueFetch
  dsimp only
  split
  · exact h
  · split
    · exact sound_ringFault h
    · split
      · exact h
      · split
        · exact sound_ringFault (sound_useRing rfl h)
        · exact sound_ringFault (sound_useRing rfl h)
        · exact sound_ringFault (sound_useRing rfl h)
        · exact sound_accept (sound_useRing rfl h)

theorem sound_effectDone {Q : Queue} {c : Cmd} (h : Sound P s) : Sound P (effectDone s q Q c) := sound_setResult h

theorem sound_effectFenceReset (h : Sound P s) : Sound P (effectFenceReset s q Q c) := sound_setResult (sound_setPart h)

theorem sound_timestamp (h : Sound P s) : Sound P (timestamp s q) := by
  unfold timestamp
  split
  · exact h
  · exact sound_commitQueue (sound_runCommand h (fun _ _ _ hx => sound_effectDone hx))

/-! ### Blobs -/

theorem sound_useEntry {g : Page} (h : Sound P s) : Sound P (useEntry s p K id g) :=
  sound_ite (sound_ite (sound_useRegion h) h) (sound_useRegion (sound_ite (sound_useRegion h) h))

theorem sound_noteErrors {dropped lost : Bool} (h : Sound P s) : Sound P (noteErrors s p k id dropped lost) :=
  sound_ite (sound_dropPage (sound_ite (sound_setPage h) h)) (sound_ite (sound_setPage h) h)

theorem sound_kvSection {r0 : List Byte} (he : kvSection s st = (r0, t)) (h : Sound P s) : Sound P t := by
  refine sound_of_pair he ?_
  unfold kvSection
  split
  · exact h
  · split
    · exact h
    · exact sound_foldOf Prod.snd (fun _ _ hy => sound_noteErrors (sound_useEntry hy)) h

theorem sound_sealStream {withKv : Bool} {r0 : List Byte} (he : sealStream s id st key withKv = .ok (r0, t)) (h : Sound P s) : Sound P t := by
  have hkv : Sound P (if withKv then kvSection s st else ([], s)).2 := by
    split
    · exact sound_kvSection rfl h
    · exact h
  unfold sealStream at he
  split at he
  · cases he
  · exact sound_of_pair (Except.ok.inj he) (sound_injected rfl (sound_takeFree rfl hkv))

theorem sound_takeKey (h : Sound P s) : Sound P (takeKey s q slot) := sound_setCmd h

theorem sound_exported {len : Nat} {keep : Bool} (h : Sound P s) : Sound P (exported s id addr len keep) :=
  sound_ite (sound_setStream h) (sound_setStream (sound_freeImage (sound_leaveCohort h)))

theorem sound_installHome {g : KvPage} {r0 : PageHome} (he : installHome s p k K g = some (r0, t)) (h : Sound P s) : Sound P t := by
  unfold installHome at he
  split at he
  · cases he
    exact h
  · split at he
    · next hcall =>
        cases he
        exact sound_takeSlot hcall h
    · split at he
      · cases he
      · split at he
        · cases he
          exact h
        · cases he
          exact h

theorem sound_installBytes {s : State} {p : Nat} {K : Pool} {home : PageHome} {bs : Option (List Byte)} (h : Sound P s) :
    Sound P (match bs, home with
      | some _, .dropped => s
      | some bs, h => (match writeRegion s p ownerless (slotAddr K h) bs with | .ok x => x | .error _ => s)
      | none, _ => s) := by
  split
  · exact h
  · split
    · next hw => exact sound_writeRegion hw h
    · exact h
  · exact h

theorem sound_installPage {g : KvPage} {r0 : Nat} (he : installPage s p k g = .ok (r0, t)) (h : Sound P s) : Sound P t := by
  unfold installPage at he
  split at he
  · cases he
  · split at he
    · cases he
    · cases he
    · next hhome =>
      refine sound_of_pair (Except.ok.inj he) ?_
      have hs := sound_installHome hhome h
      dsimp only
      split
      · split
        · next hw => exact sound_writeRegion hw (sound_installBytes (sound_setPool hs))
        · exact sound_installBytes (sound_setPool hs)
      · exact sound_installBytes (sound_setPool hs)

theorem sound_installPages : ∀ {gs : List KvPage} {s : State} {r0 : List (Nat × DirEntry)} {t : State}, installPages p k gs s = .ok (r0, t) →
    Sound P s → Sound P t
  | [], _, _, _, he, h => by cases he; exact h
  | _ :: _, _, _, _, he, h => by
    unfold installPages at he
    split at he
    · cases he
    · next hcall1 =>
      split at he
      · cases he
      · next hcall2 => cases he; exact sound_installPages hcall2 (sound_installPage hcall1 h)

theorem sound_installKv {kv : List Byte} {r0 : KvRoot} (he : installKv s p k K kv = .ok (r0, t)) (h : Sound P s) : Sound P t := by
  unfold installKv at he
  dsimp only at he
  split at he
  · cases he
  · split at he
    · cases he
    · next hcall =>
        cases he
        exact sound_installPages hcall (sound_setPool h)

/-! ### Streams -/

theorem sound_commitIfDone {now : Bool} (h : Sound P s) : Sound P (commitIfDone now s q) := sound_ite (sound_commitQueue h) h

theorem sound_streamEvent {op : Nat} {now : Bool} {checks : State → Queue → Cmd → List (Bool × Fail)} {start effect : State → Nat → Cmd → State}
    (h : Sound P s) (kstart : ∀ x q c, Sound P x → Sound P (start x q c)) (keffect : ∀ x q c, Sound P x → Sound P (effect x q c)) :
    Sound P (streamEvent s q op now checks start effect) := by
  unfold streamEvent
  dsimp only
  split
  · split
    · exact h
    · refine sound_runCommand h fun x a c hx => ?_
      have hgo := sound_setCmd (q := q) (f := fun y => { y with streams := streamNames op c }) (kstart x q c hx)
      split
      · exact sound_ite hgo (sound_commitIfDone (keffect _ _ _ hgo))
      · exact hgo
  · split
    · refine sound_ite ?_ h
      split
      · exact sound_ite h (sound_commitIfDone (keffect _ _ _ h))
      · exact h
    · exact h

theorem sound_noStart {j : Nat} {c : Cmd} (h : Sound P s) : Sound P (noStart s j c) := h

theorem sound_failCmd {f : Fail} (h : Sound P s) : Sound P (failCmd s q f) := sound_setResult h

theorem sound_startImages {imgs : List (List Record)} (h : Sound P s) : Sound P (startImages s q imgs) := by
  unfold startImages
  split
  · next hcall => exact sound_reserveImages hcall h
  · exact h

theorem sound_writeId (he : writeId s p q addr id = .ok t) (h : Sound P s) : Sound P t := by
  unfold writeId at he
  split at he
  · cases he
    exact h
  · exact sound_storeOnce he h

theorem sound_effectStreamCreate (h : Sound P s) : Sound P (effectStreamCreate s q c) := by
  unfold effectStreamCreate
  dsimp only
  split
  · split
    · next hcall => exact sound_setResult (sound_writeId hcall (sound_putStream h))
    · exact sound_failCmd h
  · exact sound_failCmd h

theorem sound_placeChild {parent : Stream} {bytes : List Byte} {parked : Bool} {frames : List Nat}
    (he : placeChild s p q parent bytes parked units frames id = .ok t) (h : Sound P s) : Sound P t := by
  unfold placeChild at he
  dsimp only at he
  split at he
  · split at he
    · cases he
    · next hcall1 =>
        split at he
        · cases he
        · next hcall2 =>
            cases he
            exact sound_setStream (sound_physStore hcall2 (sound_claimImage hcall1 h))
  · split at he
    · cases he
    · next hcall3 =>
        split at he
        · cases he
          exact sound_loadImage (sound_setStream (sound_joinCohort hcall3 h))
        · cases he
          exact sound_setStream (sound_joinCohort hcall3 h)

theorem sound_forkChild {pid : Nat} {parent : Stream} {bytes : List Byte} {frames : List Nat}
    (he : forkChild p q c pid parent bytes units frames s i id = .ok t) (h : Sound P s) : Sound P t := by
  unfold forkChild at he
  dsimp only at he
  split at he
  · cases he
  · split at he
    · cases he
    · next hcall =>
        cases he
        exact sound_shareKv (sound_placeChild hcall (sound_putStream h))

theorem sound_forkChildren {pid : Nat} {parent : Stream} {bytes : List Byte} {per : Nat} {frames : List Nat} : ∀ {ids : List Nat} {i : Nat}
    {s t : State}, forkChildren p q c pid parent bytes units per frames ids i s = .ok t → Sound P s → Sound P t
  | [], _, _, _, he, h => by cases he; exact h
  | _ :: _, _, _, _, he, h => by
    unfold forkChildren at he
    split at he
    · cases he
    · next hcall => exact sound_forkChildren he (sound_forkChild hcall h)

theorem sound_effectStreamFork (h : Sound P s) : Sound P (effectStreamFork s q c) := by
  unfold effectStreamFork
  dsimp only
  split
  · exact sound_failCmd h
  · split
    · exact sound_failCmd h
    · split
      · exact sound_failCmd h
      · split
        · exact sound_failCmd h
        · split
          · exact sound_failCmd (sound_useImage h)
          · split
            · exact sound_failCmd (sound_loseImage (sound_useImage h))
            · split
              · exact sound_failCmd (sound_useImage h)
              · next hcall1 =>
                  split
                  · exact sound_failCmd (sound_useImage h)
                  · next hcall2 => exact sound_setResult (sound_setCmd (sound_setStream (sound_storeOnce hcall2 (sound_forkChildren hcall1
                      (sound_useImage h)))))

theorem sound_effectStreamPark (h : Sound P s) : Sound P (effectStreamPark s q c) := by
  unfold effectStreamPark
  dsimp only
  split
  · exact sound_failCmd h
  · split
    · exact sound_failCmd h
    · split
      · exact sound_failCmd h
      · next hcall => exact sound_setResult (sound_setCmd (sound_setStream (sound_storeParked (sound_claimImage hcall h))))

theorem sound_effectStreamResume (h : Sound P s) : Sound P (effectStreamResume s q c) := by
  unfold effectStreamResume
  dsimp only
  split
  · exact sound_failCmd h
  · split
    · exact sound_failCmd h
    · split
      · next hcall1 => exact sound_failCmd (sound_toResident hcall1 (sound_ite (sound_keepImage h) h))
      · next hcall2 => exact sound_setResult (sound_setCmd (sound_setStream (sound_toResident hcall2 (sound_ite (sound_keepImage h) h))))

theorem sound_effectStreamRetire (h : Sound P s) : Sound P (effectStreamRetire s q c) := by
  unfold effectStreamRetire
  dsimp only
  split
  · exact sound_failCmd h
  · split
    · exact sound_failCmd h
    · exact sound_setResult (sound_setStream (sound_retireStream h))

theorem sound_writeBlob_state {key : Option Nat} {withKv : Bool} (h : Sound P s) : Sound P (writeBlob s p q id st key addr withKv).2 := by
  unfold writeBlob
  dsimp only
  split
  · exact sound_ite (sound_havoc h) h
  · split
    · exact sound_havoc (sound_loseImage (sound_useImage h))
    · next hseal =>
      split
      · exact sound_havoc h
      · next hstore => exact sound_storeOnce hstore (sound_sealStream hseal (sound_useImage h))

theorem sound_writeBlob {key : Option Nat} {withKv : Bool} {r0 : Except Fail (Nat × State)}
    (he : writeBlob s p q id st key addr withKv = (r0, t)) (h : Sound P s) : Sound P t :=
  sound_of_pair he (sound_writeBlob_state h)

theorem sound_effectStreamExport (h : Sound P s) : Sound P (effectStreamExport s q c) := by
  unfold effectStreamExport
  dsimp only
  split
  · exact sound_failCmd h
  · split
    · next he => exact sound_failCmd (sound_writeBlob he h)
    · next he =>
      obtain rfl := writeBlob_ok he
      exact sound_setResult (sound_exported (sound_writeBlob he h))

theorem sound_startExport (h : Sound P s) : Sound P (startExport s q c) := sound_setCmd (sound_takeKey h)

theorem sound_importKv {o : Opened} {imageLen : Nat} {prior r0 : Option KvRoot} (he : importKv s p o imageLen prior id = .ok (r0, t))
    (h : Sound P s) : Sound P t := by
  unfold importKv at he
  dsimp only at he
  split at he
  · cases he
    exact h
  · split at he
    · cases he
    · split at he
      · cases he
      · next hcall =>
          cases he
          exact sound_installKv hcall (sound_releaseKv h)

theorem sound_importOpened {o : Opened} {r0 : Nat} (he : importOpened s p q c o = .ok (r0, t)) (h : Sound P s) : Sound P t := by
  unfold importOpened at he
  replace he := ok_of_guard (ok_of_guard he)
  dsimp only at he
  generalize impTarget c.body = target at he
  split at he
  · next id _ _ =>
    have hfreed : Sound P (if target.isSome then freeImage (leaveCohort s id) id else s) := sound_ite (sound_freeImage (sound_leaveCohort h)) h
    split at he
    · cases he
    · next hkv =>
      split at he
      · cases he
      · next hclaim =>
        split at he
        · cases he
        · next hstore =>
          split at he
          · cases he
          · next hwrite =>
            cases he
            exact sound_writeId hwrite (sound_putStream (sound_physStore hstore (sound_claimImage hclaim (sound_importKv hkv hfreed))))
  · cases he

theorem sound_computeStreamImport (h : Sound P s) : Sound P (computeStreamImport s q) := by
  unfold computeStreamImport
  dsimp only
  split
  · exact h
  · split
    · exact sound_failCmd h
    · split
      · exact sound_failCmd h
      · split
        · exact sound_failCmd h
        · exact sound_setCmd h
        · next hcall => exact sound_setResult (sound_importOpened hcall h)

theorem sound_effectStreamImport (h : Sound P s) : Sound P (effectStreamImport s q c) :=
  sound_gated h (fun _ hx => sound_computeStreamImport hx)

theorem sound_openSwath (h : Sound P s) : Sound P (openSwath s q Q c) := by
  unfold openSwath
  dsimp only
  split
  · split
    · exact h
    · next hcall =>
        split
        · exact sound_settled (sound_abandonSwath (sound_signalCore (sound_setPart (sound_foldl (fun _ _ hx => sound_setStream hx)
            (sound_reserveImages hcall h)))))
        · exact sound_settled (sound_signalCore (sound_setPart (sound_foldl (fun _ _ hx => sound_setStream hx) (sound_reserveImages hcall h))))
  · exact h

/-! ### Ticks -/

theorem sound_setTick {f : Tick → Tick} (h : Sound P s) : Sound P (setTick s f) := sound_same h rfl rfl rfl rfl

theorem sound_latchTick {j : Nat} (h : Sound P s) : Sound P (latchTick s n j) := sound_latchSwaths (sound_setTick h)

theorem sound_refuseEdge (h : Sound P s) : Sound P (refuseEdge s) := sound_setTick h

theorem sound_acceptEdge {j : Nat} (h : Sound P s) : Sound P (acceptEdge s n j) := sound_latchTick (sound_setTick h)

theorem sound_anchorEdge {j : Nat} (h : Sound P s) : Sound P (anchorEdge s n j) := sound_latchTick (sound_setTick h)

theorem sound_candidate {j : Nat} {k : Option Nat} (h : Sound P s) : Sound P (candidate s j k) := by
  unfold candidate
  dsimp only
  split
  · exact h
  · split
    · split
      · exact sound_anchorEdge h
      · exact sound_refuseEdge h
    · exact sound_anchorEdge h
  · split
    · split
      · exact sound_acceptEdge h
      · exact sound_refuseEdge h
    · split
      · exact sound_acceptEdge h
      · exact sound_refuseEdge h

theorem sound_tickWindowClose (h : Sound P s) : Sound P (tickWindowClose s) :=
  sound_ite h (sound_ite (sound_latchTick (sound_setTick h)) (sound_setTick h))

theorem sound_tickConfigured (h : Sound P s) : Sound P (tickConfigured s bs) := by
  unfold tickConfigured
  dsimp only
  exact sound_setTick h

/-! ### MemoryRows -/

theorem sound_setPlot {f : Plot → Plot} (h : Sound P s) : Sound P (setPlot s p k f) := sound_setPart h

theorem sound_countGrant {m : Move} (h : Sound P s) : Sound P (countGrant s m) :=
  sound_ite (sound_mem h rfl rfl rfl id) (sound_ite (sound_mem h rfl rfl rfl id) h)

theorem sound_dropMove {m : Move} (h : Sound P s) : Sound P (dropMove s m) := sound_mem h rfl rfl rfl id

theorem sound_releaseMove {m : Move} (h : Sound P s) : Sound P (releaseMove s m) := by
  unfold releaseMove
  split
  · exact h
  · exact sound_uncharge h

theorem sound_countMoveFailed (h : Sound P s) : Sound P (countMoveFailed s p) := sound_setPartMem h

theorem sound_moveFail {m : Move} {f : Fail} (h : Sound P s) : Sound P (moveFail s m f) := by
  unfold moveFail
  dsimp only
  split
  · exact sound_countEnded (sound_releaseMove h)
  · exact sound_dropMoves (sound_setCmd h)

theorem sound_takePolicy {m : Move} (h : Sound P s) : Sound P (takePolicy s m) := by
  unfold takePolicy
  split
  · exact h
  · split
    · exact sound_setPlot h
    · exact h

theorem sound_landWrites {m : Move} (h : Sound P s) : Sound P (landWrites s m) := by
  unfold landWrites
  refine sound_foldl (fun _ _ hx => ?_) h
  split
  · next hcall => exact sound_storeHome hcall hx
  · exact sound_failLate hx

theorem sound_settleMove {m : Move} (h : Sound P s) : Sound P (settleMove s m) := by
  unfold settleMove
  dsimp only
  exact sound_setPartMem (sound_landWrites (sound_setPlot (sound_dropMove h)))

theorem sound_startPage {m : Move} (h : Sound P s) : Sound P (startPage s m q k) := by
  unfold startPage
  dsimp only
  split
  · exact sound_dropMove h
  · split
    · next hcall => exact sound_mem (sound_takeSlot hcall h) rfl rfl rfl id
    · exact sound_dropMoves (sound_setCmd h)

theorem sound_startPlot {m : Move} (h : Sound P s) : Sound P (startPlot s m) := by
  unfold startPlot
  dsimp only
  split
  · exact sound_moveFail (sound_countMoveFailed (sound_dropMove h))
  · split
    · split
      · exact sound_takePolicy (sound_releaseMove (sound_dropMove h))
      · exact sound_setPlot (sound_mem h rfl rfl rfl id)
    · split
      · exact sound_takePolicy (sound_releaseMove (sound_dropMove h))
      · exact sound_setPlot (sound_mem h rfl rfl rfl id)

theorem sound_startMove {m : Move} (h : Sound P s) : Sound P (startMove s m) := by
  unfold startMove
  split
  · exact sound_startPage h
  · exact sound_startPlot h

theorem sound_drainFrame {home : Home} (h : Sound P s) : Sound P (drainFrame s home) := by
  unfold drainFrame
  split
  · exact sound_drainWhere h
  · exact h

theorem sound_unmapPlot (h : Sound P s) : Sound P (unmapPlot p s k) := by
  unfold unmapPlot
  dsimp only
  split
  · exact h
  · exact sound_setPart (sound_uncharge (sound_drainFrame h))

theorem sound_fillSlots : ∀ {n : Nat} {s : State}, Sound P s → Sound P (fillSlots n s)
  | 0, _, h => h
  | _ + 1, _, h => by
    unfold fillSlots
    split
    · exact sound_fillSlots (sound_unmapPlot (sound_dropMove h))
    · split
      · exact h
      · split
        · exact h
        · exact sound_fillSlots (sound_startMove (sound_countGrant h))

theorem sound_settleMoves (h : Sound P s) : Sound P (settleMoves s q) := by
  unfold settleMoves
  dsimp only
  split
  · exact h
  · split
    · exact h
    · split
      · exact h
      · split
        · exact sound_setResult h
        · exact sound_setResult h

theorem sound_settleAllMoves (h : Sound P s) : Sound P (settleAllMoves s) := sound_foldl (fun _ _ hx => sound_settleMoves hx) h

theorem sound_runMover (h : Sound P s) : Sound P (runMover s) := sound_settleAllMoves (sound_fillSlots h)

theorem sound_placePlot {pl : Plot} {dest : Home} (he : placePlot s p q pl dest bs = .ok t) (h : Sound P s) : Sound P t := by
  unfold placePlot at he
  split at he
  · exact sound_physStore he h
  · cases hx : physStore s p q _ bs with
    | error f => rw [hx] at he; cases he
    | ok x =>
      rw [hx] at he
      cases he
      exact sound_keyFrame (sound_physStore hx h)
  · split at he
    · split at he
      · cases he
        exact sound_mem h rfl (by simp [sizes]) rfl fun ⟨hp, hh, hr, hc⟩ => ⟨hp, memWrite_wf _ _ hh, hr, hc⟩
      · cases he
    · split at he
      · split at he
        · cases he
          exact sound_sentRemote (sound_mem h rfl rfl rfl fun ⟨hp, hh, hr, hc⟩ => ⟨hp, hh, memWrite_wf _ _ hr, hc⟩)
        · cases he
      · cases he
    · cases he

theorem sound_copyPlot {pl : Plot} {dest : Home} (he : copyPlot s p q k pl dest = .ok t) (h : Sound P s) : Sound P t := by
  unfold copyPlot at he
  dsimp only at he
  split at he
  · cases he
  · split at he
    · cases he
    · next hcall =>
        cases he
        exact sound_setPartMem (sound_setPlot (sound_ite (sound_regulate (sound_uncharge (sound_placePlot hcall (sound_drainFrame h))))
          (sound_uncharge (sound_placePlot hcall (sound_drainFrame h)))))

theorem sound_queueMove {dest : Home} {cause : MoveCause} (h : Sound P s) : Sound P (queueMove s p k dest cause) :=
  sound_charge (sound_mem h rfl rfl rfl id)

theorem sound_promoteNext {o : Option Nat} (h : Sound P s) : Sound P (promoteNext s p o) := by
  unfold promoteNext
  split
  · exact h
  · split
    · split
      · exact sound_queueMove h
      · exact h
    · exact h

theorem sound_moveDone {m : Move} (h : Sound P s) : Sound P (moveDone s m) := by
  unfold moveDone
  split
  · exact h
  · exact h
  · exact h
  · exact sound_setPartMem h
  · exact sound_promoteNext (sound_setPartMem h)
  · exact sound_setCmd (sound_takePolicy h)

theorem sound_copyFrame {src dst : Nat} (h : Sound P s) : Sound P (copyFrame s src dst) :=
  sound_keyWhole (sound_mem h rfl rfl rfl (fun ⟨hp, hh, hr, hc⟩ => ⟨(memCopy_wf _ _ _ hp hp), hh, hr, hc⟩))

theorem sound_rehomePlot {pl : Plot} {dest : Home} (h : Sound P s) : Sound P (rehomePlot s p k pl dest) := by
  unfold rehomePlot
  dsimp only
  split
  · exact sound_setPartMem (sound_setPlot (sound_uncharge (sound_copyFrame (sound_drainFrame h))))
  · exact sound_releaseMove h

theorem sound_moveReads {r0 : Option Fail} (he : moveReads s p k = (r0, t)) (h : Sound P s) : Sound P t := sound_hostFires he (sound_fireReads h)

theorem sound_plotMoveCommit (h : Sound P s) : Sound P (plotMoveCommit s p k) := by
  unfold plotMoveCommit
  split
  · exact h
  · split
    · exact sound_runMover (sound_releaseMove (sound_settleMove h))
    · split
      · exact sound_runMover (sound_settleMove (sound_rehomePlot h))
      · dsimp only
        have hreads := sound_moveReads (s := s) (p := p) (k := k) rfl h
        split
        · next he =>
          split at he
          · cases he
          · exact sound_runMover (sound_moveDone (sound_settleMove (sound_copyPlot he hreads)))
        · exact sound_runMover (sound_moveFail (sound_countMoveFailed (sound_settleMove hreads)))

theorem sound_reserveMoves {b : Nat} : ∀ {ks : List (Nat × Nat)} {s t : State}, reserveMoves s p q b ks = some t → Sound P s → Sound P t
  | [], _, _, he, h => by cases he; exact h
  | _ :: _, _, _, he, h => by
    unfold reserveMoves at he
    split at he
    · exact sound_reserveMoves he h
    · split at he
      · cases he
      · dsimp only at he
        split at he
        · cases he
        · exact sound_reserveMoves he (sound_setCmd (sound_charge (sound_mem h rfl rfl rfl id)))

theorem sound_effectPlotMove (h : Sound P s) : Sound P (effectPlotMove s q Q c) := by
  unfold effectPlotMove
  dsimp only
  split
  · exact sound_foldl (fun _ _ hx => sound_ite hx (sound_setPlot hx)) h
  · next hcall => exact sound_runMover (sound_reserveMoves hcall (sound_foldl (fun _ _ hx => sound_ite hx (sound_setPlot hx)) h))

theorem sound_migrate : ∀ {ks : List (Nat × Plot)} {n : Nat} {s : State}, Sound P s → Sound P (migrate p ks n s)
  | [], _, _, h => h
  | _ :: _, _, _, h => by
    unfold migrate
    split
    · exact h
    · split
      · exact sound_migrate (sound_queueMove h)
      · split
        · exact sound_migrate (sound_queueMove h)
        · exact h

theorem sound_migratePart (h : Sound P s) : Sound P (migratePart s p) := sound_ite h (sound_setPart (sound_migrate h))

theorem sound_migrationEpoch (h : Sound P s) : Sound P (migrationEpoch s) := by
  have hrun := sound_runMover (sound_foldl (f := migratePart) (xs := List.range 4) (fun _ _ hx => sound_migratePart hx) h)
  unfold migrationEpoch
  dsimp only
  generalize runMover _ = t at hrun ⊢
  exact sound_ite h (sound_mem hrun rfl rfl rfl id)

theorem sound_fillFrames : ∀ {fs : List Nat} {bs : List Byte} {s t : State}, fillFrames s p q fs bs = .ok t → Sound P s → Sound P t
  | [], _, _, _, he, h => by cases he; exact h
  | _ :: _, _, _, _, he, h => by
    unfold fillFrames at he
    split at he
    · cases he
    · next hcall => exact sound_fillFrames he (sound_physStore hcall h)

theorem sound_numberFill {w : Window} (h : Sound P s) : Sound P (numberFill s q p c w) := by
  unfold numberFill
  split
  · exact h
  · exact sound_setCmd (sound_setWin h)

theorem sound_computeWindowFill (h : Sound P s) : Sound P (computeWindowFill s q) := by
  unfold computeWindowFill
  dsimp only
  split
  · exact h
  · split
    · split
      · exact h
      · have hfires {x : State} (hx : Sound P x) (p : Nat) (rs : List (Nat × Nat)) : Sound P (hostFires (useReads x p rs) p rs).2 :=
          sound_hostFires rfl (sound_useReads hx)
        split
        · next he =>
          refine sound_setResult ?_
          split at he
          · cases he
          · cases he
          · exact sound_fillFrames he (hfires (sound_setCmd (sound_setWin h)) _ _)
        · exact sound_setResult (hfires (sound_setCmd (sound_setWin h)) _ _)
    · exact h

theorem sound_effectWindowFill (h : Sound P s) : Sound P (effectWindowFill s q Q c) := by
  unfold effectWindowFill
  split
  · exact sound_setResult h
  · split
    · exact h
    · split
      · exact sound_gated (sound_numberFill h) (fun _ hx => sound_computeWindowFill hx)
      · exact sound_computeWindowFill h

theorem sound_pageMoveEnds {m : Move} (h : Sound P s) : Sound P (pageMoveEnds s m) := by
  unfold pageMoveEnds
  dsimp only
  split
  · split
    · exact sound_dropMove h
    · split
      · exact sound_setCmd (sound_countedMove (sound_dropMove h))
      · exact sound_countedMove (sound_dropMove h)
  · exact sound_dropMove h

theorem sound_finishPages : ∀ {n : Nat} {s : State}, Sound P s → Sound P (finishPages q n s)
  | 0, _, h => h
  | _ + 1, _, h => by
    unfold finishPages
    split
    · exact sound_finishPages (sound_runMover (sound_pageMoveEnds h))
    · exact h

theorem sound_endPages (h : Sound P s) : Sound P (endPages s q) := sound_finishPages h

theorem sound_countCpl {sel : Nat → Bool} (h : Sound P s) : Sound P (countCpl s p sel) := sound_ite (sound_same h rfl rfl rfl rfl) h

theorem sound_endRead {f : Fail} (h : Sound P s) : Sound P (endRead s q p c f) := sound_endEarly (sound_discardItems h)

theorem sound_farFieldEnd (he : farFieldEnd s q = some t) (h : Sound P s) : Sound P t := by
  unfold farFieldEnd at he
  dsimp only at he
  split at he
  · split at he
    · split at he
      · cases he
        exact sound_runMover (sound_moveFail (sound_countMoveFailed (sound_settleMove h)))
      · cases he
    · split at he
      · cases he
        exact sound_runMover (sound_moveFail (sound_countMoveFailed (sound_settleMove h)))
      · cases he
  · cases he
  · split at he
    · split at he
      · split at he
        · cases he
          exact sound_endRead h
        · cases he
      · split at he
        · cases he
          exact sound_endRead h
        · cases he
    · split at he
      · cases he
        exact sound_setResult h
      · cases he
  · split at he
    · cases he
      exact sound_ringFault h
    · cases he

theorem sound_farFieldTimeout (h : Sound P s) : Sound P (farFieldTimeout s q) := by
  unfold farFieldTimeout
  dsimp only
  split
  · next hcall =>
      split
      · exact sound_countCpl (sound_farFieldEnd hcall h)
      · exact sound_noteInjected (sound_countCpl (sound_farFieldEnd hcall h))
  · exact h

end

end Sys2Proof.Machine
end

section
/-! INVARIANT (continued). One lemma a function, in the order of the model. -/

namespace Sys2Proof.Machine

section
variable {P : Kept} {s t s0 : State} {p q e id slot fn key n i d units addr k stream m size off session : Nat} {harrow doe i3c : Bool}
variable {a : Asked} {r : Result} {st : Stream} {c : Cmd} {Q : Queue} {w : WordWrite} {cx : AttendCtx} {K : Pool} {bs : List Byte}

/-! ### Drill -/

theorem sound_drillGrant (h : Sound P s) : Sound P (drillGrant s n) := by
  unfold drillGrant
  dsimp only
  split
  · exact h
  · split
    · exact h
    · exact sound_setChannel h

theorem sound_chCounts {f : ChCounts → ChCounts} (h : Sound P s) : Sound P (chCounts s n f) :=
  sound_ite (sound_setChannel (sound_takeFree rfl h)) (sound_setChannel h)

theorem sound_runDesc (he : runDesc s p q n d = .ok t) (h : Sound P s) : Sound P t := by
  unfold runDesc at he
  dsimp only at he
  split at he
  · cases he
  · exact sound_storeAll he (sound_chCounts (sound_setChannel h))

theorem sound_haltChannel (h : Sound P s) : Sound P (haltChannel s n q d off) := sound_raiseEvent (sound_endEarly (sound_setChannel h))

theorem sound_drillFires {r0 : Option Fail} (he : drillFires s p n i d = (r0, t)) (h : Sound P s) : Sound P t := by
  refine sound_of_pair he ?_
  unfold drillFires
  dsimp only
  generalize hx : List.foldl _ (fireTimes 0x13 n 4 s) _ = x
  have hfold : Sound P x.2 := hx ▸ sound_foldOf Prod.snd (fun y fn hy => by exact sound_fireTimes rfl hy) (sound_fireTimes rfl h)
  split
  · exact sound_setChannel hfold
  · split
    · exact sound_completionFires rfl (sound_setChannel hfold)
    · exact sound_setChannel hfold

theorem sound_startDesc (h : Sound P s) : Sound P (startDesc s q) := by
  unfold startDesc
  dsimp only
  split
  · exact h
  · split
    · exact sound_setResult h
    · split
      · next hcall1 =>
          split
          · exact sound_haltChannel (sound_drillFires hcall1 (sound_touchPlots (sound_useReads (sound_chCounts (sound_setCmd h)))))
          · exact sound_endEarly (sound_drillFires hcall1 (sound_touchPlots (sound_useReads (sound_chCounts (sound_setCmd h)))))
      · next hcall2 =>
          split
          · exact sound_haltChannel (sound_drillFires hcall2 (sound_touchPlots (sound_useReads (sound_chCounts (sound_setCmd h)))))
          · exact sound_endEarly (sound_drillFires hcall2 (sound_touchPlots (sound_useReads (sound_chCounts (sound_setCmd h)))))
          · next hcall3 => exact sound_runDesc hcall3 (sound_drillFires hcall2 (sound_touchPlots (sound_useReads (sound_chCounts (sound_setCmd h)))))

theorem sound_advanceDrill (h : Sound P s) : Sound P (advanceDrill s q) := by
  unfold advanceDrill
  dsimp only
  split
  · split
    · exact sound_haltChannel h
    · split
      · exact sound_finishDesc h
      · exact sound_startDesc (sound_finishDesc h)
  · exact h

theorem sound_advanceTo : ∀ {n : Nat} {s : State}, Sound P s → Sound P (advanceTo q d n s)
  | 0, _, h => h
  | _ + 1, _, h => by
    unfold advanceTo
    split
    · exact sound_ite (sound_advanceTo (sound_advanceDrill h)) h
    · exact h

theorem sound_finishDrill (h : Sound P s) : Sound P (finishDrill s q) := sound_advanceTo h

theorem sound_tickDrill (h : Sound P s) : Sound P (tickDrill s) := by
  unfold tickDrill
  refine sound_foldl (fun _ _ hx => ?_) h
  split
  · split
    · exact sound_advanceDrill hx
    · exact hx
  · exact hx

theorem sound_computeDrill (h : Sound P s) : Sound P (computeDrill s q) := sound_startDesc h

theorem sound_startDrill (h : Sound P s) : Sound P (startDrill s q Q c) := sound_gated (sound_setChannel h) (fun _ hx => sound_computeDrill hx)

theorem sound_effectDrillVisible {c : Cmd} (h : Sound P s) : Sound P (effectDrillVisible s q Q c) :=
  sound_ite (sound_setResult (sound_drainWhere h)) (sound_setResult (sound_drainWhere h))

theorem sound_acknowledged (h : Sound P s) : Sound P (acknowledged s p) := sound_same h rfl rfl rfl rfl

theorem sound_settleVisible (h : Sound P s) : Sound P (settleVisible s q) := by
  unfold settleVisible
  dsimp only
  split
  · split
    · exact h
    · split
      · exact sound_setResult h
      · exact sound_acknowledged h
  · exact h

theorem sound_lineError (h : Sound P s) : Sound P (lineError s n q d off) := by
  unfold lineError
  dsimp only
  split
  · split
    · exact sound_setChannel h
    · exact sound_haltChannel h
  · split
    · exact sound_setChannel h
    · exact sound_haltChannel h

theorem sound_drillBusError (hs0 : Sound P s0) : Sound P (drillBusError s0 n d off) := by
  unfold drillBusError
  dsimp only
  split
  · exact hs0
  · split
    · exact hs0
    · split
      · split
        · exact sound_lineError (sound_advanceTo (sound_noteInjected hs0))
        · exact sound_advanceTo (sound_noteInjected hs0)
      · exact sound_advanceTo (sound_noteInjected hs0)

theorem sound_beforeCommit (h : Sound P s) : Sound P (beforeCommit s q) := sound_settleVisible (sound_finishDrill (sound_endPages h))

theorem sound_disableChannel (h : Sound P s) : Sound P (disableChannel s n) := by
  unfold disableChannel
  dsimp only
  split
  · exact h
  · split
    · split
      · split
        · exact sound_stopCmd (sound_setChannel (sound_takeFree rfl h))
        · exact sound_setChannel (sound_takeFree rfl h)
      · split
        · exact sound_stopCmd (sound_setChannel (sound_takeFree rfl h))
        · exact sound_setChannel (sound_takeFree rfl h)
    · exact sound_setChannel (sound_takeFree rfl h)

theorem sound_enableChannel (h : Sound P s) : Sound P (enableChannel s n) := sound_setChannel h

theorem sound_resumeChannel (h : Sound P s) : Sound P (resumeChannel s n) := sound_setChannel h

theorem sound_clearChannel (h : Sound P s) : Sound P (clearChannel s n) := sound_setChannel h

theorem sound_writeChannel {val : Nat} (h : Sound P s) : Sound P (writeChannel s n val) := by
  unfold writeChannel
  dsimp only
  split
  · exact sound_resumeChannel (sound_ite (sound_disableChannel (sound_ite (sound_clearChannel h) h)) (sound_enableChannel (sound_ite
      (sound_clearChannel h) h)))
  · split
    · exact sound_disableChannel (sound_ite (sound_clearChannel h) h)
    · exact sound_enableChannel (sound_ite (sound_clearChannel h) h)

/-! ### Net -/

theorem sound_setLink {f : Link → Link} (h : Sound P s) : Sound P (setLink s n f) := sound_same h rfl rfl (by simp [sizes]) rfl

theorem sound_setPort {f : Port → Port} (h : Sound P s) : Sound P (setPort s n f) := sound_same h rfl rfl rfl rfl

theorem sound_setQp {f : Qp → Qp} (h : Sound P s) : Sound P (setQp s n f) := sound_same h rfl rfl rfl rfl

theorem sound_sendWire {w : Wire} (h : Sound P s) : Sound P (sendWire s w) := sound_same h rfl rfl rfl rfl

theorem sound_endNet {f : Fail} (h : Sound P s) : Sound P (endNet s q f) := (calm_endNet ..).sound h

theorem sound_qpError {st : Status} (h : Sound P s) : Sound P (qpError s n st) := by
  unfold qpError
  dsimp only
  exact sound_setQp (sound_foldl (fun _ _ hx => sound_endNet hx) h)

theorem sound_setQpResult {st : Nat} (h : Sound P s) : Sound P (setQpResult s fn st n key) := sound_setFn h

theorem sound_qpCreate (h : Sound P s) : Sound P (qpCreate s fn p) := by
  unfold qpCreate
  dsimp only
  split
  · exact sound_setQpResult h
  · exact sound_setQpResult h
  · exact sound_setQpResult (sound_same (sound_takeFree rfl h) rfl rfl rfl rfl)

theorem sound_qpDestroy (h : Sound P s) : Sound P (qpDestroy s fn p n) := by
  unfold qpDestroy
  dsimp only
  split
  · split
    · exact sound_setQpResult (sound_same h rfl rfl rfl rfl)
    · exact sound_setQpResult h
  · exact sound_setQpResult h

theorem sound_qpReset (h : Sound P s) : Sound P (qpReset s fn p n) := by
  unfold qpReset
  dsimp only
  split
  · split
    · exact sound_setQpResult (sound_setQp h)
    · exact sound_setQpResult h
  · exact sound_setQpResult h

theorem sound_netCommand {op : Nat} {checks : State → Queue → Cmd → List (Bool × Fail)} {effect : State → Queue → Cmd → State} (h : Sound P s)
    (keffect : ∀ (x : State) (Q : Queue) (c : Cmd), Sound P x → Sound P (effect x Q c)) : Sound P (netCommand s q op checks effect) :=
  sound_ite h (sound_runCommand h (fun _ _ _ hx => keffect _ _ _ hx))

theorem sound_sendOn {remote : Option Nat} {w : Wire} (h : Sound P s) : Sound P (sendOn s q n remote w bs) := by
  unfold sendOn
  dsimp only
  split
  · exact h
  · split
    · split
      · exact sound_mem (sound_setLink (sound_sendWire (sound_setQp h))) rfl rfl rfl (fun ⟨hp, hh, hr, hc⟩ => ⟨hp, hh, (memWrite_wf _ _ hr), hc⟩)
      · exact sound_setLink (sound_sendWire (sound_setQp h))
    · exact sound_setQp h

theorem sound_computeNetSend (h : Sound P s) : Sound P (computeNetSend s q) := by
  unfold computeNetSend
  dsimp only
  split
  · exact h
  · split
    · exact sound_endEarly h
    · exact sound_sendOn h

theorem sound_startNetSend (h : Sound P s) : Sound P (startNetSend s q Q c) := sound_gated h (fun _ hx => sound_computeNetSend hx)

theorem sound_effectNetRecv {Q : Queue} (h : Sound P s) : Sound P (effectNetRecv s q Q c) := sound_setQp (sound_setCmd h)

theorem sound_sendTokens {ident epoch : Nat} {qps : List Nat} (h : Sound P s) : Sound P (sendTokens s ident epoch qps) := by
  unfold sendTokens
  dsimp only
  refine sound_foldl (fun _ _ hx => ?_) h
  split
  · exact hx
  · split
    · exact sound_setLink (sound_sendWire (sound_setQp hx))
    · exact sound_setQp hx

theorem sound_finishBarrier {b : Barrier} (h : Sound P s) : Sound P (finishBarrier s p b) := sound_ite h (sound_setResult (sound_setPart h))

theorem sound_effectNetBarrier (h : Sound P s) : Sound P (effectNetBarrier s q Q c) := by
  unfold effectNetBarrier
  dsimp only
  split
  · exact sound_finishBarrier (sound_setPart (sound_sendTokens h))
  · exact h

theorem sound_effectNetMigrate (h : Sound P s) : Sound P (effectNetMigrate s q c) := by
  unfold effectNetMigrate
  dsimp only
  split
  · exact h
  · split
    · exact sound_failCmd h
    · split
      · exact sound_failCmd h
      · split
        · exact sound_failCmd (sound_loseImage (sound_useImage h))
        · next hcall => exact sound_sendOn (sound_sealStream hcall (sound_useImage h))

theorem sound_ackCmd (h : Sound P s) : Sound P (ackCmd s q) := by
  unfold ackCmd
  dsimp only
  split
  · exact h
  · split
    · exact sound_setResult h
    · split
      · exact sound_setResult (sound_exported h)
      · exact sound_setResult h

theorem sound_ackReceived (h : Sound P s) : Sound P (ackReceived s n) := by
  unfold ackReceived
  split
  · exact h
  · split
    · exact sound_ackCmd (sound_setQp h)
    · exact h

theorem sound_nakReceived (h : Sound P s) : Sound P (nakReceived s n) := by
  unfold nakReceived
  split
  · split
    · exact sound_qpError h
    · exact h
  · exact h

theorem sound_ackTimeout (h : Sound P s) : Sound P (ackTimeout s n) := by
  unfold ackTimeout
  split
  · exact h
  · split
    · exact h
    · split
      · exact sound_setLink (sound_setQp h)
      · exact sound_qpError h

theorem sound_dropPacket {link : Nat} (h : Sound P s) : Sound P (dropPacket s link) := sound_setLink h

theorem sound_inbound {act : Qp → State → State} (h : Sound P s) (kact : ∀ (y : Qp) (x : State), Sound P x → Sound P (act y x)) :
    Sound P (inbound s n act) := by
  unfold inbound
  split
  · exact h
  · split
    · exact h
    · split
      · exact sound_setLink h
      · split
        · exact kact _ _ h
        · exact sound_dropPacket h

theorem sound_received {x : Qp} {bytes : Nat} (h : Sound P s) : Sound P (received s n x bytes) := sound_setLink (sound_setQp h)

theorem sound_refuseInbound (h : Sound P s) : Sound P (refuseInbound s n) := sound_qpError (sound_sendWire h)

theorem sound_inboundStore (he : inboundStore s p addr bs = .ok t) (h : Sound P s) : Sound P t := by
  unfold inboundStore at he
  split at he
  · exact sound_storeOnce he h
  · cases he

theorem sound_placeInbound {x : Qp} {ok : State → State} (h : Sound P s) (kok : ∀ (j : State), Sound P j → Sound P (ok j)) :
    Sound P (placeInbound s n x addr bs ok) := by
  unfold placeInbound
  split
  · next hcall => exact kok _ (sound_inboundStore hcall h)
  · exact sound_refuseInbound h

theorem sound_rdmaWriteInbound (h : Sound P s) : Sound P (rdmaWriteInbound s n key addr bs) :=
  sound_inbound h (fun _ _ hy => sound_ite (sound_placeInbound (sound_received hy) (fun _ hx => sound_sendWire hx)) (sound_refuseInbound hy))

theorem sound_rdmaReadInbound {len : Nat} (h : Sound P s) : Sound P (rdmaReadInbound s n key addr len) := by
  unfold rdmaReadInbound
  refine sound_inbound h (fun _ _ hx => ?_)
  split
  · split
    · exact sound_setLink (sound_sendWire (sound_useReads hx))
    · exact sound_refuseInbound hx
  · exact sound_refuseInbound hx

theorem sound_consumeRecv {bytes imm : Nat} (h : Sound P s) : Sound P (consumeRecv s n bytes imm) := by
  unfold consumeRecv
  split
  · split
    · exact sound_setResult (sound_setQp h)
    · exact h
  · exact h

theorem sound_sendInbound (h : Sound P s) : Sound P (sendInbound s n bs) := by
  unfold sendInbound
  dsimp only
  refine sound_inbound h (fun _ _ hy => ?_)
  split
  · exact sound_sendWire hy
  · split
    · split
      · exact sound_refuseInbound hy
      · exact sound_placeInbound (sound_received hy) (fun _ hx => sound_consumeRecv (sound_sendWire hx))
    · split
      · exact sound_refuseInbound hy
      · exact sound_placeInbound (sound_received hy) (fun _ hx => sound_consumeRecv (sound_sendWire hx))

theorem sound_writeImmInbound {imm : Nat} (h : Sound P s) : Sound P (writeImmInbound s n key addr imm bs) :=
  sound_inbound h (fun _ _ hy => sound_ite (sound_refuseInbound hy) (sound_ite (sound_sendWire hy) (sound_placeInbound (sound_received hy)
    (fun _ hx => sound_consumeRecv (sound_sendWire hx)))))

theorem sound_barrierToken {imm epoch : Nat} (h : Sound P s) : Sound P (barrierToken s n imm epoch) := by
  unfold barrierToken
  dsimp only
  refine sound_inbound h (fun _ _ hx => ?_)
  split
  · exact sound_dropPacket hx
  · split
    · exact sound_finishBarrier (sound_setPart (sound_sendWire (sound_received hx)))
    · split
      · split
        · exact sound_dropPacket hx
        · split
          · exact sound_sendWire hx
          · exact sound_setPart (sound_sendWire (sound_received hx))
      · split
        · exact sound_dropPacket hx
        · split
          · exact sound_sendWire hx
          · exact sound_setPart (sound_sendWire (sound_received hx))

theorem sound_ethLinkUp (h : Sound P s) : Sound P (ethLinkUp s n) := sound_ite h (sound_ite (sound_setPort (sound_setLink h)) (sound_setLink h))

theorem sound_linkDown (h : Sound P s) : Sound P (linkDown s n) := by
  unfold linkDown
  dsimp only
  split
  · exact h
  · split
    · refine sound_setPort ?_
      refine sound_setLink ?_
      refine sound_foldl (fun x a hx => ?_) h
      split
      · split
        · exact sound_qpError hx
        · exact hx
      · exact hx
    · refine sound_setLink ?_
      refine sound_foldl (fun x a hx => ?_) h
      split
      · split
        · exact sound_qpError hx
        · exact hx
      · exact hx

theorem sound_ptpSync {port : Nat} {offset : ℤ} (h : Sound P s) : Sound P (ptpSync s port offset) :=
  sound_ite h (sound_setPort (sound_takeFree rfl h))

/-! ### WindowFence -/

theorem sound_computeOf {op : Nat} (h : Sound P s) : Sound P (computeOf s q op) := by
  unfold computeOf
  exact sound_ite (sound_computeMxGemm h) <| sound_ite (sound_computeConv2d h) <| sound_ite (sound_computePool h) <|
    sound_ite (sound_computeRecurCell h) <| sound_ite (sound_computeScanLinear h) <| sound_ite (sound_computeAttend h) <|
    sound_ite (sound_computeEltwise h) <| sound_ite (sound_computeNormRow h) <| sound_ite (sound_softmaxReads h) <|
    sound_ite (sound_computeSample h) <| sound_ite (sound_computeDrill h) <| sound_ite (sound_computeWindowFill h) <|
    sound_ite (sound_computeStreamImport h) <| sound_ite (sound_computeNetSend h) h

theorem sound_windowFenceRelease (h : Sound P s) : Sound P (windowFenceRelease s q) := by
  unfold windowFenceRelease
  dsimp only
  split
  · split
    · exact h
    · split
      · exact sound_endEarly (sound_setCmd (sound_ite h (sound_stallTime h)))
      · split
        · exact sound_computeOf (sound_setCmd h)
        · split
          · exact h
          · exact sound_afterReads (sound_setReaders (sound_setCmd (sound_stallTime h))) (fun _ hx => sound_computeOf hx)
  · exact h

/-! ### Registers -/

theorem sound_buildPage (h : Sound P s) : Sound P (buildPage s key) := sound_same h rfl rfl rfl rfl

/-! ### Traps -/

theorem sound_writeQueSel (he : writeQueSel s fn w = some t) (h : Sound P s) : Sound P t := by
  unfold writeQueSel at he
  dsimp only at he
  split at he
  · cases he
  · cases he
    exact sound_setFn h

theorem sound_clearDispatch (h : Sound P s) : Sound P (clearDispatch s q) := sound_setCounts h

theorem sound_clearErrors (h : Sound P s) : Sound P (clearErrors s q) := sound_setQueue h

theorem sound_writeDispatchClr (he : writeDispatchClr s fn w = some t) (h : Sound P s) : Sound P t := by
  unfold writeDispatchClr at he
  dsimp only at he
  split at he
  · cases he
  · cases he
    split
    · exact sound_clearErrors (sound_ite (sound_clearDispatch h) h)
    · split
      · exact sound_clearDispatch h
      · exact h

theorem sound_writeAbortFirst (he : writeAbortFirst s fn w = some t) (h : Sound P s) : Sound P t := by
  unfold writeAbortFirst at he
  split at he
  · cases he
  · cases he
    exact sound_setFn h

theorem sound_setAbortResult {st : Status} (h : Sound P s) : Sound P (setAbortResult s fn st n) := sound_setFn h

theorem sound_writeAbort (he : writeAbort s fn w = some t) (h : Sound P s) : Sound P t := by
  unfold writeAbort at he
  dsimp only at he
  split at he
  · cases he
  · split at he
    · cases he
      exact sound_setAbortResult h
    · cases he
      exact sound_setAbortResult (sound_abortRange rfl h)

theorem sound_portDown (h : Sound P s) : Sound P (portDown s n) := sound_linkDown (sound_linkDown h)

theorem sound_writePortCfg (he : writePortCfg s fn n w = some t) (h : Sound P s) : Sound P t := by
  unfold writePortCfg at he
  dsimp only at he
  split at he
  · cases he
  · cases he
    exact sound_setPort (sound_ite h (sound_portDown h))

theorem sound_writeAddrLow (he : writeAddrLow s fn n w = some t) (h : Sound P s) : Sound P t := by
  unfold writeAddrLow at he
  split at he
  · cases he
  · cases he
    exact sound_setFn h

theorem sound_writeAddrHigh (he : writeAddrHigh s fn n w = some t) (h : Sound P s) : Sound P t := by
  unfold writeAddrHigh at he
  split at he
  · cases he
  · cases he
    exact sound_setLink h

theorem sound_dropAddrLow (h : Sound P s) : Sound P (dropAddrLow s fn n) := sound_setFn h

theorem sound_writeQpCtx (he : writeQpCtx s fn i w = some t) (h : Sound P s) : Sound P t := by
  unfold writeQpCtx at he
  split at he
  · cases he
  · cases he
    exact sound_setFn h

theorem sound_writeQpCmd (he : writeQpCmd s fn w = some t) (h : Sound P s) : Sound P t := by
  unfold writeQpCmd at he
  dsimp only at he
  split at he
  · cases he
  · split at he
    · cases he
    · cases he
      split
      · exact sound_qpCreate h
      · split
        · exact sound_qpDestroy h
        · exact sound_qpReset h

theorem sound_writeChCtrl (he : writeChCtrl s fn n w = some t) (h : Sound P s) : Sound P t := by
  unfold writeChCtrl at he
  dsimp only at he
  split at he
  · cases he
  · cases he
    exact sound_writeChannel h

theorem sound_writeW1c {reserved : List (Nat × Nat)} {s1 : State} (he : writeW1c s fn w i reserved s1 = some t) (h : Sound P s)
    (hs1 : Sound P s1) : Sound P t := by
  unfold writeW1c at he
  split at he
  · cases he
  · cases he
    split
    · exact hs1
    · exact h

theorem sound_applyWord {page o : Nat} (he : applyWord s fn page o w = some t) (h : Sound P s) : Sound P t := by
  unfold applyWord at he
  extract_lets ro at he
  have hro (hr : ro = some t) : Sound P t := by
    simp only [ro] at hr
    split at hr
    · split at hr
      · cases hr
      · cases hr; exact h
    · cases hr; exact h
  split at he
  case h_1 =>
    split at he
    · exact sound_writeQueSel he h
    · split at he
      · exact sound_writeDispatchClr he h
      · split at he
        · exact sound_writeAbortFirst he h
        · split at he
          · exact sound_writeAbort he h
          · exact hro he
  case h_2 =>
    split at he
    · exact sound_writeW1c he h (sound_setTick h)
    · cases he
  case h_3 =>
    split at he
    · exact sound_writeW1c he h (sound_setPwr h)
    · cases he
  case h_4 => cases he
  case h_5 =>
    split at he
    · exact sound_writePortCfg he h
    · split at he
      · split at he
        · exact sound_writeAddrLow he h
        · obtain ⟨x, hx, rfl⟩ := Option.map_eq_some_iff.1 he
          exact sound_dropAddrLow (sound_writeAddrHigh hx h)
      · split at he
        · exact sound_writeQpCtx he h
        · split at he
          · exact sound_writeQpCmd he h
          · exact hro he
  case h_6 =>
    split at he
    · exact sound_writeChCtrl he h
    · exact hro he
  case h_7 => cases he
  case h_8 =>
    split at he
    · exact sound_writeW1c he h (sound_same h rfl rfl rfl rfl)
    · cases he
  case h_9 =>
    split at he
    · cases he
    · exact hro he

theorem sound_refuseTrap (h : Sound P s) : Sound P (refuseTrap s fn off) := sound_setFn h

theorem sound_refusedEffects {page o : Nat} (h : Sound P s) : Sound P (refusedEffects s fn page o) := sound_ite (sound_dropAddrLow h) h

theorem sound_applyTrap {trap : Trap} (h : Sound P s) : Sound P (applyTrap s fn trap) := by
  unfold applyTrap
  dsimp only
  refine sound_buildPage ?_
  refine sound_foldl (fun _ _ hx => sound_buildPage hx) ?_
  refine sound_setFn ?_
  split
  · next hcall => exact sound_applyWord hcall h
  · exact sound_refuseTrap (sound_refusedEffects h)

theorem sound_drainTraps (h : Sound P s) : Sound P (drainTraps s fn) :=
  sound_ite (sound_foldl (fun _ _ hx => sound_applyTrap hx) (sound_setFn h)) h

theorem sound_overflowTrap (h : Sound P s) : Sound P (overflowTrap s fn) := sound_raiseMsix (sound_setFn h)

theorem sound_trapWrite {val : Nat} (h : Sound P s) : Sound P (trapWrite s fn off size val) :=
  sound_ite (sound_drainTraps (sound_setFn h)) (sound_overflowTrap h)

theorem sound_bootGo (h : Sound anyBoot s) : Sound anyBoot (bootGo s) := sound_ite h (sound_setBoot h)

theorem sound_writeBootWord {o : Nat} (h : Sound anyBoot s) : Sound anyBoot (writeBootWord s o w) :=
  sound_ite (sound_ite (sound_bootGo h) h) (sound_ite h (sound_ite (sound_setBoot h) (sound_ite (sound_setBoot h) (sound_setBoot h))))

theorem sound_writeStatus (h : Sound P s) : Sound P (writeStatus s fn w) := sound_ite (sound_setFn h) h

theorem sound_writeEvent (h : Sound P s) : Sound P (writeEvent s fn w) := sound_setFn h

theorem sound_writeLive {o : Nat} (h : Sound anyBoot s) : Sound anyBoot (writeLive s fn o w) :=
  sound_ite (sound_writeStatus h) (sound_ite (sound_writeEvent h) (sound_ite (sound_writeBootWord h) h))

theorem sound_setMbx {f : Mailbox → Mailbox} (h : Sound P s) : Sound P (setMbx s fn m f) := sound_setFn h

theorem sound_postMbx (h : Sound P s) : Sound P (postMbx s fn m) := sound_ite (sound_setMbx h) (sound_setFn h)

theorem sound_releaseMbx (h : Sound P s) : Sound P (releaseMbx s fn m) := sound_ite (sound_setMbx h) h

theorem sound_writeMbxCtrl (h : Sound P s) : Sound P (writeMbxCtrl s fn m w) :=
  sound_ite h (sound_ite (sound_releaseMbx (sound_ite (sound_postMbx (sound_setMbx h)) (sound_setMbx h))) (sound_ite (sound_postMbx
    (sound_setMbx h)) (sound_setMbx h)))

theorem sound_writeBuffer {o val : Nat} (h : Sound P s) : Sound P (writeBuffer s fn o size val) :=
  sound_ite h (sound_ite (sound_setMbx h) (sound_setFn h))

theorem sound_sendPending {entry : Nat} (h : Sound P s) : Sound P (sendPending s fn entry) := sound_ite (sound_setPci (sound_setFn h)) h

theorem sound_setEntry {entry : Nat} {f : W128 → W128} (h : Sound P s) : Sound P (setEntry s fn entry f) := sound_sendPending (sound_setFn h)

theorem sound_writeEntry {val : Nat} (h : Sound P s) : Sound P (writeEntry s fn off size val) := sound_setEntry h

theorem sound_unmaskEntry {entry : Nat} (h : Sound P s) : Sound P (unmaskEntry s fn entry) := sound_setEntry h

theorem sound_windowWrite {val : Nat} (h : Sound anyBoot s) : Sound anyBoot (windowWrite s fn off size val) :=
  sound_ite (sound_setFn h) (sound_ite (sound_writeBuffer h) (sound_ite (sound_ite (sound_writeMbxCtrl h) h) (sound_ite (sound_writeLive h)
    (sound_trapWrite h))))

theorem sound_bar0Write {val : Nat} (h : Sound anyBoot s) : Sound anyBoot (bar0Write s fn off size val) := by
  unfold bar0Write
  split
  · exact sound_windowWrite h
  · split
    · split
      · exact sound_doorbellWrite h
      · split
        · exact sound_rejectDoorbell h
        · exact h
    · split
      · exact sound_fenceWrite h
      · split
        · exact sound_writeEntry h
        · exact h

theorem sound_rowWrite {val : Nat} (h : Sound P s) : Sound P (rowWrite s fn off val) := sound_barWrite h (fun _ hx => sound_trapWrite hx)

theorem sound_channelWrite {val : Nat} (h : Sound P s) : Sound P (channelWrite s fn n val) :=
  sound_ite (sound_barWrite h (fun _ hx => sound_trapWrite hx)) h

/-! ### Ends -/

theorem sound_reachBoundary (h : Sound P s) : Sound P (reachBoundary s q) := by
  unfold reachBoundary
  dsimp only
  split
  · split
    · exact sound_setResult (sound_stopEffects (sound_foldl (fun _ _ hx => sound_plotMoveCommit hx) (sound_endPages h)))
    · exact sound_foldl (fun _ _ hx => sound_plotMoveCommit hx) (sound_endPages h)
  · exact sound_foldl (fun _ _ hx => sound_plotMoveCommit hx) (sound_endPages h)

theorem sound_drainQueue : ∀ {n : Nat} {s : State}, Sound P s → Sound P (drainQueue q n s)
  | 0, _, h => h
  | _ + 1, _, h => by
    unfold drainQueue
    dsimp only
    split
    · exact sound_ite (sound_drainQueue (sound_commitQueue (sound_discardItems (sound_reachBoundary h))))
        (sound_discardItems (sound_reachBoundary h))
    · split
      · exact sound_drainQueue (sound_accept h)
      · exact sound_setQueue h

theorem sound_endAll {st : Status} (h : Sound P s) : Sound P (endAll s q st) :=
  sound_setQueue (sound_drainQueue (sound_setQueue (sound_endRange rfl h)))

theorem sound_disableQueue (h : Sound P s) : Sound P (disableQueue s q) := sound_ite h (sound_setQueue (sound_releaseHeld (sound_endAll h)))

theorem sound_disableWhere {ok : Queue → Bool} (h : Sound P s) : Sound P (disableWhere s ok) :=
  sound_foldl (fun _ _ hx => sound_disableQueue hx) h

theorem sound_haltQueue (h : Sound P s) : Sound P (haltQueue s q) := sound_setQueue (sound_endAll h)

/-! ### Mailboxes -/

theorem sound_replyDetails {r : Reply} {r0 r1 : Nat} (he : replyDetails s r = (r0, (r1, t))) (h : Sound P s) : Sound P t := by
  unfold replyDetails at he
  dsimp only at he
  split at he
  · cases he
    exact sound_takeFree rfl h
  · cases he
    exact h

theorem sound_writeIndirect {M : Mailbox} (h : Sound P s) : Sound P (writeIndirect s fn M bs) := by
  unfold writeIndirect
  split
  · split
    · next hcall => exact sound_storeOnce hcall h
    · exact h
  · exact h

theorem sound_answer {r : Reply} (h : Sound P s) : Sound P (answer s fn m r) :=
  sound_ite (sound_raiseMsix (sound_setMbx (sound_ite (sound_writeIndirect (sound_replyDetails rfl h)) (sound_replyDetails rfl h)))) (sound_setMbx
    (sound_ite (sound_writeIndirect (sound_replyDetails rfl h)) (sound_replyDetails rfl h)))

theorem sound_useBody {M : Mailbox} (h : Sound P s) : Sound P (useBody s fn M) := by
  unfold useBody
  split
  · split
    · exact sound_useReads h
    · exact h
  · exact h

theorem sound_carryOut {run : State → Asked → Option Reply × State} (hs0 : Sound P s0)
    (krun : ∀ {x a r0 t}, run x a = (r0, t) → Sound P x → Sound P t) : Sound P (carryOut s0 fn m run) := by
  unfold carryOut
  dsimp only
  have hs : Sound P (if (mbxOf s0 fn m).begun then s0 else useBody s0 fn (mbxOf s0 fn m)) := sound_ite hs0 (sound_useBody hs0)
  generalize (if (mbxOf s0 fn m).begun then s0 else useBody s0 fn (mbxOf s0 fn m)) = s at hs ⊢
  split
  · exact sound_answer hs
  · split
    · exact sound_answer hs
    · split
      · exact sound_answer hs
      · split
        · next he => exact sound_answer (krun he hs)
        · next he => exact krun he hs

theorem sound_serve {code : Nat} {run : State → Asked → Option Reply × State} (h : Sound P s)
    (krun : ∀ {x : State} {a : Asked} {r0 : Option Reply} {t : State}, run x a = (r0, t) → Sound P x → Sound P t) :
    Sound P (serve s fn m code run) :=
  sound_ite (sound_carryOut (sound_setMbx h) krun) h

/-! ### PartRequests -/

theorem sound_dropPages (h : Sound P s) : Sound P (dropPages s p) := sound_same h rfl rfl rfl rfl

theorem sound_freeStreams {lo : Nat} (h : Sound P s) : Sound P (freeStreams s lo n) :=
  sound_same (sound_foldl (fun _ _ hx => sound_leaveCohort hx) h) rfl rfl rfl rfl

theorem sound_clearField {c : PartCfg} (h : Sound P s) : Sound P (clearField s c) := by
  refine ⟨fun hi => ?_, h.boot⟩
  obtain ⟨⟨hp, hh, hr, hc⟩, ⟨he, hb, ha, ht, hs⟩, hz⟩ := h.ok hi
  exact ⟨⟨filter_wf _ hp, hh, hr, hc⟩, ⟨he, hb, ha, filter_wf _ ht, hs⟩, hz⟩

theorem sound_partitionConfigured {c : PartCfg} (h : Sound anyBoot s) : Sound anyBoot (partitionConfigured s p c bs) :=
  sound_trimAll (sound_newBoot (sound_foldl (fun _ _ hx => sound_setChannel hx) (sound_setPart (sound_clearField (sound_freeStreams
    (sound_dropPages (sound_takeFree rfl h)))))) rfl rfl rfl)

theorem sound_runPartitionConfig {r0 : Option Reply} (he : runPartitionConfig s a = (r0, t)) (h : Sound anyBoot s) : Sound anyBoot t := by
  unfold runPartitionConfig at he
  dsimp only at he
  split at he
  · cases he
    exact h
  · cases he
    exact sound_partitionConfigured h

theorem sound_partitionRemoved (h : Sound P s) : Sound P (partitionRemoved s p) :=
  sound_setPart (sound_dropPages (sound_mem (sound_freeStreams (sound_drainWhere (sound_foldl (fun _ _ hx => sound_setChannel
    (sound_disableChannel hx)) (sound_disableWhere h)))) rfl rfl rfl id))

theorem sound_runPartitionRemove {r0 : Option Reply} (he : runPartitionRemove s a = (r0, t)) (h : Sound P s) : Sound P t := by
  unfold runPartitionRemove at he
  dsimp only at he
  split at he
  · cases he
    exact h
  · cases he
    exact sound_partitionRemoved h

theorem sound_runQueueEnable {r0 : Option Reply} (he : runQueueEnable s a = (r0, t)) (h : Sound P s) : Sound P t := by
  unfold runQueueEnable at he
  dsimp only at he
  split at he
  · cases he
    exact h
  · split at he
    · cases he
      exact h
    · split at he
      · cases he
        exact h
      · cases he
        exact sound_setQueue h

theorem sound_runQueueDisable {r0 : Option Reply} (he : runQueueDisable s a = (r0, t)) (h : Sound P s) : Sound P t := by
  unfold runQueueDisable at he
  dsimp only at he
  split at he
  · cases he
    exact h
  · cases he
    exact sound_disableQueue h

theorem sound_runQueueResume {r0 : Option Reply} (he : runQueueResume s a = (r0, t)) (h : Sound P s) : Sound P t := by
  unfold runQueueResume at he
  dsimp only at he
  split at he
  · cases he
    exact h
  · cases he
    exact sound_setQueue h

theorem sound_runQueueAbort {r0 : Option Reply} (he : runQueueAbort s a = (r0, t)) (h : Sound P s) : Sound P t := by
  unfold runQueueAbort at he
  dsimp only at he
  split at he
  · cases he
    exact h
  · cases he
    exact sound_abortRange rfl h

/-! ### MemRequests -/

theorem sound_zeroFrame {home : Home} (h : Sound P s) : Sound P (zeroFrame s home) := by
  unfold zeroFrame
  dsimp only
  split
  · exact h
  · exact sound_keyWhole (sound_mem h rfl rfl rfl (fun ⟨hp, hh, hr, hc⟩ => ⟨(memClear_wf _ _ hp), hh, hr, hc⟩))

theorem sound_mapPlot {home : Home} (h : Sound P s) : Sound P (mapPlot p fn bs s i home) := sound_setPart (sound_zeroFrame h)

theorem sound_plotsMapped (h : Sound P s) : Sound P (plotsMapped s p fn bs) := sound_foldl (fun _ _ hx => sound_mapPlot hx) (sound_charge h)

theorem sound_runPlotMap {r0 : Option Reply} (he : runPlotMap s a = (r0, t)) (h : Sound P s) : Sound P t := by
  unfold runPlotMap at he
  split at he
  · cases he
    exact h
  · cases he
    exact sound_plotsMapped h

theorem sound_queueUnmap {box : Nat} (h : Sound P s) : Sound P (queueUnmap p fn box s k) := sound_mem h rfl rfl rfl id

theorem sound_runPlotUnmap {r0 : Option Reply} (he : runPlotUnmap s a = (r0, t)) (h : Sound P s) : Sound P t := by
  unfold runPlotUnmap at he
  dsimp only at he
  split at he
  · cases he
    exact h
  · split at he
    · cases he
      exact h
    · split at he
      · cases he
        exact h
      · split at he
        · cases he
          exact h
        · split at he
          · cases he
            exact sound_setMbx (sound_runMover (sound_foldl (fun _ _ hx => sound_queueUnmap hx) h))
          · cases he
            exact sound_runMover (sound_foldl (fun _ _ hx => sound_queueUnmap hx) h)

theorem sound_runPlotQuery {r0 : Option Reply} (he : runPlotQuery s a = (r0, t)) (h : Sound P s) : Sound P t := by
  unfold runPlotQuery at he
  dsimp only at he
  split at he
  · cases he
    exact h
  · split at he
    · cases he
      exact h
    · cases he
      exact h

theorem sound_windowRemoved {w : Nat} (h : Sound P s) : Sound P (windowRemoved s p w) := by
  unfold windowRemoved
  dsimp only
  split
  · exact h
  · exact sound_setPart (sound_uncharge h)

theorem sound_windowMade {w : Nat} (h : Sound P s) : Sound P (windowMade s p w bs) :=
  sound_setPart (sound_foldl (fun _ _ hx => sound_zeroFrame hx) (sound_charge h))

theorem sound_runWindowSet {r0 : Option Reply} (he : runWindowSet s a = (r0, t)) (h : Sound P s) : Sound P t := by
  unfold runWindowSet at he
  dsimp only at he
  split at he
  · split at he
    · cases he
      exact h
    · cases he
      exact sound_windowRemoved h
  · split at he
    · cases he
      exact h
    · split at he
      · cases he
        exact h
      · split at he
        · cases he
          exact h
        · cases he
          exact sound_windowMade (sound_windowRemoved h)

theorem sound_runLayoutSet {r0 : Option Reply} (he : runLayoutSet s a = (r0, t)) (h : Sound P s) : Sound P t := by
  unfold runLayoutSet at he
  dsimp only at he
  split at he
  · cases he
    exact h
  · cases he
    exact sound_setPart h

theorem sound_runStreamQuery {r0 : Option Reply} (he : runStreamQuery s a = (r0, t)) (h : Sound P s) : Sound P t := by
  unfold runStreamQuery at he
  dsimp only at he
  split at he
  · cases he
    exact h
  · cases he
    exact h

theorem sound_poolReleased (h : Sound P s) : Sound P (poolReleased s p k) := by
  unfold poolReleased
  dsimp only
  split
  · exact h
  · exact sound_same (sound_setPart (sound_uncharge h)) rfl rfl rfl rfl

theorem sound_runKvPoolSet {r0 : Option Reply} (he : runKvPoolSet s a = (r0, t)) (h : Sound P s) : Sound P t := by
  unfold runKvPoolSet at he
  dsimp only at he
  split at he
  · split at he
    · cases he
      exact h
    · split at he
      · cases he
        exact h
      · split at he
        · cases he
          exact h
        · cases he
          exact sound_setPart (sound_charge (sound_poolReleased h))
  · split at he
    · cases he
      exact h
    · split at he
      · cases he
        exact h
      · split at he
        · cases he
          exact h
        · cases he
          exact sound_setPart (sound_charge (sound_poolReleased h))

theorem sound_freeQuad {r0 r1 r2 r3 : Nat} (he : freeQuad s = (r0, (r1, (r2, (r3, t))))) (h : Sound P s) : Sound P t := by
  unfold freeQuad at he
  dsimp only at he
  cases he
  exact sound_takeFree rfl h

theorem sound_pageBits {e : Option Page} {r0 : Nat} (he : pageBits s e = (r0, t)) (h : Sound P s) : Sound P t := by
  unfold pageBits at he
  dsimp only at he
  split at he
  · cases he
    exact sound_freeQuad rfl h
  · cases he
    exact sound_freeQuad rfl h

theorem sound_pageRecords : ∀ {ids : List Nat} {s : State} {r0 : List Byte} {t : State}, pageRecords K ids s = (r0, t) → Sound P s → Sound P t
  | [], _, _, _, he, h => by cases he; exact h
  | _ :: _, _, _, _, he, h => by
    unfold pageRecords at he
    cases he
    exact sound_pageRecords rfl (sound_pageBits rfl h)

theorem sound_runKvQuery {r0 : Option Reply} (he : runKvQuery s a = (r0, t)) (h : Sound P s) : Sound P t := by
  refine sound_of_pair he ?_
  unfold runKvQuery
  dsimp only
  split
  · split
    · exact h
    · split
      · exact h
      · split
        · exact h
        · exact sound_pageRecords rfl h
  · split
    · exact h
    · exact h
  · split
    · exact h
    · exact h
  · exact h

end

end Sys2Proof.Machine
end

section
/-! INVARIANT (continued). One lemma a function, in the order of the model. -/

namespace Sys2Proof.Machine

section
variable {P : Kept} {s t s0 : State} {p q e id slot fn key n i d units addr k stream m size off session : Nat} {harrow doe i3c : Bool}
variable {a : Asked} {r : Result} {st : Stream} {c : Cmd} {Q : Queue} {w : WordWrite} {cx : AttendCtx} {K : Pool} {bs : List Byte}

/-! ### PowerRows -/

theorem sound_setAclk {mhz : Nat} (h : Sound P s) : Sound P (setAclk s mhz) := by
  unfold setAclk
  dsimp only
  exact sound_setPwr h

theorem sound_leaveFloor (h : Sound P s) : Sound P (leaveFloor s) := sound_ite h (sound_setAclk h)

theorem sound_stepDown (h : Sound P s) : Sound P (stepDown s) := sound_setAclk h

theorem sound_stepUp (h : Sound P s) : Sound P (stepUp s) := sound_setAclk h

theorem sound_tighten (h : Sound P s) : Sound P (tighten s) :=
  sound_ite (sound_setPwr (sound_stepDown h)) (sound_ite (sound_setPwr h) (sound_ite (sound_setPwr (sound_stepDown h)) (sound_setPwr h)))

theorem sound_release (h : Sound P s) : Sound P (release s) :=
  sound_ite h (sound_ite (sound_ite (sound_setPwr h) (sound_ite h (sound_setPwr (sound_stepUp h)))) (sound_ite (sound_setPwr h) (sound_ite
    (sound_ite (sound_stepUp (sound_setPwr h)) (sound_setPwr h)) (sound_ite (sound_stepUp h) h))))

theorem sound_govern (h : Sound P s) : Sound P (govern s) :=
  sound_ite h (sound_ite (sound_setPwr h) (sound_ite (sound_tighten h) (sound_ite (sound_release h) h)))

theorem sound_coolDown (h : Sound P s) : Sound P (coolDown s) :=
  sound_ite h (sound_ite (sound_setPwr (sound_stepDown h)) (sound_ite (sound_stepDown h) h))

theorem sound_applyNext (h : Sound P s) : Sound P (applyNext s) := by
  unfold applyNext
  dsimp only
  split
  · exact h
  · split
    · split
      · exact sound_setAclk (sound_setPwr h)
      · exact sound_setPwr h
    · split
      · exact sound_setAclk (sound_setPwr h)
      · exact sound_setPwr h

theorem sound_recordEstimate {est : Nat} (h : Sound P s) : Sound P (recordEstimate s est) := sound_setPwr h

theorem sound_closeInterval (h : Sound P s) : Sound P (closeInterval s) := by
  unfold closeInterval
  dsimp only
  exact sound_setPwr h

theorem sound_sensorEvent {e : Nat × Sensor} (h : Sound P s) : Sound P (sensorEvent s e) := by
  unfold sensorEvent
  dsimp only
  split
  · exact h
  · split
    · exact sound_same h rfl rfl rfl rfl
    · exact h

theorem sound_platformEvents (h : Sound P s) : Sound P (platformEvents s) := sound_foldl (fun _ _ hx => sound_sensorEvent hx) h

theorem sound_estimationInterval {est : Nat} (h : Sound P s) : Sound P (estimationInterval s est) := by
  unfold estimationInterval
  dsimp only
  split
  · exact h
  · exact sound_platformEvents (sound_applyNext (sound_ite (sound_coolDown (sound_govern (sound_recordEstimate (sound_closeInterval
      (sound_settleBuckets h))))) (sound_govern (sound_recordEstimate (sound_closeInterval (sound_settleBuckets h))))))

theorem sound_leaveWaiting {x : SlewUnit} (h : Sound P s) : Sound P (leaveWaiting s x) := sound_setPwr h

theorem sound_admitWaiting : ∀ {n : Nat} {s : State}, Sound P s → Sound P (admitWaiting n s)
  | 0, _, h => h
  | _ + 1, _, h => by
    unfold admitWaiting
    split
    · exact h
    · split
      · exact sound_admitWaiting (sound_leaveWaiting h)
      · split
        · exact sound_admitWaiting (sound_takeItem (sound_drawUnit (sound_setPwr (sound_leaveWaiting h))))
        · exact h

theorem sound_slewWindow (h : Sound P s) : Sound P (slewWindow s) := sound_ite h (sound_releaseBallast (sound_admitWaiting (sound_setPwr h)))

theorem sound_droopTrip {f : Nat} (h : Sound P s) : Sound P (droopTrip s f) := sound_ite h (sound_setPwr h)

theorem sound_droopRelease {f : Nat} (h : Sound P s) : Sound P (droopRelease s f) := by
  unfold droopRelease
  dsimp only
  split
  · exact h
  · exact sound_setPwr h

theorem sound_latchAlert (h : Sound P s) : Sound P (latchAlert s) := sound_setPwr (sound_setAclk h)

theorem sound_vrAlertAssert {ns : Nat} (h : Sound P s) : Sound P (vrAlertAssert s ns) :=
  sound_ite h (sound_ite (sound_latchAlert h) (sound_ite (sound_latchAlert (sound_takeFree rfl h)) (sound_takeFree rfl h)))

theorem sound_vrAlertDeassert (h : Sound P s) : Sound P (vrAlertDeassert s) := sound_ite (sound_setPwr h) h

theorem sound_vrAlertHoldEnd (h : Sound P s) : Sound P (vrAlertHoldEnd s) := by
  unfold vrAlertHoldEnd
  split
  · split
    · exact sound_leaveFloor (sound_setPwr h)
    · exact h
  · exact h

theorem sound_lostAll {dev : DevSt} (h : Sound anyBoot s) : Sound anyBoot (lostAll s dev) := by
  obtain ⟨⟨-, hh, hr, -⟩, -, hz⟩ := h.ok trivial
  obtain ⟨⟨⟨hp, -, -, hc⟩, hf, hz0⟩, -⟩ := resetMeetsInvariant
  have hfns : (List.zipWith (fun f old => { f with sent := old.sent }) noPcie.fns s.pcie.fns).length = 5 := by
    simp only [sizes, List.cons.injEq] at hz
    obtain ⟨-, -, -, -, hlen, -⟩ := hz
    rw [List.length_zipWith, hlen]
    rfl
  simp only [sizes, List.cons.injEq] at hz0
  obtain ⟨hq, hparts, hdrill, hfn, -⟩ := hz0
  refine ⟨fun _ => ⟨⟨hp, hh, hr, hc⟩, hf, ?_⟩, trivial⟩
  simp only [sizes, List.cons.injEq]
  exact ⟨hq, hparts, hdrill, hfn, hfns, rfl, rfl, trivial⟩

theorem sound_hardTrip (h : Sound anyBoot s) : Sound anyBoot (hardTrip s) := sound_same (sound_lostAll h) rfl rfl rfl rfl

theorem sound_sensedTemps {furrow stack : Nat} (h : Sound P s) : Sound P (sensedTemps s furrow stack).2.2 := by
  unfold sensedTemps
  dsimp only
  refine sound_foldOf (fun y : Nat × Nat × State => y.2.2) (fun y a hy => ?_) h
  split
  · next he =>
    split
    · exact sound_injected he hy
    · exact sound_injected he hy
  · exact hy

theorem sound_thermalHold {furrow stack : Nat} (h : Sound P s) : Sound P (thermalHold s furrow stack) :=
  sound_ite (sound_setPwr (sound_setAclk h)) (sound_ite (sound_leaveFloor (sound_setPwr h)) h)

theorem sound_thermalSample {furrow stack : Nat} (h : Sound anyBoot s) : Sound anyBoot (thermalSample s furrow stack) := by
  have hs : Sound anyBoot (sensedTemps s furrow stack).2.2 := sound_sensedTemps h
  unfold thermalSample
  split
  · exact h
  · dsimp only
    generalize (sensedTemps s furrow stack) = x at hs ⊢
    exact sound_ite (sound_hardTrip hs) (sound_platformEvents (sound_thermalHold (sound_setPwr (sound_settleBuckets hs))))

theorem sound_runPwrConfig {r0 : Option Reply} (he : runPwrConfig s a = (r0, t)) (h : Sound P s) : Sound P t := by
  unfold runPwrConfig at he
  dsimp only at he
  split at he
  · cases he
    exact h
  · cases he
    exact sound_setPwr h

/-! ### Faults -/

theorem sound_withdraw (h : Sound P s) : Sound P (withdraw s harrow i) :=
  sound_enterBallast (sound_setPwr (sound_same h rfl rfl (by simp [sizes]) rfl))

theorem sound_withdrawFurrow {f : Nat} (h : Sound P s) : Sound P (withdrawFurrow s f) := sound_withdraw (sound_withdraw (sound_withdraw h))

theorem sound_haltDevice (h : Sound P s) : Sound P (haltDevice s) :=
  sound_raiseEventAll (sound_setFlt (sound_foldl (fun _ _ hx => sound_raiseEvent (sound_haltQueue hx)) h))

theorem sound_fenceUnit {u : FailUnit} (h : Sound P s) : Sound P (fenceUnit s u) := by
  unfold fenceUnit
  dsimp only
  refine sound_tellFence ?_
  split
  · exact sound_withdraw (sound_setFlt h)
  · exact sound_withdrawFurrow (sound_setFlt h)
  · exact sound_haltDevice h
  · exact sound_markFenced h

theorem sound_fenceFirst (h : Sound P s) : Sound P (fenceFirst s) := by
  unfold fenceFirst
  split
  · exact sound_fenceUnit h
  · exact h

theorem sound_latchFailure {u : FailUnit} {det : Nat} {inj : Bool} (h : Sound P s) : Sound P (latchFailure s u det inj) :=
  sound_ite h (sound_ite (sound_fenceFirst (sound_joinHandling h)) (sound_joinHandling h))

theorem sound_injectedAt {u : FailUnit} {det : Nat} {r0 : Bool} (he : injectedAt s u det = (r0, t)) (h : Sound P s) : Sound P t := by
  unfold injectedAt at he
  split at he
  · cases he
    exact h
  · split at he
    · exact sound_injected he h
    · cases he
      exact h

theorem sound_freeStream (h : Sound P s) : Sound P (freeStream s id) :=
  sound_same (sound_releaseKv (sound_freeImage (sound_leaveCohort h))) rfl rfl rfl rfl

theorem sound_streamLine (h : Sound P s) : Sound P (streamLine s n) := by
  unfold streamLine
  dsimp only
  split
  · exact h
  · split
    · exact h
    · exact sound_freeStream (sound_takeFree rfl h)

theorem sound_endFault {a : Nat} (h : Sound P s) : Sound P (endFault s q a) := by
  unfold endFault
  dsimp only
  split
  · exact h
  · split
    · exact sound_endEarly (sound_discardItems h)
    · exact h

theorem sound_poisonSome {line : Nat → Nat} (h : Sound P s) : Sound P (poisonSome s line) := sound_poisonLine (sound_takeFree rfl h)

theorem sound_detect {u : FailUnit} {det : Nat} {inj : Bool} (h : Sound P s) : Sound P (detect s u det inj) := by
  unfold detect
  dsimp only
  split
  · split
    · exact sound_endFault h
    · exact h
  · exact sound_countLoamLine (sound_poisonSome h)
  · exact sound_streamLine h
  · split
    · exact sound_latchFailure (sound_secondLine rfl h)
    · exact sound_secondLine rfl h
  · exact sound_countSubCorrected h
  · exact sound_countSubLine (sound_poisonSome h)
  · exact h
  · exact h
  · exact h
  · exact h
  · exact sound_latchFailure h

theorem sound_faultLatch {u : FailUnit} {det : Nat} (h : Sound P s) : Sound P (faultLatch s u det) :=
  sound_ite h (sound_detect (sound_countEvent (sound_injectedAt rfl h)))

theorem sound_scrubFinds {j line found r0 : Nat} {r1 : Bool} (he : scrubFinds s j line found = (r0, (r1, t))) (h : Sound P s) : Sound P t := by
  unfold scrubFinds at he
  split at he
  · next hcall1 =>
      cases he
      exact sound_injected hcall1 h
  · split at he
    · next hcall2 =>
        cases he
        exact sound_injected hcall2 h
    · cases he
      exact h

theorem sound_patrolScrub {found : Nat} (h : Sound P s) : Sound P (patrolScrub s addr found) := by
  unfold patrolScrub
  dsimp only
  split
  · exact h
  · split
    · exact sound_setSub (sound_ite (sound_countSubLine (sound_poisonLine (sound_scrubFinds rfl h))) (sound_ite (sound_countSubCorrected
        (sound_scrubFinds rfl h)) (sound_ite (sound_setSub (sound_scrubFinds rfl h)) (sound_scrubFinds rfl h))))
    · split
      · exact sound_countSubLine (sound_poisonLine (sound_scrubFinds rfl h))
      · split
        · exact sound_countSubCorrected (sound_scrubFinds rfl h)
        · split
          · exact sound_setSub (sound_scrubFinds rfl h)
          · exact sound_scrubFinds rfl h

theorem sound_endHolders {es : List Nat} (h : Sound P s) : Sound P (endHolders s es) := by
  unfold endHolders
  refine sound_foldl (fun _ _ hx => ?_) h
  split
  · split
    · exact hx
    · exact sound_endFault hx
  · exact hx

theorem sound_loseStates {es : List Nat} (h : Sound P s) : Sound P (loseStates s es) :=
  sound_foldl (fun _ _ hx => sound_endFault hx) (sound_foldl (fun _ _ hx => sound_toLost hx) h)

theorem sound_redispatchItem {it : Item} (h : Sound P s) : Sound P (redispatchItem s it) := by
  unfold redispatchItem
  split
  · exact h
  · exact sound_setQueue h

theorem sound_emptyEngine (h : Sound P s) : Sound P (emptyEngine s e) :=
  sound_setEngine (sound_setHarrow (sound_same (sound_foldl (fun _ _ hx => sound_redispatchItem hx) h) rfl rfl (by simp [sizes]) rfl))

theorem sound_emptyHarrow {f : Nat} (h : Sound P s) : Sound P (emptyHarrow s f) :=
  sound_setHarrow (sound_same (sound_foldl (fun _ _ hx => sound_redispatchItem hx) h) rfl rfl (by simp [sizes]) rfl)

theorem sound_loseEngines {es : List Nat} (h : Sound P s) : Sound P (loseEngines s es) :=
  sound_foldl (fun _ _ hx => sound_emptyEngine hx) (sound_loseStates (sound_endHolders h))

theorem sound_loseSlice (h : Sound P s) : Sound P (loseSlice s n) :=
  sound_ite (sound_foldl (fun _ _ hx => sound_freeStream hx) h) (sound_setFlt h)

theorem sound_shrinkQuotas (h : Sound P s) : Sound P (shrinkQuotas s) := by
  unfold shrinkQuotas
  dsimp only
  exact sound_same h rfl rfl (by simp [sizes]) rfl

theorem sound_recover {u : FailUnit} (h : Sound P s) : Sound P (recover s u) := by
  unfold recover
  split
  · exact sound_loseEngines h
  · exact sound_emptyHarrow (sound_loseEngines h)
  · exact sound_shrinkQuotas (sound_loseSlice h)
  · exact sound_shrinkQuotas h
  · exact sound_shrinkQuotas h
  · exact h
  · exact h
  · exact h

theorem sound_faultSettleDone (h : Sound P s) : Sound P (faultSettleDone s) := by
  unfold faultSettleDone
  split
  · split
    · exact sound_setFlt (sound_recover h)
    · exact h
  · exact h

theorem sound_rehomeMove (h : Sound P s) : Sound P (rehomeMove p s k) := by
  unfold rehomeMove
  split
  · exact h
  · exact sound_queueMove h

theorem sound_rehomePlots (h : Sound P s) : Sound P (rehomePlots s p) := sound_foldl (fun _ _ hx => sound_rehomeMove hx) h

theorem sound_retarget {m : Move} (h : Sound P s) : Sound P (retarget s m) := by
  unfold retarget
  dsimp only
  split
  · exact sound_mem h rfl rfl rfl id
  · exact h

theorem sound_rehomeImage (h : Sound P s) : Sound P (rehomeImage s id) := by
  unfold rehomeImage
  dsimp only
  split
  · exact h
  · split
    · exact h
    · split
      · exact h
      · split
        · exact sound_setStream (sound_foldl (fun _ _ hx => sound_copyFrame hx) h)
        · exact sound_toLost (sound_setStream (sound_foldl (fun _ _ hx => sound_copyFrame hx) h))

theorem sound_setSlotOf {w : Nat} {f : WinSlot → WinSlot} (h : Sound P s) : Sound P (setSlotOf s p w i f) := sound_setPart h

theorem sound_rehomeSlot {w j f : Nat} (h : Sound P s) : Sound P (rehomeSlot s p w i j f) := by
  unfold rehomeSlot
  dsimp only
  split
  · exact h
  · exact sound_setSlotOf (sound_copyFrame h)

theorem sound_rehomeWindows (h : Sound P s) : Sound P (rehomeWindows s p) := sound_foldl (fun _ _ hx => sound_rehomeSlot hx) h

theorem sound_rehomePoolFrame {loam : Bool} {j f : Nat} (h : Sound P s) : Sound P (rehomePoolFrame s p k loam j f) := by
  unfold rehomePoolFrame
  dsimp only
  split
  · exact sound_setPool (sound_foldl (fun _ _ hx => sound_dropPage hx) (sound_ite h (sound_copyFrame (sound_drainFrame h))))
  · exact h

theorem sound_rehomePools (h : Sound P s) : Sound P (rehomePools s p) := sound_foldl (fun _ _ hx => sound_rehomePoolFrame hx) h

theorem sound_endScratch (h : Sound P s) : Sound P (endScratch s n) :=
  sound_foldl (fun _ _ hx => sound_ite (sound_endFault (sound_takeFree rfl hx)) (sound_takeFree rfl hx)) h

theorem sound_rehomeAll (h : Sound P s) : Sound P (rehomeAll s) :=
  sound_runMover (sound_foldl (fun _ _ hx => sound_rehomeImage hx) (sound_foldl (fun _ _ hx => sound_rehomePools (sound_rehomeWindows
    (sound_rehomePlots hx))) (sound_foldl (fun _ _ hx => sound_retarget hx) h)))

theorem sound_rehomeUnit {u : FailUnit} (h : Sound P s) : Sound P (rehomeUnit s u) := by
  unfold rehomeUnit
  split
  · exact sound_rehomeAll (sound_endScratch h)
  · exact sound_rehomeAll h
  · exact sound_rehomeAll h
  · exact h

theorem sound_logFault {h0 : Handling} (h : Sound P s) : Sound P (logFault s h0) := sound_setFlt h

theorem sound_faultRelease (h : Sound P s) : Sound P (faultRelease s) := by
  unfold faultRelease
  split
  · split
    · exact sound_fenceFirst (sound_rehomeUnit (sound_logFault (sound_setFlt h)))
    · exact h
  · exact h

/-! ### Bist -/

theorem sound_setBist {f : Bist → Bist} (h : Sound P s) : Sound P (setBist s f) := sound_setFlt h

theorem sound_claimTarget {col : Nat} (h : Sound P s) : Sound P (claimTarget s col) := by
  unfold claimTarget
  split
  · exact h
  · exact sound_setBist h

theorem sound_bistSlice (h : Sound P s) : Sound P (bistSlice s) := by
  unfold bistSlice
  dsimp only
  split
  · exact h
  · split
    · exact sound_setBist h
    · split
      · exact sound_setBist (sound_setBist h)
      · exact sound_foldl (fun _ _ hx => sound_claimTarget hx) (sound_setBist (sound_setBist h))

theorem sound_addWait (h : Sound P s) : Sound P (addWait s) := by
  unfold addWait
  dsimp only
  exact sound_setBist (sound_takeFree rfl h)

theorem sound_testFails {u : FailUnit} (h : Sound P s) : Sound P (testFails s u) := sound_latchFailure (sound_countEvent (sound_setBist h))

theorem sound_bistTargetTest {col : Nat} {passed : Bool} (h : Sound P s) : Sound P (bistTargetTest s col passed) := by
  unfold bistTargetTest
  dsimp only
  split
  · exact h
  · split
    · exact h
    · split
      · split
        · exact sound_setBist (sound_setBist h)
        · exact h
      · split
        · split
          · exact sound_addWait (sound_setBist h)
          · exact sound_setBist h
        · exact sound_testFails (sound_ite (sound_addWait (sound_setBist h)) (sound_setBist h))

theorem sound_fullTest {failing : List FailUnit} (h : Sound P s) : Sound P (fullTest s failing) :=
  sound_foldl (fun _ _ hx => sound_testFails hx) h

theorem signMsg_eq (s : State) (msg : List Byte) : ∃ sig, signMsg s msg = (sig, (takeFree s 1).2) := ⟨_, rfl⟩

theorem sound_signMsg {msg r0 : List Byte} (he : signMsg s msg = (r0, t)) (h : Sound P s) : Sound P t := by
  obtain ⟨sig, hsig⟩ := signMsg_eq s msg
  rw [hsig] at he
  exact sound_of_pair he (sound_taken h)

theorem sound_writeReport (h : Sound P s) : Sound P (writeReport s addr) := by
  obtain ⟨sig, hsig⟩ := signMsg_eq s (reportBody s)
  have hs := sound_taken (n := 1) h
  simp only [writeReport, hsig]
  generalize (takeFree s 1).2 = u at hs ⊢
  generalize reportBody s ++ sig = bs
  exact sound_mem hs rfl rfl rfl fun ⟨hp, hh, hr, hc⟩ => ⟨hp, memWrite_wf _ _ hh, hr, hc⟩

theorem sound_applyReport (h : Sound P s) : Sound P (applyReport s bs) := by
  unfold applyReport
  dsimp only
  exact sound_setBist (sound_foldl (fun _ _ hx => sound_ite hx (sound_recover (sound_fenceUnit hx))) h)

theorem sound_duringFull {finish : State → Reply × State} {r0 : Option Reply} (he : duringFull s a finish = (r0, t)) (h : Sound P s)
    (kfinish : ∀ {x r u}, finish x = (r, u) → Sound P x → Sound P u) : Sound P t := by
  refine sound_of_pair he ?_
  unfold duringFull
  split
  · exact kfinish rfl (sound_setBist h)
  · split
    · exact h
    · exact sound_ite h (sound_setMbx (sound_setBist h))

theorem sound_endFull (h : Sound P s) : Sound P (endFull s fn m) := sound_ite (sound_setBist h) h

theorem sound_runBist {failing : List FailUnit} {r0 : Option Reply} (he : runBist failing s a = (r0, t)) (h : Sound anyBoot s) :
    Sound anyBoot t := by
  unfold runBist at he
  dsimp only at he
  split at he
  · cases he; exact h
  · split at he
    · cases he; exact sound_setBist h
    · cases he; exact h
  · split at he
    · cases he; exact sound_setBist h
    · cases he; exact h
  · refine sound_duringFull he h fun hf hx => ?_
    cases hf; exact sound_fullTest hx
  · refine sound_duringFull he h fun hf hx => ?_
    split at hf
    · cases hf; exact sound_writeReport (sound_fullTest hx)
    · cases hf; exact sound_fullTest hx
  · split at he
    · cases he; exact h
    · split at he
      · cases he; exact h
      · split at he
        · cases he; exact sound_applyReport h
        · cases he; exact h
  · cases he; exact h

theorem sound_fireAtOnce {x : Inj} (h : Sound P s) : Sound P (fireAtOnce s x) :=
  sound_ite (sound_faultLatch h) (sound_ite (sound_droopTrip (sound_noteInjected h)) (sound_ite (sound_vrAlertAssert (sound_noteInjected h))
    (sound_ite (sound_linkDown (sound_noteInjected h)) h)))

theorem sound_armSlot {x : Inj} (h : Sound P s) : Sound P (armSlot s slot x) := sound_fireAtOnce (sound_setFlt h)

theorem sound_runInject {r0 : Option Reply} (he : runInject s a = (r0, t)) (h : Sound P s) : Sound P t := by
  unfold runInject at he
  dsimp only at he
  split at he
  · cases he
    exact h
  · split at he
    · cases he
      exact h
    · split at he
      · cases he
        exact h
      · split at he
        · cases he
          exact sound_setFlt h
        · split at he
          · cases he
            exact h
          · cases he
            split
            · exact sound_armSlot (sound_setFlt (sound_setFlt h))
            · exact sound_setFlt (sound_setFlt h)

theorem sound_injectArm (h : Sound P s) : Sound P (injectArm s slot) := by
  unfold injectArm
  split
  · split
    · exact sound_armSlot h
    · exact h
  · exact h

/-! ### DeviceRequests -/

theorem sound_zeroChannel {j : Nat} (h : Sound P s) : Sound P (zeroChannel s j) :=
  sound_mem h rfl rfl rfl (fun ⟨hp, hh, hr, hc⟩ => ⟨(filter_wf _ hp), hh, hr, hc⟩)

theorem sound_runMargin {f : Margin} {r0 : Option Reply} (he : runMargin f s a = (r0, t)) (h : Sound P s) : Sound P t := by
  unfold runMargin at he
  dsimp only at he
  split at he
  · cases he
    exact h
  · split at he
    · cases he
      exact sound_latchFailure (sound_countEvent h)
    · cases he
      exact sound_same (sound_zeroChannel h) rfl rfl rfl rfl

theorem sound_runTickConfig {r0 : Option Reply} (he : runTickConfig s a = (r0, t)) (h : Sound P s) : Sound P t := by
  unfold runTickConfig at he
  split at he
  · cases he
    exact h
  · split at he
    · cases he
      exact h
    · cases he
      exact sound_tickConfigured h

theorem sound_setBlobKey {k : BlobKey} (h : Sound P s) : Sound P (setBlobKey s p slot k) := sound_setPart h

theorem sound_runBlobKeySet {r0 : Option Reply} (he : runBlobKeySet s a = (r0, t)) (h : Sound P s) : Sound P t := by
  unfold runBlobKeySet at he
  dsimp only at he
  split at he
  · cases he
    exact h
  · split at he
    · cases he
      exact sound_setPart h
    · split at he
      · cases he
        exact sound_setBlobKey (sound_takeFree rfl h)
      · split at he
        · cases he
          exact h
        · split at he
          · cases he
            exact h
          · cases he
            exact sound_setBlobKey h

/-! ### Firmware -/

theorem sound_startReeves (h : Sound anyBoot s) : Sound anyBoot (startReeves s) := by
  unfold startReeves
  split
  · exact sound_setBoot h
  · exact h

theorem sound_writeBank {bank : Nat} {i : Image} (h : Sound anyBoot s) : Sound anyBoot (writeBank s bank i) := sound_setBoot h

theorem sound_startImage {i : Image} (h : Sound anyBoot s) : Sound anyBoot (startImage s i) := sound_setBoot h

theorem sound_runFwInfo {a : Asked} {r0 : Option Reply} (he : runFwInfo s a = (r0, t)) (h : Sound P s) : Sound P t := by
  unfold runFwInfo at he
  cases he
  exact h

theorem sound_beginUpdate {i : Image} (h : Sound anyBoot s) : Sound anyBoot (beginUpdate s a i) := sound_setBoot h

theorem sound_runFwUpdate {found : Fetched} {r0 : Option Reply} (he : runFwUpdate found s a = (r0, t)) (h : Sound anyBoot s) :
    Sound anyBoot t := by
  unfold runFwUpdate at he
  dsimp only at he
  split at he
  · cases he
    exact h
  · split at he
    · cases he
      exact h
    · split at he
      · cases he
        exact h
      · split at he
        · cases he
          exact sound_noteInjected h
        · cases he
          exact sound_noteInjected h
        · split at he
          · cases he
            exact sound_writeBank h
          · split at he
            · cases he
              exact sound_writeBank h
            · cases he
              exact sound_beginUpdate (sound_writeBank h)

theorem sound_setStage {u : Update} {st : UpdSt} (h : Sound anyBoot s) : Sound anyBoot (setStage s u st) := sound_setBoot h

theorem sound_updateQuiesced (h : Sound anyBoot s) : Sound anyBoot (updateQuiesced s) := by
  unfold updateQuiesced
  split
  · split
    · exact sound_setStage h
    · exact h
  · exact h

theorem sound_updateSwitch (h : Sound anyBoot s) : Sound anyBoot (updateSwitch s) := by
  unfold updateSwitch
  split
  · split
    · exact sound_setStage (sound_startReeves (sound_setBoot (sound_startImage h)))
    · exact h
  · exact h

theorem sound_buildAll (h : Sound P s) : Sound P (buildAll s) := sound_foldl (fun _ _ hx => sound_buildPage hx) h

theorem sound_drainAll (h : Sound P s) : Sound P (drainAll s) := sound_foldl (fun _ _ hx => sound_drainTraps hx) h

theorem sound_updateRestored (h : Sound anyBoot s) : Sound anyBoot (updateRestored s) := by
  unfold updateRestored
  dsimp only
  split
  · split
    · exact sound_drainAll (sound_answer (sound_setBoot (sound_buildAll h)))
    · exact h
  · exact h

theorem sound_stopReeve {r : Nat} (h : Sound anyBoot s) : Sound anyBoot (stopReeve s r) := sound_raiseEventAll (sound_setBoot h)

theorem sound_holdRequest {r : Nat} {held : Option (Nat × Nat)} (h : Sound P s) : Sound P (holdRequest s r held) := by
  unfold holdRequest
  split
  · split
    · exact sound_setMbx h
    · exact h
  · exact h

theorem sound_endUpdate {r : Nat} (h : Sound anyBoot s) : Sound anyBoot (endUpdate s r) := by
  unfold endUpdate
  dsimp only
  split
  · exact h
  · exact sound_setMbx (sound_setBoot (sound_ite (sound_startReeves (sound_setBoot (sound_startImage h))) h))

theorem sound_failFirmware (h : Sound anyBoot s) : Sound anyBoot (failFirmware s) := sound_setBoot h

theorem sound_restartReeve {r : Nat} (h : Sound anyBoot s) : Sound anyBoot (restartReeve s r) := by
  unfold restartReeve
  split
  · exact sound_setBoot h
  · exact h

theorem sound_watchdogExpiry {r : Nat} {hashOk : Bool} {held : Option (Nat × Nat)} (h : Sound anyBoot s) :
    Sound anyBoot (watchdogExpiry s r hashOk held) := by
  unfold watchdogExpiry
  dsimp only
  split
  · split
    · exact sound_failFirmware (sound_endUpdate (sound_holdRequest (sound_stopReeve (sound_noteInjected (sound_noteInjected h)))))
    · exact sound_restartReeve (sound_endUpdate (sound_holdRequest (sound_stopReeve (sound_noteInjected (sound_noteInjected h)))))
  · exact h

theorem mem_of_lookupKey {α : Type} {v : α} : ∀ {xs : List (Nat × α)}, lookupKey k xs = some v → (k, v) ∈ xs
  | [], h => nomatch h
  | (i, _) :: _, h => by
    unfold lookupKey at h
    split at h
    · next hi => cases h; exact hi ▸ List.mem_cons_self
    · exact List.mem_cons_of_mem _ (mem_of_lookupKey h)

theorem sound_requestRun {code : Nat} {run : State → Asked → Option Reply × State} (hrun : requestRun code = some run) {x : State}
    {r0 : Option Reply} (he : run x a = (r0, t)) (h : Sound anyBoot x) : Sound anyBoot t := by
  have hmem := mem_of_lookupKey hrun
  simp only [List.mem_cons, List.not_mem_nil, or_false, Prod.mk.injEq] at hmem
  obtain ⟨-, rfl⟩ | ⟨-, rfl⟩ | ⟨-, rfl⟩ | ⟨-, rfl⟩ | ⟨-, rfl⟩ | ⟨-, rfl⟩ | ⟨-, rfl⟩ | ⟨-, rfl⟩ | ⟨-, rfl⟩ | ⟨-, rfl⟩ | ⟨-, rfl⟩ | ⟨-, rfl⟩ |
    ⟨-, rfl⟩ | ⟨-, rfl⟩ | ⟨-, rfl⟩ | ⟨-, rfl⟩ | ⟨-, rfl⟩ | ⟨-, rfl⟩ | ⟨-, rfl⟩ := hmem
  · exact sound_runFwInfo he h
  · exact sound_runPartitionConfig he h
  · exact sound_runPartitionRemove he h
  · exact sound_runQueueEnable he h
  · exact sound_runQueueDisable he h
  · exact sound_runQueueResume he h
  · exact sound_runQueueAbort he h
  · exact sound_runLayoutSet he h
  · exact sound_runStreamQuery he h
  · exact sound_runKvPoolSet he h
  · exact sound_runKvQuery he h
  · exact sound_runPlotMap he h
  · exact sound_runPlotUnmap he h
  · exact sound_runPlotQuery he h
  · exact sound_runWindowSet he h
  · exact sound_runTickConfig he h
  · exact sound_runBlobKeySet he h
  · exact sound_runPwrConfig he h
  · exact sound_runInject he h

theorem sound_finishUnmaps : ∀ {n : Nat} {s : State}, Sound P s → Sound P (finishUnmaps fn m n s)
  | 0, _, h => h
  | _ + 1, _, h => by
    unfold finishUnmaps
    dsimp only
    split
    · exact sound_finishUnmaps (sound_plotMoveCommit h)
    · exact h

theorem sound_finishFull (h : Sound P s) : Sound P (finishFull s fn m) := sound_ite (sound_fullTest (sound_takeFree rfl h)) h

theorem sound_finishEntry (he : finishEntry s fn m = some t) (h : Sound anyBoot s) : Sound anyBoot t := by
  unfold finishEntry at he
  dsimp only at he
  split at he
  · next hrun =>
    split at he
    · cases he
    · split at he
      · next hr =>
        split at he
        · cases he; exact sound_requestRun hrun hr h
        · cases he
      · next hr =>
        split at he
        · cases he; exact sound_finishUnmaps (sound_requestRun hrun hr h)
        · cases he
  · cases he

theorem sound_recoverBox {finish : Bool} {box : Nat × Nat} (hs0 : Sound anyBoot s0) : Sound anyBoot (recoverBox finish s0 box) := by
  unfold recoverBox
  dsimp only
  have hs := sound_endFull (fn := box.1) (m := box.2) hs0
  split
  · next he =>
    split at he
    · exact sound_answer (sound_finishEntry he hs)
    · cases he
  · exact sound_answer hs

theorem sound_watchdogRecoveryDone {r : Nat} {finish : Bool} (h : Sound anyBoot s) : Sound anyBoot (watchdogRecoveryDone s r finish) :=
  sound_ite (sound_setBoot (sound_foldl (fun _ _ hx => sound_recoverBox hx) h)) h

theorem sound_fwAliveSet (h : Sound anyBoot s) : Sound anyBoot (fwAliveSet s) := sound_ite (sound_drainAll (sound_setBoot h)) h

theorem sound_fwReadySet (h : Sound anyBoot s) : Sound anyBoot (fwReadySet s) := sound_ite (sound_setBoot (sound_buildAll h)) h

/-! ### Startup -/

theorem sound_perstRelease {strap : Nat} (h : Sound anyBoot s) : Sound anyBoot (perstRelease s strap) := sound_ite (sound_newBoot h rfl rfl rfl) h

theorem sound_clockLock (h : Sound anyBoot s) : Sound anyBoot (clockLock s) := sound_ite (sound_setBoot (sound_setAclk h)) h

theorem sound_randomSourceDone {ok : Bool} (h : Sound anyBoot s) : Sound anyBoot (randomSourceDone s ok) := by
  unfold randomSourceDone
  refine sound_ite (sound_mem (s := setBoot (takeFree s 1).2 fun b => { b with rngDone := true, rngOk := ok }) ?_ rfl rfl rfl id) h
  exact sound_setBoot (sound_takeFree rfl h)

theorem sound_loamZeroDone (h : Sound anyBoot s) : Sound anyBoot (loamZeroDone s) := by
  unfold loamZeroDone
  refine sound_ite (sound_mem (s := setBoot s fun b => { b with loamZeroed := true }) (sound_setBoot h) rfl rfl rfl ?_) h
  exact fun ⟨hp, hh, hr, hc⟩ => ⟨filter_wf _ hp, hh, hr, hc⟩

theorem sound_pcieLinkUp {speed width : Nat} {flit : Bool} (h : Sound P s) : Sound P (pcieLinkUp s speed width flit) :=
  sound_ite (sound_same h rfl rfl rfl rfl) h

theorem sound_failLoad {code : Nat} (h : Sound anyBoot s) : Sound anyBoot (failLoad s code) := sound_setBoot h

theorem sound_applyMacs {p : Profile} (h : Sound P s) : Sound P (applyMacs s p) := by
  unfold applyMacs
  dsimp only
  exact sound_same h rfl rfl (by simp [sizes]) rfl

theorem sound_passChecks {p : Profile} {i : Image} (h : Sound anyBoot s) : Sound anyBoot (passChecks s p i) :=
  sound_leaveFloor (sound_applyMacs (sound_setBoot h))

theorem sound_bootFetchDone {p : Profile} {i : Image} (h : Sound anyBoot s) : Sound anyBoot (bootFetchDone s p i) := by
  unfold bootFetchDone
  split
  · split
    · exact sound_failLoad (sound_writeBank h)
    · exact sound_passChecks (sound_writeBank h)
  · exact h

theorem sound_fenceAtStart {u : FailUnit} (h : Sound P s) : Sound P (fenceAtStart s u) :=
  sound_ite (sound_logFault (sound_recover (sound_fenceUnit (sound_countEvent (sound_setBist h))))) h

theorem sound_startTest {failing : List FailUnit} (h : Sound P s) : Sound P (startTest s failing) := by
  unfold startTest
  dsimp only
  exact sound_setBist (sound_ite (sound_foldl (fun _ _ hx => sound_fenceAtStart hx) (sound_field h rfl rfl rfl (fun ⟨he, hh, ha, ht, hs⟩ =>
    ⟨he, hh, rfl, rfl, hs⟩))) (sound_field h rfl rfl rfl (fun ⟨he, hh, ha, ht, hs⟩ => ⟨he, hh, rfl, rfl, hs⟩)))

theorem sound_loadProfileMicros (h : Sound anyBoot s) : Sound anyBoot (loadProfileMicros s) := by
  unfold loadProfileMicros
  split
  · exact h
  · exact sound_setBoot h

theorem sound_startupTestDone {failing : List FailUnit} (h : Sound anyBoot s) : Sound anyBoot (startupTestDone s failing) := by
  unfold startupTestDone
  dsimp only
  split
  · refine sound_setBoot ?_
    refine sound_startReeves ?_
    split
    · exact sound_startImage (sound_loadProfileMicros (sound_startTest h))
    · exact sound_loadProfileMicros (sound_startTest h)
  · exact h

/-! ### PciRows -/

theorem sound_setPcie {f : Pcie → Pcie} (h : Sound P s) (hf : (f s.pcie).fns.length = s.pcie.fns.length := by simp)
    (hi : (f s.pcie).ide.length = s.pcie.ide.length := by simp) : Sound P (setPcie s f) :=
  sound_same h rfl rfl (by simp [sizes, hf, hi]) rfl

theorem sound_finishTaken (h : Sound anyBoot s) : Sound anyBoot (finishTaken s fn m) := by
  unfold finishTaken
  have hs := sound_finishFull (fn := fn) (m := m) (sound_finishUnmaps (fn := fn) (m := m) (n := s.mem.moves.length) h)
  dsimp only
  cases he : finishEntry (finishFull (finishUnmaps fn m s.mem.moves.length s) fn m) fn m with
  | none => exact hs
  | some t => exact sound_finishEntry he hs

theorem sound_endRequests (h : Sound anyBoot s) : Sound anyBoot (endRequests s fn) := by
  unfold endRequests
  dsimp only
  exact sound_setBoot (sound_foldl (fun _ _ hx => sound_endFull (sound_finishTaken hx)) h)

theorem sound_resetFunction (h : Sound anyBoot s) : Sound anyBoot (resetFunction s fn) :=
  sound_ite (sound_foldl (fun _ _ hx => sound_buildPage hx) (sound_setFn (sound_endRequests (sound_disableWhere (sound_setPci h)))))
    (sound_setFn (sound_endRequests (sound_disableWhere (sound_setPci h))))

theorem sound_clearVfEnable (h : Sound anyBoot s) : Sound anyBoot (clearVfEnable s) := by
  unfold clearVfEnable
  dsimp only
  exact sound_setPcie (sound_foldl (fun _ _ hx => sound_setPci hx) (sound_foldl (fun _ _ hx => sound_resetFunction hx) h))

theorem sound_cutFetch (h : Sound anyBoot s) : Sound anyBoot (cutFetch s) := sound_ite (sound_failLoad h) h

theorem sound_functionLevelReset (h : Sound anyBoot s) : Sound anyBoot (functionLevelReset s fn) :=
  sound_ite h (sound_ite (sound_setPcie (sound_clearVfEnable (sound_resetFunction (sound_cutFetch h)))) (sound_resetFunction h))

theorem sound_functionReadinessStatus (h : Sound P s) : Sound P (functionReadinessStatus s fn) := sound_ite (sound_setPcie (sound_setPci h)) h

theorem sound_hotReset (h : Sound anyBoot s) : Sound anyBoot (hotReset s) :=
  sound_ite (sound_setPcie (sound_setPcie (sound_clearVfEnable (sound_resetFunction (sound_cutFetch h))))) h

theorem sound_returnToD0 (h : Sound P s) : Sound P (returnToD0 s fn) :=
  sound_ite (sound_foldl (fun _ _ hx => sound_sendPending hx) (sound_setPci h)) h

theorem sound_setVfEnable (h : Sound P s) : Sound P (setVfEnable s) := sound_setPcie (sound_foldl (fun _ _ hx => sound_setPci hx) h)

theorem sound_setRange {f : IdeStream → IdeStream} (h : Sound P s) : Sound P (setRange s i f) := sound_ite (sound_setPcie h) h

theorem sound_configWrite {reg : CfgReg} {v : Nat} (h : Sound anyBoot s) : Sound anyBoot (configWrite s fn reg v) := by
  unfold configWrite
  cases reg with
  | command => exact sound_setPci h
  | bar0 => exact sound_ite (sound_setPci h) h
  | numVfs => exact sound_ite (sound_ite (sound_setPcie h) h) h
  | vfEnable => exact sound_ite (sound_ite (sound_ite h (sound_setVfEnable h)) (sound_ite (sound_clearVfEnable h) h)) h
  | ideFirstFn i => exact sound_ite (sound_setRange h) h
  | ideLastFn i => exact sound_ite (sound_setRange h) h
  | ideFirstAddr i => exact sound_ite (sound_setRange h) h
  | ideLastAddr i => exact sound_ite (sound_setRange h) h
  | enable f =>
    dsimp only
    split
    · exact sound_setPci h
    · exact h
  | maxPayload => exact sound_ite (sound_setPci h) h
  | maxReadRequest => exact sound_ite (sound_setPci h) h
  | other r => exact sound_setPci h
  | supported _ => exact h
  | vendorDevice => exact h
  | classCode => exact h
  | totalVfs => exact h
  | initialVfs => exact h
  | firstVfOffset => exact h
  | vfStride => exact h

theorem sound_say {a : Answer} (h : Sound P s) : Sound P (say s a) := sound_same h rfl rfl rfl rfl

theorem sound_configRequest {reg : CfgReg} {write : Option Nat} (h : Sound anyBoot s) : Sound anyBoot (configRequest s fn reg write) := by
  unfold configRequest
  split
  · exact h
  · split
    · exact sound_say (sound_configWrite h)
    · exact sound_say h

theorem sound_drillHostError (he : drillHostError s q c = some t) (h : Sound P s) : Sound P t := by
  obtain ⟨⟨d, off⟩, -, rfl⟩ := Option.map_eq_some_iff.1 he
  exact sound_drillBusError h

theorem sound_hostErrorEnd (he : hostErrorEnd s q = some t) (h : Sound P s) : Sound P t := by
  unfold hostErrorEnd at he
  dsimp only at he
  split at he
  · cases he
    exact sound_runMover (sound_moveFail (sound_countMoveFailed (sound_settleMove h)))
  · split at he
    · split at he
      · exact sound_drillHostError he h
      · split at he
        · cases he
          exact sound_endRead h
        · cases he
    · split at he
      · cases he
        exact sound_setResult h
      · cases he
  · split at he
    · cases he
      exact sound_ringFault h
    · cases he

theorem sound_hostCompletionError (h : Sound anyBoot s) : Sound anyBoot (hostCompletionError s q) := by
  unfold hostCompletionError
  split
  · exact sound_noteInjected (sound_failLoad h)
  · split
    · next hcall => exact sound_noteInjected (sound_hostErrorEnd hcall h)
    · exact h

theorem sound_ideKm {op : IdeOp} (h : Sound P s) : Sound P (ideKm s session stream op) := by
  unfold ideKm
  dsimp only
  split
  · exact h
  · split
    · exact sound_say h
    · split
      · exact sound_say (sound_setPcie h)
      · split
        · exact sound_say (sound_setPcie h)
        · exact sound_say h
      · exact sound_say (sound_setPcie h)

theorem sound_ideCheckFail (h : Sound P s) : Sound P (ideCheckFail s stream) := sound_ite (sound_setPcie h) h

end

end Sys2Proof.Machine
end

section
/-! INVARIANT (continued). One lemma a function, in the order of the model. -/

namespace Sys2Proof.Machine

section
variable {P : Kept} {s t s0 : State} {p q e id slot fn key n i d units addr k stream m size off session : Nat} {harrow doe i3c : Bool}
variable {a : Asked} {r : Result} {st : Stream} {c : Cmd} {Q : Queue} {w : WordWrite} {cx : AttendCtx} {K : Pool} {bs : List Byte}

/-! ### Spdm -/

theorem sound_setSec {f : Security → Security} (h : Sound P s) : Sound P (setSec s f) := sound_same h rfl rfl rfl rfl

theorem sound_setPath {f : SpdmPath → SpdmPath} (h : Sound P s) : Sound P (setPath s doe f) := sound_setSec h

theorem sound_sayError {e : SpdmErr} (h : Sound P s) : Sound P (sayError s doe e) := sound_say (sound_setSec h)

theorem sound_countNotReady (h : Sound P s) : Sound P (countNotReady s) := sound_same h rfl rfl rfl rfl

theorem sound_sayRsp {r : SpdmRsp} (h : Sound P s) : Sound P (sayRsp s doe r) := sound_ite (sound_sayError (sound_setPath h)) (sound_say h)

theorem sound_atResponder {early : Bool} {act : State → State} (h : Sound P s) (kact : ∀ (x : State), Sound P x → Sound P (act x)) :
    Sound P (atResponder s doe early act) :=
  sound_ite h (sound_ite (sound_say (sound_countNotReady h)) (sound_ite (sound_sayError h) (kact _ h)))

theorem sound_request {early : Bool} {act : State → Except SpdmErr (SpdmRsp × State)} (h : Sound P s)
    (kact : ∀ {x r u}, act x = .ok (r, u) → Sound P x → Sound P u) : Sound P (request s doe early act) := by
  unfold request
  refine sound_atResponder h fun x hx => ?_
  split
  · next he => exact sound_sayRsp (kact he hx)
  · exact sound_sayError hx

theorem sound_signedOnly {act : Except SpdmErr (SpdmRsp × State)} {r0 : SpdmRsp} (he : signedOnly s doe act = .ok (r0, t))
    (hact : ∀ {r u}, act = .ok (r, u) → Sound P u) : Sound P t := by
  unfold signedOnly at he
  split at he
  · exact hact he
  · cases he

theorem sound_certificate {len : Nat} {r0 : SpdmRsp} (he : certificate s slot off len = .ok (r0, t)) (h : Sound P s) : Sound P t := by
  unfold certificate at he
  dsimp only at he
  split at he
  · cases he
  · cases he
    exact h

theorem sound_measurements {session : Option Nat} {index : Nat} {nonce : Option (List Byte)} {r0 : SpdmRsp}
    (he : measurements s doe session index nonce = .ok (r0, t)) (h : Sound P s) : Sound P t := by
  unfold measurements at he
  replace he := ok_of_guard he
  split at he
  · cases he
  · exact sound_of_pair (Except.ok.inj he) h
  · next blocks bs _ =>
    obtain ⟨sig, hsig⟩ := signMsg_eq s (bs ++ blocks.flatMap fun b => toLe 1 b.1 ++ b.2)
    rw [hsig] at he
    exact sound_signedOnly he fun ha => sound_of_pair (Except.ok.inj ha) (sound_taken h)

theorem sound_setSession {num : Nat} {f : Session → Session} (h : Sound P s) : Sound P (setSession s num f) := sound_setSec h

theorem sound_dropSession {num : Nat} (h : Sound P s) : Sound P (dropSession s num) := sound_setSec h

theorem sound_openNew {root : Option Nat} {r0 : SpdmRsp} (he : openNew s doe root = .ok (r0, t)) (h : Sound P s) : Sound P t := by
  obtain ⟨sig, hsig⟩ := signMsg_eq s (toLe 4 s.sec.nextNum)
  simp only [openNew, hsig] at he
  obtain ⟨-, rfl⟩ := Prod.mk.inj (Except.ok.inj (ok_of_guard he))
  exact sound_setSec (sound_taken h)

theorem sound_finishSession {num : Nat} {root : Option Nat} {valid : Bool} (h : Sound P s) : Sound P (finishSession s doe num root valid) := by
  unfold finishSession
  split
  · exact sound_sayError h
  · split
    · exact sound_sayError h
    · split
      · exact sound_sayRsp (sound_setSession h)
      · exact sound_sayError (sound_dropSession h)

theorem sound_inSession {num : Nat} {act : State → SpdmRsp × State} (h : Sound P s) (kact : ∀ x, Sound P x → Sound P (act x).2) :
    Sound P (inSession s doe num act) := by
  unfold inSession
  refine sound_request h fun he hx => ?_
  split at he
  · exact sound_of_pair (Except.ok.inj he) (kact _ hx)
  · cases he

theorem sound_takeChunk {seq : Nat} {last : Bool} {bytes : List Byte} {r0 : SpdmRsp} (he : takeChunk s doe seq last bytes = .ok (r0, t))
    (h : Sound P s) : Sound P t := by
  unfold takeChunk at he
  dsimp only at he
  split at he
  · cases he
  · cases he
    exact sound_setPath h

theorem sound_giveChunk {seq : Nat} {r0 : SpdmRsp} (he : giveChunk s doe seq = .ok (r0, t)) (h : Sound P s) : Sound P t := by
  unfold giveChunk at he
  dsimp only at he
  split at he
  · cases he
  · split at he
    · cases he
    · cases he
      split
      · exact sound_setPath h
      · exact h

theorem sound_ownerRequest {num : Nat} {act : State → Nat → Status × State} (h : Sound P s) (kact : ∀ x n, Sound P x → Sound P (act x n).2) :
    Sound P (ownerRequest s num act) := by
  unfold ownerRequest
  split
  · exact h
  · refine sound_request h fun he hx => ?_
    split at he
    · exact sound_of_pair (Except.ok.inj he) (kact _ _ hx)
    · exact sound_of_pair (Except.ok.inj he) hx

theorem sound_ofOwner {x : State} {root : Nat} {act : Status × State} (hact : Sound P act.2) (hx : Sound P x) :
    Sound P (ofOwner x root act).2 := by
  unfold ofOwner
  split
  · split
    · exact hact
    · exact hx
  · exact hact

theorem sound_wrapKeySet {x : State} {r0 : Status} (he : wrapKeySet x p key = (r0, t)) (hx : Sound P x) : Sound P t := by
  unfold wrapKeySet at he
  split at he
  · cases he
    exact hx
  · split at he
    · cases he
      exact hx
    · cases he
      exact sound_setPart hx

theorem sound_lockMacsec {mask : Nat} (h : Sound P s) : Sound P (lockMacsec s mask) := sound_foldl (fun _ _ hx => sound_setPort hx) h

theorem sound_policySet {x : State} {ide macsec svn : Nat} {r0 : Status} (he : policySet x ide macsec svn = (r0, t)) (hx : Sound P x) :
    Sound P t := by
  unfold policySet at he
  split at he
  · cases he
    exact hx
  · cases he
    exact sound_lockMacsec (sound_setSec hx)

theorem sound_cakSet {x : State} {link ckn cak : Nat} {r0 : Status} (he : cakSet x link ckn cak = (r0, t)) (hx : Sound P x) : Sound P t := by
  unfold cakSet at he
  split at he
  · cases he
    exact hx
  · cases he
    exact sound_setLink hx

/-! ### Management -/

theorem sound_setMgmt {f : Mgmt → Mgmt} (h : Sound P s) : Sound P (setMgmt s f) := sound_same h rfl rfl rfl rfl

theorem sound_replyOn {eid : Nat} {r : MgmtRsp} (h : Sound P s) : Sound P (replyOn s i3c eid r) := sound_say h

theorem sound_control {act : State → MgmtRsp × State} (h : Sound P s) (kact : ∀ x, Sound P x → Sound P (act x).2) : Sound P (control s i3c act) :=
  sound_ite (sound_replyOn (kact s h)) h

theorem sound_pldm {act : State → MgmtRsp × State} (h : Sound P s) (kact : ∀ x, Sound P x → Sound P (act x).2) : Sound P (pldm s i3c act) :=
  sound_ite h (sound_ite (sound_replyOn (sound_countNotReady h)) (sound_replyOn (kact s h)))

theorem sound_pldmSensors {act : State → MgmtRsp × State} (h : Sound P s) (kact : ∀ x, Sound P x → Sound P (act x).2) :
    Sound P (pldmSensors s i3c act) :=
  sound_ite (sound_platformEvents (sound_pldm h kact)) (sound_pldm h kact)

theorem sound_jtagInstruction {op : JtagOp} {data : Nat} (h : Sound P s) : Sound P (jtagInstruction s op data) := by
  have hfree : Sound P (takeFree s 1).2 := sound_takeFree rfl h
  unfold jtagInstruction
  cases op with
  | bypass => exact sound_same h rfl rfl rfl rfl
  | idcode => exact sound_same h rfl rfl rfl rfl
  | samplePreload => exact sound_same hfree rfl rfl rfl rfl
  | extest => exact sound_ite (sound_same hfree rfl rfl rfl rfl) h
  | extestPulse => exact sound_ite (sound_same hfree rfl rfl rfl rfl) h
  | extestTrain => exact sound_ite (sound_same hfree rfl rfl rfl rfl) h

/-! ### Idle -/

theorem sound_idle (h : Sound P s) : Sound P (idle s) := by
  have htick : Sound P (tickDrill { s with now := s.now + 1 }) := sound_tickDrill (sound_same h rfl rfl rfl rfl)
  unfold idle
  dsimp only
  generalize tickDrill { s with now := s.now + 1 } = t at htick ⊢
  refine sound_ite (sound_ite (sound_field htick rfl rfl rfl ?_) htick) h
  exact fun ⟨he, hh, ha, ht, hs⟩ => ⟨he, by simpa using hh, ha, ht, hs⟩

end

end Sys2Proof.Machine
end

section
/-! INVARIANT. Every row of the instruction table keeps the invariant, and with it every step. -/

namespace Sys2Proof.Machine

section
variable {P : Kept} {s t s0 : State} {p q e id slot fn key n i d units addr k stream m size off session : Nat} {harrow doe i3c : Bool}
variable {a : Asked} {r : Result} {st : Stream} {c : Cmd} {Q : Queue} {w : WordWrite} {cx : AttendCtx} {K : Pool} {bs : List Byte}

theorem sound_execNop (he : execNop q s = .next t) (h : Sound P s) : Sound P t :=
  sound_next he (sound_runCommand h (fun _ _ _ hx => sound_effectDone hx))

theorem sound_execFenceSignal (he : execFenceSignal q s = .next t) (h : Sound P s) : Sound P t :=
  sound_next he (sound_runCommand h (fun _ _ _ hx => sound_effectDone hx))

theorem sound_execFenceReset (he : execFenceReset q s = .next t) (h : Sound P s) : Sound P t :=
  sound_next he (sound_runCommand h (fun _ _ _ hx => sound_effectFenceReset hx))

theorem sound_execTimestamp (he : execTimestamp q s = .next t) (h : Sound P s) : Sound P t := sound_next he (sound_timestamp h)

theorem sound_execMxGemm (he : execMxGemm q s = .next t) (h : Sound P s) : Sound P t :=
  sound_next he (sound_runCommand h (fun _ _ _ hx => sound_startMxGemm hx))

theorem sound_execConv2d (he : execConv2d q s = .next t) (h : Sound P s) : Sound P t :=
  sound_next he (sound_runCommand h (fun _ _ _ hx => sound_startConv2d hx))

theorem sound_execPool (he : execPool q s = .next t) (h : Sound P s) : Sound P t :=
  sound_next he (sound_runCommand h (fun _ _ _ hx => sound_startPool hx))

theorem sound_execScanLinear (he : execScanLinear q s = .next t) (h : Sound P s) : Sound P t :=
  sound_nextIte he h (sound_runCommand h fun _ _ _ hx => sound_startScanLinear hx)

theorem sound_execRecurCell (he : execRecurCell q s = .next t) (h : Sound P s) : Sound P t :=
  sound_nextIte he h (sound_runCommand h fun _ _ _ hx => sound_startRecurCell hx)

theorem sound_execAttend (he : execAttend q s = .next t) (h : Sound P s) : Sound P t :=
  sound_nextIte he h (sound_runCommand h fun _ _ _ hx => sound_startAttend hx)

theorem sound_execEltwise (he : execEltwise q s = .next t) (h : Sound P s) : Sound P t :=
  sound_next he (sound_runCommand h (fun _ _ _ hx => sound_startEltwise hx))

theorem sound_execNormRow (he : execNormRow q s = .next t) (h : Sound P s) : Sound P t :=
  sound_next he (sound_runCommand h (fun _ _ _ hx => sound_startNormRow hx))

theorem sound_execSoftmaxRow (he : execSoftmaxRow q s = .next t) (h : Sound P s) : Sound P t :=
  sound_next he (sound_runCommand h (fun _ _ _ hx => sound_startSoftmaxRow hx))

theorem sound_execSample (he : execSample q s = .next t) (h : Sound P s) : Sound P t :=
  sound_next he (sound_runCommand h (fun _ _ _ hx => sound_startSample hx))

theorem sound_execSeedSet (he : execSeedSet q s = .next t) (h : Sound P s) : Sound P t :=
  sound_next he (sound_runCommand h (fun _ _ _ hx => sound_setResult hx))

theorem sound_execDrillCopy (he : execDrillCopy q s = .next t) (h : Sound P s) : Sound P t :=
  sound_next he (sound_ite (sound_runCommand h (fun _ _ _ hx => sound_startDrill hx)) h)

theorem sound_execDrillChain (he : execDrillChain q s = .next t) (h : Sound P s) : Sound P t := by
  unfold execDrillChain at he
  cases he
  split
  · exact sound_runCommand (sound_useReads h) (fun _ _ _ hx => sound_startDrill hx)
  · exact h

theorem sound_execDrillVisible (he : execDrillVisible q s = .next t) (h : Sound P s) : Sound P t :=
  sound_next he (sound_ite (sound_runCommand h (fun _ _ _ hx => sound_effectDrillVisible hx)) h)

theorem sound_execWindowFill (he : execWindowFill q s = .next t) (h : Sound P s) : Sound P t := by
  unfold execWindowFill at he
  dsimp only at he
  cases he
  split
  · exact h
  · split
    · split
      · exact sound_effectWindowFill h
      · exact h
    · exact sound_runCommand h (fun _ _ _ hx => sound_effectWindowFill hx)

theorem sound_execPlotMove (he : execPlotMove q s = .next t) (h : Sound P s) : Sound P t :=
  sound_next he (sound_runCommand h (fun _ _ _ hx => sound_effectPlotMove hx))

theorem sound_execStreamCreate (he : execStreamCreate q s = .next t) (h : Sound P s) : Sound P t :=
  sound_next he (sound_streamEvent h (fun _ _ _ hx => sound_noStart hx) (fun _ _ _ hx => sound_effectStreamCreate hx))

theorem sound_execStreamFork (he : execStreamFork q s = .next t) (h : Sound P s) : Sound P t :=
  sound_next he (sound_streamEvent h (fun _ _ _ hx => sound_startImages hx) (fun _ _ _ hx => sound_effectStreamFork hx))

theorem sound_execStreamPark (he : execStreamPark q s = .next t) (h : Sound P s) : Sound P t :=
  sound_next he (sound_streamEvent h (fun _ _ _ hx => sound_startImages hx) (fun _ _ _ hx => sound_effectStreamPark hx))

theorem sound_execStreamResume (he : execStreamResume q s = .next t) (h : Sound P s) : Sound P t :=
  sound_next he (sound_streamEvent h (fun _ _ _ hx => sound_noStart hx) (fun _ _ _ hx => sound_effectStreamResume hx))

theorem sound_execStreamExport (he : execStreamExport q s = .next t) (h : Sound P s) : Sound P t :=
  sound_next he (sound_streamEvent h (fun _ _ _ hx => sound_startExport hx) (fun _ _ _ hx => sound_effectStreamExport hx))

theorem sound_execStreamImport (he : execStreamImport q s = .next t) (h : Sound P s) : Sound P t :=
  sound_next he (sound_streamEvent h (fun _ _ _ hx => sound_startImages (sound_takeKey hx)) (fun _ _ _ hx => sound_effectStreamImport hx))

theorem sound_execStreamRetire (he : execStreamRetire q s = .next t) (h : Sound P s) : Sound P t :=
  sound_next he (sound_streamEvent h (fun _ _ _ hx => sound_noStart hx) (fun _ _ _ hx => sound_effectStreamRetire hx))

theorem sound_execSwathStep (he : execSwathStep q s = .next t) (h : Sound P s) : Sound P t :=
  sound_next he (sound_ite h (sound_runCommand h (fun _ _ _ hx => sound_openSwath hx)))

theorem sound_execPagePin (he : execPagePin q s = .next t) (h : Sound P s) : Sound P t :=
  sound_next he (sound_streamEvent h (fun _ _ _ hx => sound_noStart hx) (fun _ _ _ hx => sound_ite hx (sound_runMover
    (sound_effectPagePin hx))))

theorem sound_execNetSend (he : execNetSend q s = .next t) (h : Sound P s) : Sound P t :=
  sound_next he (sound_netCommand h (fun _ _ _ hx => sound_startNetSend hx))

theorem sound_execNetRecv (he : execNetRecv q s = .next t) (h : Sound P s) : Sound P t :=
  sound_next he (sound_netCommand h (fun _ _ _ hx => sound_effectNetRecv hx))

theorem sound_execNetBarrier (he : execNetBarrier q s = .next t) (h : Sound P s) : Sound P t :=
  sound_next he (sound_netCommand h (fun _ _ _ hx => sound_effectNetBarrier hx))

theorem sound_execNetMigrate (he : execNetMigrate q s = .next t) (h : Sound P s) : Sound P t :=
  sound_next he (sound_ite h (sound_streamEvent h (fun _ _ _ hx => sound_takeKey hx) (fun _ _ _ hx => sound_effectNetMigrate hx)))

theorem sound_execQueueFetch (he : execQueueFetch q s = .next t) (h : Sound P s) : Sound P t := sound_next he (sound_queueFetch h)

theorem sound_execCommandCommit (he : execCommandCommit q s = .next t) (h : Sound P s) : Sound P t :=
  sound_next he (sound_ite (sound_commitQueue (sound_beforeCommit h)) (sound_beforeCommit h))

theorem sound_execWorkItemTake (he : execWorkItemTake harrow i s = .next t) (h : Sound P s) : Sound P t := sound_next he (sound_workItemTake h)

theorem sound_execTileDrain (he : execTileDrain e s = .next t) (h : Sound P s) : Sound P t := sound_next he (sound_tileDrain h)

theorem sound_execSplitkArrival (he : execSplitkArrival e s = .next t) (h : Sound P s) : Sound P t := sound_next he (sound_splitkArrival h)

theorem sound_execSplitkReduce {j : Nat} (he : execSplitkReduce q j s = .next t) (h : Sound P s) : Sound P t :=
  sound_next he (sound_splitkReduce h)

theorem sound_execScanPhase2 {pair : Nat} (he : execScanPhase2 q pair s = .next t) (h : Sound P s) : Sound P t :=
  sound_next he (sound_scanPhase2 h)

theorem sound_execStreamTransitDone (he : execStreamTransitDone id s = .next t) (h : Sound P s) : Sound P t := sound_next he (sound_setStream h)

theorem sound_execWindowFenceRelease (he : execWindowFenceRelease q s = .next t) (h : Sound P s) : Sound P t :=
  sound_next he (sound_windowFenceRelease h)

theorem sound_execPlotMoveCommit (he : execPlotMoveCommit p k s = .next t) (h : Sound P s) : Sound P t := sound_next he (sound_plotMoveCommit h)

theorem sound_execMigrationEpoch (he : execMigrationEpoch s = .next t) (h : Sound P s) : Sound P t := sound_next he (sound_migrationEpoch h)

theorem sound_execWcbIdleTimeout {line : Nat} (he : execWcbIdleTimeout line s = .next t) (h : Sound P s) : Sound P t :=
  sound_next he (sound_drainWhere h)

theorem sound_execPatrolScrub {found : Nat} (he : execPatrolScrub addr found s = .next t) (h : Sound P s) : Sound P t :=
  sound_next he (sound_patrolScrub h)

theorem sound_execFarFieldTimeout (he : execFarFieldTimeout q s = .next t) (h : Sound P s) : Sound P t := sound_next he (sound_farFieldTimeout h)

theorem sound_execDrillBusError (he : execDrillBusError n d off s = .next t) (h : Sound P s) : Sound P t := sound_next he (sound_drillBusError h)

theorem sound_execDrillChannelGrant (he : execDrillChannelGrant n s = .next t) (h : Sound P s) : Sound P t := sound_next he (sound_drillGrant h)

theorem sound_execDoorbellWrite {sender : Sender} {val : Nat} (he : execDoorbellWrite sender q size val s = .next t) (h : Sound P s) :
    Sound P t := by
  unfold execDoorbellWrite at he
  cases he
  split
  · exact sound_barWrite h (fun _ hx => sound_doorbellWrite hx)
  · exact sound_doorbellWrite h

theorem sound_execFenceWrite {val : Nat} (he : execFenceWrite fn off size val s = .next t) (h : Sound P s) : Sound P t :=
  sound_next he (sound_barWrite h (fun _ hx => sound_fenceWrite hx))

theorem sound_execQueAbort {val : Nat} (he : execQueAbort fn val s = .next t) (h : Sound P s) : Sound P t := sound_next he (sound_rowWrite h)

theorem sound_execQueDispatchClear (he : execQueDispatchClear fn s = .next t) (h : Sound P s) : Sound P t := sound_next he (sound_rowWrite h)

theorem sound_execQueErrorsClear (he : execQueErrorsClear fn s = .next t) (h : Sound P s) : Sound P t := sound_next he (sound_rowWrite h)

theorem sound_execDrillChannelDisable (he : execDrillChannelDisable fn n s = .next t) (h : Sound P s) : Sound P t :=
  sound_next he (sound_channelWrite h)

theorem sound_execDrillChannelEnable (he : execDrillChannelEnable fn n s = .next t) (h : Sound P s) : Sound P t :=
  sound_next he (sound_channelWrite h)

theorem sound_execDrillChannelResume (he : execDrillChannelResume fn n s = .next t) (h : Sound P s) : Sound P t :=
  sound_next he (sound_channelWrite h)

theorem sound_execDrillClrCounts (he : execDrillClrCounts fn n s = .next t) (h : Sound P s) : Sound P t := sound_next he (sound_channelWrite h)

theorem sound_execQpCreate (he : execQpCreate fn s = .next t) (h : Sound P s) : Sound P t := sound_next he (sound_rowWrite h)

theorem sound_execQpDestroy {qp : Nat} (he : execQpDestroy fn qp s = .next t) (h : Sound P s) : Sound P t := sound_next he (sound_rowWrite h)

theorem sound_execQpReset {qp : Nat} (he : execQpReset fn qp s = .next t) (h : Sound P s) : Sound P t := sound_next he (sound_rowWrite h)

theorem sound_execNetLinkAddrWrite {high : Nat} (he : execNetLinkAddrWrite fn n high s = .next t) (h : Sound P s) : Sound P t :=
  sound_next he (sound_ite (sound_rowWrite h) h)

theorem sound_execNetPortCfgWrite {val : Nat} (he : execNetPortCfgWrite fn n val s = .next t) (h : Sound P s) : Sound P t :=
  sound_next he (sound_ite (sound_rowWrite h) h)

theorem sound_execBootGo (he : execBootGo fn s = .next t) (h : Sound anyBoot s) : Sound anyBoot t :=
  sound_next he (sound_barWrite h (fun _ hx => sound_ite (sound_bootGo hx) hx))

theorem sound_execMsixUnmask {entry : Nat} (he : execMsixUnmask fn entry s = .next t) (h : Sound P s) : Sound P t :=
  sound_next he (sound_barWrite h (fun _ hx => sound_ite (sound_unmaskEntry hx) hx))

theorem sound_execMbxPost (he : execMbxPost fn m s = .next t) (h : Sound P s) : Sound P t :=
  sound_next he (sound_barWrite h (fun _ hx => sound_ite (sound_postMbx hx) hx))

theorem sound_execMbxRelease (he : execMbxRelease fn m s = .next t) (h : Sound P s) : Sound P t :=
  sound_next he (sound_barWrite h (fun _ hx => sound_ite (sound_releaseMbx hx) hx))

theorem sound_execRegisterWrite {val : Nat} {poisoned : Bool} (he : execRegisterWrite fn off size val poisoned s = .next t) (h : Sound anyBoot s) :
    Sound anyBoot t :=
  sound_next he (sound_barWrite h (fun _ hx => sound_ite (sound_same hx rfl rfl rfl rfl) (sound_bar0Write hx)))

theorem sound_execShadowPageUpdate {page : Nat} (he : execShadowPageUpdate fn page s = .next t) (h : Sound P s) : Sound P t := by
  unfold execShadowPageUpdate at he
  cases he
  split
  · split
    · exact sound_buildPage h
    · exact h
  · exact h

theorem sound_execFwInfo (he : execFwInfo fn m s = .next t) (h : Sound P s) : Sound P t :=
  sound_next he (sound_serve h (fun he h => sound_runFwInfo he h))

theorem sound_execFwUpdate {found : Fetched} (he : execFwUpdate fn m found s = .next t) (h : Sound anyBoot s) : Sound anyBoot t :=
  sound_next he (sound_serve h (fun he h => sound_runFwUpdate he h))

theorem sound_execUpdateQuiesced (he : execUpdateQuiesced s = .next t) (h : Sound anyBoot s) : Sound anyBoot t :=
  sound_next he (sound_updateQuiesced h)

theorem sound_execUpdateSwitch (he : execUpdateSwitch s = .next t) (h : Sound anyBoot s) : Sound anyBoot t := sound_next he (sound_updateSwitch h)

theorem sound_execUpdateRestored (he : execUpdateRestored s = .next t) (h : Sound anyBoot s) : Sound anyBoot t :=
  sound_next he (sound_updateRestored h)

theorem sound_execPartitionConfig (he : execPartitionConfig fn m s = .next t) (h : Sound anyBoot s) : Sound anyBoot t :=
  sound_next he (sound_serve h (fun he h => sound_runPartitionConfig he h))

theorem sound_execPartitionRemove (he : execPartitionRemove fn m s = .next t) (h : Sound P s) : Sound P t :=
  sound_next he (sound_serve h (fun he h => sound_runPartitionRemove he h))

theorem sound_execQueueEnable (he : execQueueEnable fn m s = .next t) (h : Sound P s) : Sound P t :=
  sound_next he (sound_serve h (fun he h => sound_runQueueEnable he h))

theorem sound_execQueueDisable (he : execQueueDisable fn m s = .next t) (h : Sound P s) : Sound P t :=
  sound_next he (sound_serve h (fun he h => sound_runQueueDisable he h))

theorem sound_execQueueResume (he : execQueueResume fn m s = .next t) (h : Sound P s) : Sound P t :=
  sound_next he (sound_serve h (fun he h => sound_runQueueResume he h))

theorem sound_execQueueAbort (he : execQueueAbort fn m s = .next t) (h : Sound P s) : Sound P t :=
  sound_next he (sound_serve h (fun he h => sound_runQueueAbort he h))

theorem sound_execLayoutSet (he : execLayoutSet fn m s = .next t) (h : Sound P s) : Sound P t :=
  sound_next he (sound_serve h (fun he h => sound_runLayoutSet he h))

theorem sound_execStreamQuery (he : execStreamQuery fn m s = .next t) (h : Sound P s) : Sound P t :=
  sound_next he (sound_serve h (fun he h => sound_runStreamQuery he h))

theorem sound_execKvPoolSet (he : execKvPoolSet fn m s = .next t) (h : Sound P s) : Sound P t :=
  sound_next he (sound_serve h (fun he h => sound_runKvPoolSet he h))

theorem sound_execKvQuery (he : execKvQuery fn m s = .next t) (h : Sound P s) : Sound P t :=
  sound_next he (sound_serve h (fun he h => sound_runKvQuery he h))

theorem sound_execPlotMap (he : execPlotMap fn m s = .next t) (h : Sound P s) : Sound P t :=
  sound_next he (sound_serve h (fun he h => sound_runPlotMap he h))

theorem sound_execPlotUnmap (he : execPlotUnmap fn m s = .next t) (h : Sound P s) : Sound P t :=
  sound_next he (sound_serve h (fun he h => sound_runPlotUnmap he h))

theorem sound_execPlotQuery (he : execPlotQuery fn m s = .next t) (h : Sound P s) : Sound P t :=
  sound_next he (sound_serve h (fun he h => sound_runPlotQuery he h))

theorem sound_execWindowSet (he : execWindowSet fn m s = .next t) (h : Sound P s) : Sound P t :=
  sound_next he (sound_serve h (fun he h => sound_runWindowSet he h))

theorem sound_execHbmRepairMargin {found : Margin} (he : execHbmRepairMargin fn m found s = .next t) (h : Sound P s) : Sound P t :=
  sound_next he (sound_serve h (fun he h => sound_runMargin he h))

theorem sound_execTickConfig (he : execTickConfig fn m s = .next t) (h : Sound P s) : Sound P t :=
  sound_next he (sound_serve h (fun he h => sound_runTickConfig he h))

theorem sound_execBlobKeySet (he : execBlobKeySet fn m s = .next t) (h : Sound P s) : Sound P t :=
  sound_next he (sound_serve h (fun he h => sound_runBlobKeySet he h))

theorem sound_execPwrConfig (he : execPwrConfig fn m s = .next t) (h : Sound P s) : Sound P t :=
  sound_next he (sound_serve h (fun he h => sound_runPwrConfig he h))

theorem sound_execInject (he : execInject fn m s = .next t) (h : Sound P s) : Sound P t :=
  sound_next he (sound_serve h (fun he h => sound_runInject he h))

theorem sound_execBistRun {failing : List FailUnit} (he : execBistRun fn m failing s = .next t) (h : Sound anyBoot s) : Sound anyBoot t :=
  sound_next he (sound_serve h (fun he h => sound_runBist he h))

theorem sound_execInjectArm (he : execInjectArm slot s = .next t) (h : Sound P s) : Sound P t := sound_next he (sound_injectArm h)

theorem sound_execSyncInEdge {rising : Bool} (he : execSyncInEdge rising s = .next t) (h : Sound P s) : Sound P t := by
  unfold execSyncInEdge at he
  cases he
  split
  · split
    · next hcall => exact sound_injected hcall h
    · exact sound_candidate h
  · exact h

theorem sound_execPtpBoundary {port : Nat} (he : execPtpBoundary port k s = .next t) (h : Sound P s) : Sound P t :=
  sound_next he (sound_ite (sound_candidate h) h)

theorem sound_execLocalTick (he : execLocalTick s = .next t) (h : Sound P s) : Sound P t :=
  sound_next he (sound_ite (sound_candidate (sound_setTick h)) h)

theorem sound_execTickWindowClose (he : execTickWindowClose s = .next t) (h : Sound P s) : Sound P t := sound_next he (sound_tickWindowClose h)

theorem sound_execEstimationInterval {est : Nat} (he : execEstimationInterval est s = .next t) (h : Sound P s) : Sound P t :=
  sound_next he (sound_estimationInterval h)

theorem sound_execSlewWindow (he : execSlewWindow s = .next t) (h : Sound P s) : Sound P t := sound_next he (sound_slewWindow h)

theorem sound_execDroopTrip {f : Nat} (he : execDroopTrip f s = .next t) (h : Sound P s) : Sound P t := sound_next he (sound_droopTrip h)

theorem sound_execDroopRelease {f : Nat} (he : execDroopRelease f s = .next t) (h : Sound P s) : Sound P t :=
  sound_next he (sound_ite (sound_droopRelease h) h)

theorem sound_execVrAlertAssert {ns : Nat} (he : execVrAlertAssert ns s = .next t) (h : Sound P s) : Sound P t :=
  sound_next he (sound_vrAlertAssert h)

theorem sound_execVrAlertDeassert (he : execVrAlertDeassert s = .next t) (h : Sound P s) : Sound P t := sound_next he (sound_vrAlertDeassert h)

theorem sound_execVrAlertHoldEnd (he : execVrAlertHoldEnd s = .next t) (h : Sound P s) : Sound P t := sound_next he (sound_vrAlertHoldEnd h)

theorem sound_execThermalSample {furrow stack : Nat} (he : execThermalSample furrow stack s = .next t) (h : Sound anyBoot s) : Sound anyBoot t :=
  sound_next he (sound_thermalSample h)

theorem sound_execFaultLatch {unit : FailUnit} {det : Nat} (he : execFaultLatch unit det s = .next t) (h : Sound P s) : Sound P t :=
  sound_next he (sound_faultLatch h)

theorem sound_execFaultSettleDone (he : execFaultSettleDone s = .next t) (h : Sound P s) : Sound P t := sound_next he (sound_faultSettleDone h)

theorem sound_execFaultRelease (he : execFaultRelease s = .next t) (h : Sound P s) : Sound P t := sound_next he (sound_faultRelease h)

theorem sound_execBistSlice (he : execBistSlice s = .next t) (h : Sound P s) : Sound P t := sound_next he (sound_bistSlice h)

theorem sound_execBistTargetTest {col : Nat} {passed : Bool} (he : execBistTargetTest col passed s = .next t) (h : Sound P s) : Sound P t :=
  sound_next he (sound_bistTargetTest h)

theorem sound_execWatchdogExpiry {reeve : Nat} {hashOk : Bool} {held : Option (Nat × Nat)}
    (he : execWatchdogExpiry reeve hashOk held s = .next t) (h : Sound anyBoot s) : Sound anyBoot t :=
  sound_next he (sound_watchdogExpiry h)

theorem sound_execWatchdogRecoveryDone {reeve : Nat} {finish : Bool} (he : execWatchdogRecoveryDone reeve finish s = .next t)
    (h : Sound anyBoot s) : Sound anyBoot t :=
  sound_next he (sound_watchdogRecoveryDone h)

theorem sound_execPerstAssert (he : execPerstAssert s = .next t) (h : Sound anyBoot s) : Sound anyBoot t :=
  sound_next he (sound_ite h (sound_lostAll h))

theorem sound_execPerstRelease {strap : Nat} (he : execPerstRelease strap s = .next t) (h : Sound anyBoot s) : Sound anyBoot t :=
  sound_next he (sound_perstRelease h)

theorem sound_execClockLock (he : execClockLock s = .next t) (h : Sound anyBoot s) : Sound anyBoot t := sound_next he (sound_clockLock h)

theorem sound_execMgmtFrontEndReady (he : execMgmtFrontEndReady s = .next t) (h : Sound P s) : Sound P t :=
  sound_next he (sound_ite (sound_same h rfl rfl rfl rfl) h)

theorem sound_execLoamZeroDone (he : execLoamZeroDone s = .next t) (h : Sound anyBoot s) : Sound anyBoot t := sound_next he (sound_loamZeroDone h)

theorem sound_execPcieLinkUp {speed width : Nat} {flit : Bool} (he : execPcieLinkUp speed width flit s = .next t) (h : Sound P s) : Sound P t :=
  sound_next he (sound_pcieLinkUp h)

theorem sound_execBootFetchDone {profile : Profile} {image : Image} (he : execBootFetchDone profile image s = .next t) (h : Sound anyBoot s) :
    Sound anyBoot t :=
  sound_next he (sound_bootFetchDone h)

theorem sound_execStartupTestDone {failing : List FailUnit} (he : execStartupTestDone failing s = .next t) (h : Sound anyBoot s) :
    Sound anyBoot t :=
  sound_next he (sound_startupTestDone h)

theorem sound_execFwAliveSet (he : execFwAliveSet s = .next t) (h : Sound anyBoot s) : Sound anyBoot t := sound_next he (sound_fwAliveSet h)

theorem sound_execFwReadySet (he : execFwReadySet s = .next t) (h : Sound anyBoot s) : Sound anyBoot t := sound_next he (sound_fwReadySet h)

theorem sound_execRailFault (he : execRailFault s = .next t) (h : Sound anyBoot s) : Sound anyBoot t :=
  sound_next he (sound_ite (sound_lostAll h) h)

theorem sound_execConfigRequest {reg : CfgReg} {write : Option Nat} (he : execConfigRequest fn reg write s = .next t) (h : Sound anyBoot s) :
    Sound anyBoot t :=
  sound_next he (sound_configRequest h)

theorem sound_execFunctionLevelReset (he : execFunctionLevelReset fn s = .next t) (h : Sound anyBoot s) : Sound anyBoot t :=
  sound_next he (sound_functionLevelReset h)

theorem sound_execHotReset (he : execHotReset s = .next t) (h : Sound anyBoot s) : Sound anyBoot t := sound_next he (sound_hotReset h)

theorem sound_execD3hotEntry (he : execD3hotEntry fn s = .next t) (h : Sound P s) : Sound P t := sound_next he (sound_ite (sound_setPci h) h)

theorem sound_execHostCompletionError (he : execHostCompletionError q s = .next t) (h : Sound anyBoot s) : Sound anyBoot t :=
  sound_next he (sound_hostCompletionError h)

theorem sound_execIdeKm {op : IdeOp} (he : execIdeKm session stream op s = .next t) (h : Sound P s) : Sound P t := sound_next he (sound_ideKm h)

theorem sound_execEthLinkUp (he : execEthLinkUp n s = .next t) (h : Sound P s) : Sound P t := sound_next he (sound_ethLinkUp h)

theorem sound_execEthLinkDown (he : execEthLinkDown n s = .next t) (h : Sound P s) : Sound P t := sound_next he (sound_linkDown h)

theorem sound_execRdmaWriteInbound (he : execRdmaWriteInbound n key addr bs s = .next t) (h : Sound P s) : Sound P t :=
  sound_next he (sound_rdmaWriteInbound h)

theorem sound_execRdmaReadInbound {len : Nat} (he : execRdmaReadInbound n key addr len s = .next t) (h : Sound P s) : Sound P t :=
  sound_next he (sound_rdmaReadInbound h)

theorem sound_execSendInbound (he : execSendInbound n bs s = .next t) (h : Sound P s) : Sound P t := sound_next he (sound_sendInbound h)

theorem sound_execWriteImmInbound {imm : Nat} (he : execWriteImmInbound n key addr imm bs s = .next t) (h : Sound P s) : Sound P t :=
  sound_next he (sound_writeImmInbound h)

theorem sound_execBarrierTokenInbound {imm epoch : Nat} (he : execBarrierTokenInbound n imm epoch s = .next t) (h : Sound P s) : Sound P t :=
  sound_next he (sound_barrierToken h)

theorem sound_execAckReceived (he : execAckReceived n s = .next t) (h : Sound P s) : Sound P t := sound_next he (sound_ackReceived h)

theorem sound_execNakReceived (he : execNakReceived n s = .next t) (h : Sound P s) : Sound P t := sound_next he (sound_nakReceived h)

theorem sound_execAckTimeout (he : execAckTimeout n s = .next t) (h : Sound P s) : Sound P t := sound_next he (sound_ackTimeout h)

theorem sound_execPtpSyncMessage {port : Nat} {offset : ℤ} (he : execPtpSyncMessage port offset s = .next t) (h : Sound P s) : Sound P t :=
  sound_next he (sound_ptpSync h)

theorem sound_execAnnounceTimeout {port : Nat} (he : execAnnounceTimeout port s = .next t) (h : Sound P s) : Sound P t :=
  sound_next he (sound_setPort h)

theorem sound_execMkaFrame {valid : Bool} {sak : Nat} (he : execMkaFrame n valid sak s = .next t) (h : Sound P s) : Sound P t :=
  sound_next he (sound_ite (sound_setLink h) h)

theorem sound_execSetEndpointId {eid : Nat} (he : execSetEndpointId i3c eid s = .next t) (h : Sound P s) : Sound P t := by
  cases he
  refine sound_control h fun x hx => ?_
  split
  · dsimp only
    exact sound_setMgmt hx
  · exact hx

theorem sound_execGetEndpointId (he : execGetEndpointId i3c s = .next t) (h : Sound P s) : Sound P t :=
  sound_next he (sound_control h fun _ hx => hx)

theorem sound_execGetEndpointUuid (he : execGetEndpointUuid i3c s = .next t) (h : Sound P s) : Sound P t :=
  sound_next he (sound_control h fun _ hx => hx)

theorem sound_execGetMctpVersionSupport (he : execGetMctpVersionSupport i3c s = .next t) (h : Sound P s) : Sound P t :=
  sound_next he (sound_control h fun _ hx => hx)

theorem sound_execGetMessageTypeSupport (he : execGetMessageTypeSupport i3c s = .next t) (h : Sound P s) : Sound P t :=
  sound_next he (sound_control h fun _ hx => hx)

theorem sound_execI3cDynamicAddress (he : execI3cDynamicAddress addr s = .next t) (h : Sound P s) : Sound P t :=
  sound_next he (sound_ite (sound_setMgmt h) h)

theorem sound_execGetTid (he : execGetTid i3c s = .next t) (h : Sound P s) : Sound P t := sound_next he (sound_pldm h fun _ hx => hx)

theorem sound_execSetTid {tid : Nat} (he : execSetTid i3c tid s = .next t) (h : Sound P s) : Sound P t :=
  sound_next he (sound_pldm h fun _ hx => by dsimp only; exact sound_setMgmt hx)

theorem sound_execGetPldmVersion {kind : Nat} (he : execGetPldmVersion i3c kind s = .next t) (h : Sound P s) : Sound P t :=
  sound_next he (sound_pldm h fun _ hx => hx)

theorem sound_execGetPldmTypes (he : execGetPldmTypes i3c s = .next t) (h : Sound P s) : Sound P t := sound_next he (sound_pldm h fun _ hx => hx)

theorem sound_execGetPldmCommands {kind : Nat} (he : execGetPldmCommands i3c kind s = .next t) (h : Sound P s) : Sound P t :=
  sound_next he (sound_pldm h fun _ hx => hx)

theorem sound_execGetPdrRepositoryInfo (he : execGetPdrRepositoryInfo i3c s = .next t) (h : Sound P s) : Sound P t :=
  sound_next he (sound_pldm h fun _ hx => hx)

theorem sound_execGetPdr {record : Nat} (he : execGetPdr i3c record s = .next t) (h : Sound P s) : Sound P t :=
  sound_next he (sound_pldmSensors h fun _ hx => hx)

theorem sound_execGetSensorReading {sensor : Nat} (he : execGetSensorReading i3c sensor s = .next t) (h : Sound P s) : Sound P t :=
  sound_next he (sound_pldmSensors h fun _ hx => hx)

theorem sound_execGetStateSensorReadings {sensor : Nat} (he : execGetStateSensorReadings i3c sensor s = .next t) (h : Sound P s) : Sound P t :=
  sound_next he (sound_pldmSensors h fun _ hx => hx)

theorem sound_execSetEventReceiver {eid : Nat} (he : execSetEventReceiver i3c eid s = .next t) (h : Sound P s) : Sound P t :=
  sound_next he (sound_pldmSensors h fun _ hx => by dsimp only; exact sound_setMgmt hx)

theorem sound_execGetFruRecordTableMetadata (he : execGetFruRecordTableMetadata i3c s = .next t) (h : Sound P s) : Sound P t :=
  sound_next he (sound_pldm h fun _ hx => hx)

theorem sound_execGetFruRecordTable (he : execGetFruRecordTable i3c s = .next t) (h : Sound P s) : Sound P t :=
  sound_next he (sound_pldm h fun _ hx => hx)

theorem sound_execGetVersion (he : execGetVersion doe s = .next t) (h : Sound P s) : Sound P t :=
  sound_next he (sound_request h fun he hx => by cases he; exact sound_setPath hx)

theorem sound_execGetCapabilities {xfer : Nat} (he : execGetCapabilities doe xfer s = .next t) (h : Sound P s) : Sound P t :=
  sound_next he (sound_request h fun he hx => by cases he; exact sound_setPath hx)

theorem sound_execNegotiateAlgorithms {mldsa : Bool} (he : execNegotiateAlgorithms doe mldsa s = .next t) (h : Sound P s) : Sound P t :=
  sound_next he (sound_request h fun he hx => by cases he; exact sound_setPath hx)

theorem sound_execGetDigests (he : execGetDigests doe s = .next t) (h : Sound P s) : Sound P t :=
  sound_next he (sound_request h fun he hx => sound_signedOnly he fun ha => sound_of_pair (Except.ok.inj ha) hx)

theorem sound_execGetCertificate {len : Nat} (he : execGetCertificate doe slot off len s = .next t) (h : Sound P s) : Sound P t :=
  sound_next he (sound_request h fun he hx => sound_signedOnly he fun ha => sound_certificate ha hx)

theorem sound_execChallenge {nonce : List Byte} (he : execChallenge doe slot nonce s = .next t) (h : Sound P s) : Sound P t := by
  cases he
  refine sound_request h fun {x _ _} he hx => sound_signedOnly he fun ha => ?_
  obtain ⟨sig, hsig⟩ := signMsg_eq x nonce
  rw [hsig] at ha
  exact sound_of_pair (Except.ok.inj (ok_of_guard ha)) (sound_taken hx)

theorem sound_execGetMeasurements {session : Option Nat} {index : Nat} {nonce : Option (List Byte)}
    (he : execGetMeasurements doe session index nonce s = .next t) (h : Sound P s) : Sound P t := by
  unfold execGetMeasurements at he
  cases he
  refine sound_request h fun he hx => sound_measurements he hx

theorem sound_execKeyExchange {root : Option Nat} (he : execKeyExchange doe root s = .next t) (h : Sound P s) : Sound P t :=
  sound_next he (sound_request h fun he hx => sound_signedOnly he fun ha => sound_openNew ha hx)

theorem sound_execFinish {root : Option Nat} {valid : Bool} (he : execFinish doe session root valid s = .next t) (h : Sound P s) : Sound P t :=
  sound_next he (sound_atResponder h (fun _ hx => sound_finishSession hx))

theorem sound_execEndSession (he : execEndSession doe session s = .next t) (h : Sound P s) : Sound P t :=
  sound_next he (sound_inSession h fun _ hx => by dsimp only; exact sound_dropSession hx)

theorem sound_execHeartbeat (he : execHeartbeat doe session s = .next t) (h : Sound P s) : Sound P t :=
  sound_next he (sound_inSession h fun _ hx => hx)

theorem sound_execKeyUpdate (he : execKeyUpdate doe session s = .next t) (h : Sound P s) : Sound P t :=
  sound_next he (sound_inSession h fun _ hx => by dsimp only; exact sound_setSession hx)

theorem sound_execChunkSend {seq : Nat} {last : Bool} {bytes : List Byte} (he : execChunkSend doe seq last bytes s = .next t) (h : Sound P s) :
    Sound P t := by
  unfold execChunkSend at he
  cases he
  refine sound_request h fun he hx => sound_takeChunk he hx

theorem sound_execChunkGet {seq : Nat} (he : execChunkGet doe seq s = .next t) (h : Sound P s) : Sound P t := by
  unfold execChunkGet at he
  cases he
  refine sound_request h fun he hx => sound_giveChunk he hx

theorem sound_execOwnerBind (he : execOwnerBind session s = .next t) (h : Sound P s) : Sound P t := by
  cases he
  refine sound_ownerRequest h fun x _ hx => ?_
  split
  · exact hx
  · dsimp only
    exact sound_setSec hx

theorem sound_execWrapKeySet (he : execWrapKeySet session p key s = .next t) (h : Sound P s) : Sound P t :=
  sound_next he (sound_ownerRequest h fun x _ hx => sound_ofOwner (sound_wrapKeySet (x := x) rfl hx) hx)

theorem sound_execPolicySet {ide macsec svn : Nat} (he : execPolicySet session ide macsec svn s = .next t) (h : Sound P s) : Sound P t :=
  sound_next he (sound_ownerRequest h fun x _ hx => sound_ofOwner (sound_policySet (x := x) rfl hx) hx)

theorem sound_execCakSet {link ckn cak : Nat} (he : execCakSet session link ckn cak s = .next t) (h : Sound P s) : Sound P t :=
  sound_next he (sound_ownerRequest h fun x _ hx => sound_ofOwner (sound_cakSet (x := x) rfl hx) hx)

theorem sound_execJtagInstruction {op : JtagOp} {data : Nat} (he : execJtagInstruction op data s = .next t) (h : Sound P s) : Sound P t :=
  sound_next he (sound_jtagInstruction h)

theorem sound_execReturnToD0 (he : execReturnToD0 fn s = .next t) (h : Sound P s) : Sound P t := sound_next he (sound_returnToD0 h)

theorem sound_execFunctionReadinessStatus (he : execFunctionReadinessStatus fn s = .next t) (h : Sound P s) : Sound P t :=
  sound_next he (sound_functionReadinessStatus h)

theorem sound_execIdeCheckFail (he : execIdeCheckFail stream s = .next t) (h : Sound P s) : Sound P t := sound_next he (sound_ideCheckFail h)

theorem sound_execDoeDiscovery {index : Nat} (he : execDoeDiscovery index s = .next t) (h : Sound P s) : Sound P t :=
  sound_next he (sound_ite (sound_say h) h)

theorem sound_execRandomSourceHealthTestsDone {ok : Bool} (he : execRandomSourceHealthTestsDone ok s = .next t) (h : Sound anyBoot s) :
    Sound anyBoot t :=
  sound_next he (sound_randomSourceDone h)

theorem sound_execBootFetchTimeout (he : execBootFetchTimeout s = .next t) (h : Sound anyBoot s) : Sound anyBoot t :=
  sound_next he (sound_ite (sound_noteInjected (sound_failLoad h)) h)

theorem sound_execUnsupportedPacketDrop (he : execUnsupportedPacketDrop n s = .next t) (h : Sound P s) : Sound P t :=
  sound_next he (sound_ite (sound_dropPacket h) h)

theorem sound_execMacsecVerifyFail (he : execMacsecVerifyFail n s = .next t) (h : Sound P s) : Sound P t :=
  sound_next he (sound_ite (sound_setLink (sound_noteInjected h)) h)

theorem sound_execCongestionNotification (he : execCongestionNotification n s = .next t) (h : Sound P s) : Sound P t :=
  sound_next he (sound_ite (sound_setLink h) h)

theorem sound_execPriorityFlowControl {port : Nat} {pause : Bool} (he : execPriorityFlowControl port pause s = .next t) (h : Sound P s) :
    Sound P t :=
  sound_next he (sound_ite (sound_setPort h) h)

end

/-- What a row of the table leaves keeps the invariant. -/
theorem sound_exec {i : Instr} {s t : State} (he : exec i s = .next t) (h : Sound anyBoot s) : Sound anyBoot t := by
  cases i with
  | nop => exact sound_execNop he h
  | fenceSignal => exact sound_execFenceSignal he h
  | fenceReset => exact sound_execFenceReset he h
  | timestamp => exact sound_execTimestamp he h
  | mxGemm => exact sound_execMxGemm he h
  | conv2d => exact sound_execConv2d he h
  | pool => exact sound_execPool he h
  | scanLinear => exact sound_execScanLinear he h
  | recurCell => exact sound_execRecurCell he h
  | attend => exact sound_execAttend he h
  | eltwise => exact sound_execEltwise he h
  | normRow => exact sound_execNormRow he h
  | softmaxRow => exact sound_execSoftmaxRow he h
  | sample => exact sound_execSample he h
  | seedSet => exact sound_execSeedSet he h
  | drillCopy => exact sound_execDrillCopy he h
  | drillChain => exact sound_execDrillChain he h
  | drillVisible => exact sound_execDrillVisible he h
  | windowFill => exact sound_execWindowFill he h
  | plotMove => exact sound_execPlotMove he h
  | streamCreate => exact sound_execStreamCreate he h
  | streamFork => exact sound_execStreamFork he h
  | streamPark => exact sound_execStreamPark he h
  | streamResume => exact sound_execStreamResume he h
  | streamExport => exact sound_execStreamExport he h
  | streamImport => exact sound_execStreamImport he h
  | streamRetire => exact sound_execStreamRetire he h
  | swathStep => exact sound_execSwathStep he h
  | pagePin => exact sound_execPagePin he h
  | netSend => exact sound_execNetSend he h
  | netRecv => exact sound_execNetRecv he h
  | netBarrier => exact sound_execNetBarrier he h
  | netMigrate => exact sound_execNetMigrate he h
  | queueFetch => exact sound_execQueueFetch he h
  | commandCommit => exact sound_execCommandCommit he h
  | workItemTake => exact sound_execWorkItemTake he h
  | tileDrain => exact sound_execTileDrain he h
  | splitkArrival => exact sound_execSplitkArrival he h
  | splitkReduce => exact sound_execSplitkReduce he h
  | scanPhase2 => exact sound_execScanPhase2 he h
  | streamTransitDone => exact sound_execStreamTransitDone he h
  | windowFenceRelease => exact sound_execWindowFenceRelease he h
  | plotMoveCommit => exact sound_execPlotMoveCommit he h
  | migrationEpoch => exact sound_execMigrationEpoch he h
  | wcbIdleTimeout => exact sound_execWcbIdleTimeout he h
  | patrolScrub => exact sound_execPatrolScrub he h
  | farFieldTimeout => exact sound_execFarFieldTimeout he h
  | drillBusError => exact sound_execDrillBusError he h
  | drillChannelGrant => exact sound_execDrillChannelGrant he h
  | doorbellWrite => exact sound_execDoorbellWrite he h
  | fenceWrite => exact sound_execFenceWrite he h
  | queAbort => exact sound_execQueAbort he h
  | queDispatchClear => exact sound_execQueDispatchClear he h
  | queErrorsClear => exact sound_execQueErrorsClear he h
  | drillChannelDisable => exact sound_execDrillChannelDisable he h
  | drillChannelEnable => exact sound_execDrillChannelEnable he h
  | drillChannelResume => exact sound_execDrillChannelResume he h
  | drillClrCounts => exact sound_execDrillClrCounts he h
  | qpCreate => exact sound_execQpCreate he h
  | qpDestroy => exact sound_execQpDestroy he h
  | qpReset => exact sound_execQpReset he h
  | netLinkAddrWrite => exact sound_execNetLinkAddrWrite he h
  | netPortCfgWrite => exact sound_execNetPortCfgWrite he h
  | bootGo => exact sound_execBootGo he h
  | msixUnmask => exact sound_execMsixUnmask he h
  | mbxPost => exact sound_execMbxPost he h
  | mbxRelease => exact sound_execMbxRelease he h
  | registerWrite => exact sound_execRegisterWrite he h
  | shadowPageUpdate => exact sound_execShadowPageUpdate he h
  | fwInfo => exact sound_execFwInfo he h
  | fwUpdate => exact sound_execFwUpdate he h
  | updateQuiesced => exact sound_execUpdateQuiesced he h
  | updateSwitch => exact sound_execUpdateSwitch he h
  | updateRestored => exact sound_execUpdateRestored he h
  | partitionConfig => exact sound_execPartitionConfig he h
  | partitionRemove => exact sound_execPartitionRemove he h
  | queueEnable => exact sound_execQueueEnable he h
  | queueDisable => exact sound_execQueueDisable he h
  | queueResume => exact sound_execQueueResume he h
  | queueAbort => exact sound_execQueueAbort he h
  | layoutSet => exact sound_execLayoutSet he h
  | streamQuery => exact sound_execStreamQuery he h
  | kvPoolSet => exact sound_execKvPoolSet he h
  | kvQuery => exact sound_execKvQuery he h
  | plotMap => exact sound_execPlotMap he h
  | plotUnmap => exact sound_execPlotUnmap he h
  | plotQuery => exact sound_execPlotQuery he h
  | windowSet => exact sound_execWindowSet he h
  | hbmRepairMargin => exact sound_execHbmRepairMargin he h
  | tickConfig => exact sound_execTickConfig he h
  | blobKeySet => exact sound_execBlobKeySet he h
  | pwrConfig => exact sound_execPwrConfig he h
  | inject => exact sound_execInject he h
  | bistRun => exact sound_execBistRun he h
  | injectArm => exact sound_execInjectArm he h
  | syncInEdge => exact sound_execSyncInEdge he h
  | ptpBoundary => exact sound_execPtpBoundary he h
  | localTick => exact sound_execLocalTick he h
  | tickWindowClose => exact sound_execTickWindowClose he h
  | estimationInterval => exact sound_execEstimationInterval he h
  | slewWindow => exact sound_execSlewWindow he h
  | droopTrip => exact sound_execDroopTrip he h
  | droopRelease => exact sound_execDroopRelease he h
  | vrAlertAssert => exact sound_execVrAlertAssert he h
  | vrAlertDeassert => exact sound_execVrAlertDeassert he h
  | vrAlertHoldEnd => exact sound_execVrAlertHoldEnd he h
  | thermalSample => exact sound_execThermalSample he h
  | faultLatch => exact sound_execFaultLatch he h
  | faultSettleDone => exact sound_execFaultSettleDone he h
  | faultRelease => exact sound_execFaultRelease he h
  | bistSlice => exact sound_execBistSlice he h
  | bistTargetTest => exact sound_execBistTargetTest he h
  | watchdogExpiry => exact sound_execWatchdogExpiry he h
  | watchdogRecoveryDone => exact sound_execWatchdogRecoveryDone he h
  | perstAssert => exact sound_execPerstAssert he h
  | perstRelease => exact sound_execPerstRelease he h
  | clockLock => exact sound_execClockLock he h
  | mgmtFrontEndReady => exact sound_execMgmtFrontEndReady he h
  | loamZeroDone => exact sound_execLoamZeroDone he h
  | pcieLinkUp => exact sound_execPcieLinkUp he h
  | bootFetchDone => exact sound_execBootFetchDone he h
  | startupTestDone => exact sound_execStartupTestDone he h
  | fwAliveSet => exact sound_execFwAliveSet he h
  | fwReadySet => exact sound_execFwReadySet he h
  | railFault => exact sound_execRailFault he h
  | configRequest => exact sound_execConfigRequest he h
  | functionLevelReset => exact sound_execFunctionLevelReset he h
  | hotReset => exact sound_execHotReset he h
  | d3hotEntry => exact sound_execD3hotEntry he h
  | hostCompletionError => exact sound_execHostCompletionError he h
  | ideKm => exact sound_execIdeKm he h
  | ethLinkUp => exact sound_execEthLinkUp he h
  | ethLinkDown => exact sound_execEthLinkDown he h
  | rdmaWriteInbound => exact sound_execRdmaWriteInbound he h
  | rdmaReadInbound => exact sound_execRdmaReadInbound he h
  | sendInbound => exact sound_execSendInbound he h
  | writeImmInbound => exact sound_execWriteImmInbound he h
  | barrierTokenInbound => exact sound_execBarrierTokenInbound he h
  | ackReceived => exact sound_execAckReceived he h
  | nakReceived => exact sound_execNakReceived he h
  | ackTimeout => exact sound_execAckTimeout he h
  | ptpSyncMessage => exact sound_execPtpSyncMessage he h
  | announceTimeout => exact sound_execAnnounceTimeout he h
  | mkaFrame => exact sound_execMkaFrame he h
  | setEndpointId => exact sound_execSetEndpointId he h
  | getEndpointId => exact sound_execGetEndpointId he h
  | getEndpointUuid => exact sound_execGetEndpointUuid he h
  | getMctpVersionSupport => exact sound_execGetMctpVersionSupport he h
  | getMessageTypeSupport => exact sound_execGetMessageTypeSupport he h
  | i3cDynamicAddress => exact sound_execI3cDynamicAddress he h
  | getTid => exact sound_execGetTid he h
  | setTid => exact sound_execSetTid he h
  | getPldmVersion => exact sound_execGetPldmVersion he h
  | getPldmTypes => exact sound_execGetPldmTypes he h
  | getPldmCommands => exact sound_execGetPldmCommands he h
  | getPdrRepositoryInfo => exact sound_execGetPdrRepositoryInfo he h
  | getPdr => exact sound_execGetPdr he h
  | getSensorReading => exact sound_execGetSensorReading he h
  | getStateSensorReadings => exact sound_execGetStateSensorReadings he h
  | setEventReceiver => exact sound_execSetEventReceiver he h
  | getFruRecordTableMetadata => exact sound_execGetFruRecordTableMetadata he h
  | getFruRecordTable => exact sound_execGetFruRecordTable he h
  | getVersion => exact sound_execGetVersion he h
  | getCapabilities => exact sound_execGetCapabilities he h
  | negotiateAlgorithms => exact sound_execNegotiateAlgorithms he h
  | getDigests => exact sound_execGetDigests he h
  | getCertificate => exact sound_execGetCertificate he h
  | challenge => exact sound_execChallenge he h
  | getMeasurements => exact sound_execGetMeasurements he h
  | keyExchange => exact sound_execKeyExchange he h
  | finish => exact sound_execFinish he h
  | endSession => exact sound_execEndSession he h
  | heartbeat => exact sound_execHeartbeat he h
  | keyUpdate => exact sound_execKeyUpdate he h
  | chunkSend => exact sound_execChunkSend he h
  | chunkGet => exact sound_execChunkGet he h
  | ownerBind => exact sound_execOwnerBind he h
  | wrapKeySet => exact sound_execWrapKeySet he h
  | policySet => exact sound_execPolicySet he h
  | cakSet => exact sound_execCakSet he h
  | jtagInstruction => exact sound_execJtagInstruction he h
  | returnToD0 => exact sound_execReturnToD0 he h
  | functionReadinessStatus => exact sound_execFunctionReadinessStatus he h
  | ideCheckFail => exact sound_execIdeCheckFail he h
  | doeDiscovery => exact sound_execDoeDiscovery he h
  | randomSourceHealthTestsDone => exact sound_execRandomSourceHealthTestsDone he h
  | bootFetchTimeout => exact sound_execBootFetchTimeout he h
  | unsupportedPacketDrop => exact sound_execUnsupportedPacketDrop he h
  | macsecVerifyFail => exact sound_execMacsecVerifyFail he h
  | congestionNotification => exact sound_execCongestionNotification he h
  | priorityFlowControl => exact sound_execPriorityFlowControl he h

theorem sound_step {s t : State} (he : step s = .next t) (h : Sound anyBoot s) : Sound anyBoot t := by
  unfold step at he
  split at he
  · obtain rfl := Host.Outcome.next.inj he
    exact sound_idle h
  · exact sound_exec he (sound_same h rfl rfl rfl rfl)

/-- Settles O4: each function of the model keeps the invariant, so each row of the table and the idle step do. -/
theorem stepKeepsInvariant : Obligations.StepKeepsInvariant := by
  unfold Obligations.StepKeepsInvariant
  exact fun s t hok hstep => (sound_step hstep ⟨fun _ => hok, trivial⟩).ok trivial

end Sys2Proof.Machine
end

section
/-! O40. FW_INFO and FW_UPDATE. A request stays TAKEN while its body is read (R310), and what an update restores leaves the boot state alone
but for the update itself (R511). -/

namespace Sys2Proof.Machine

/-! ### Mailboxes while lines are read -/

/-- Every function's mailboxes. -/
def boxes (s : State) : List (List Mailbox) := s.fns.map (·.mailboxes)

theorem mbxOf_of_boxes {s t : State} (h : boxes t = boxes s) (fn m : Nat) : mbxOf t fn m = mbxOf s fn m := by
  have hboxes (u : State) : (fnOf u fn).mailboxes = (boxes u).getD fn noFunction.mailboxes :=
    (List.getD_map u.fns noFunction (·.mailboxes)).symm
  rw [mbxOf, mbxOf, hboxes, hboxes, h]

theorem boxes_setFn (s : State) (fn : Nat) {f : Function → Function} (h : ∀ F, (f F).mailboxes = F.mailboxes) : boxes (setFn s fn f) = boxes s :=
  map_modifyAt h s.fns fn

theorem boxes_raiseEventFn (s : State) (bit fn : Nat) : boxes (raiseEventFn s bit fn) = boxes s := by
  refine Eq.trans ?_ (boxes_setFn s fn (f := fun F => { F with event := setBit F.event bit }) fun _ => rfl)
  unfold raiseEventFn raiseMsix
  split
  · rfl
  · split
    · exact boxes_setFn _ fn fun _ => rfl
    · split <;> rfl

theorem boxes_markFenced (s : State) (u : FailUnit) : boxes (markFenced s u) = boxes s := by
  cases u with
  | channel h => exact frame_foldl (fun x fn => boxes_raiseEventFn x 2 fn) _ _
  | _ => rfl

theorem boxes_latchStorage (s : State) (u : FailUnit) (det : Nat) (inj : Bool) : boxes (latchStorage s u det inj) = boxes s := by
  have htell (x : State) : boxes (tellFence x u) = boxes x := frame_foldl (fun x fn => boxes_raiseEventFn x 4 fn) _ _
  unfold latchStorage
  split
  · rfl
  · dsimp only
    split
    · exact (htell _).trans (boxes_markFenced ..)
    · rfl

theorem boxes_countLoamLine (s : State) (n : Nat) (inj : Bool) : boxes (countLoamLine s n inj) = boxes s := by
  have hcount : boxes (secondLine s n 16).2 = boxes s := by
    unfold secondLine
    dsimp only
    split <;> rfl
  unfold countLoamLine
  dsimp only
  split
  · exact (boxes_latchStorage ..).trans hcount
  · exact hcount

theorem boxes_countSubLine (s : State) (h : Nat) (inj : Bool) : boxes (countSubLine s h inj) = boxes s := by
  unfold countSubLine
  dsimp only
  split
  · exact boxes_latchStorage ..
  · rfl

theorem boxes_readFires (s : State) (point target line : Nat) : boxes (readFires s point target line) = boxes s := by
  have hinjected : boxes (injected s point target).2 = boxes s := by
    unfold injected
    split <;> rfl
  refine Eq.trans ?_ hinjected
  unfold readFires
  dsimp only
  split
  · rfl
  · split
    · exact boxes_countLoamLine ..
    · split
      · rfl
      · exact boxes_countSubLine ..

theorem boxes_useReads (s : State) (p : Nat) (spans : List (Nat × Nat)) : boxes (useReads s p spans) = boxes s := by
  have hfires (x : State) (first : (Nat → Bool) → Option Nat) : boxes (fireReads x first) = boxes x := by
    refine frame_foldl (fun y e => ?_) _ _
    dsimp only
    split
    · split
      · exact boxes_readFires ..
      · rfl
    · rfl
  refine (hfires _ _).trans ?_
  unfold chargeReads
  dsimp only
  split <;> rfl

theorem boxes_useBody (s : State) (fn : Nat) (M : Mailbox) : boxes (useBody s fn M) = boxes s := by
  unfold useBody
  split
  · split
    · exact boxes_useReads ..
    · rfl
  · rfl

theorem noFunction_mailboxes {M : Mailbox} (h : M ∈ noFunction.mailboxes) : M = noMailbox := (List.mem_replicate.1 h).2

/-- A POSTED mailbox is one of the device's. -/
theorem mbx_exists_of_posted {s : State} {fn m : Nat} (h : (mbxOf s fn m).state = .posted) :
    fn < s.fns.length ∧ m < (fnOf s fn).mailboxes.length := by
  have hm : m < (fnOf s fn).mailboxes.length := by
    by_contra hge
    rw [mbxOf, List.getD_eq_default _ _ (Nat.le_of_not_lt hge)] at h
    cases h
  refine ⟨?_, hm⟩
  by_contra hge
  have hnone : fnOf s fn = noFunction := List.getD_eq_default _ _ (Nat.le_of_not_lt hge)
  have hfree : mbxOf s fn m = noMailbox := by
    rw [mbxOf, List.getD_eq_getElem _ _ hm]
    exact noFunction_mailboxes (hnone ▸ List.getElem_mem hm)
  rw [hfree] at h
  cases h

/-- A request that firmware has taken is TAKEN. -/
theorem mbxOf_taken_state {s : State} {fn m code : Nat} {bs : List Byte} (h : asked s fn m code bs) : (mbxOf (taken s fn m) fn m).state = .taken := by
  obtain ⟨-, -, -, hposted, -⟩ := h
  obtain ⟨hfn, hm⟩ := mbx_exists_of_posted hposted
  have htaken : mbxOf (taken s fn m) fn m = takenMbx s fn m := by
    unfold taken
    split
    · rfl
    · exact mbxOf_of_boxes (boxes_useBody ..) fn m
  rw [htaken, takenMbx, takenBox, mbxOf_setMbx_same hfn _ hm]

/-! ### FW_UPDATE and its stages -/

theorem runFwUpdate_begins {x : State} {a : Asked} {i : Image} (hfree : updatingBox x a.fn a.box = false) (hshape : updateBadShape x a.body = false)
    (hissue : mayIssue x a.fn = true) (hsigned : updateSigned x (payFld a.body 8 4) i = true) (hfits : handoffFits x i = true) :
    runFwUpdate (.image i) x a = (none, beginUpdate (writeBank x (1 - x.boot.bank) i) a i) := by
  simp [runFwUpdate, hfree, hshape, hissue, hsigned, hfits]

/-- What a begun update is: the new image in the other bank, and the stage. -/
theorem boot_beginUpdate (x : State) (a : Asked) (i : Image) (bank : Nat) : (beginUpdate (writeBank x bank i) a i).boot
    = { (writeBank x bank i).boot with
        handoff := true
        update := some { fn := a.fn, box := a.box, image := i, old := x.boot.image.getD i, stage := .quiescing } } := rfl

theorem mbxOf_beginUpdate (x : State) (a : Asked) (i : Image) (bank fn m : Nat) :
    mbxOf (beginUpdate (writeBank x bank i) a i) fn m = mbxOf x fn m := rfl

section
variable {s : State} {u : Update} (hu : s.boot.update = some u) (halive : s.boot.fwAlive = true)
include hu halive

theorem updateQuiesced_saves (hstage : u.stage = .quiescing) (hothers : othersTaken s = false) : updateQuiesced s = setStage s u .saved := by
  simp [updateQuiesced, hu, hstage, halive, hothers]

theorem updateSwitch_switches (hstage : u.stage = .saved) : updateSwitch s
    = setStage (startReeves (setBoot (startImage s u.image) fun b => { b with bank := 1 - b.bank })) u .switched := by
  simp [updateSwitch, hu, hstage, halive]

/-- What the end of an update writes. -/
def updateEnded (b : Boot) : Boot := { b with handoff := false, updates := b.updates + 1, update := none }

theorem updateRestored_ends (hstage : u.stage = .switched) :
    updateRestored s = drainAll (answer (setBoot (buildAll s) updateEnded) u.fn u.box (plain .completed)) := by
  simp only [updateRestored, hu, hstage, halive]
  rfl

/-- Shadow pages, the reply and the trapped writes leave the boot state alone. -/
theorem boot_updateRestored (hstage : u.stage = .switched) : (updateRestored s).boot = updateEnded s.boot := by
  have hbuilt : Sound ⟨False, (· = s.boot)⟩ (buildAll s) := sound_buildAll ⟨False.elim, rfl⟩
  have hended : Sound ⟨False, (· = updateEnded s.boot)⟩ (setBoot (buildAll s) updateEnded) := ⟨False.elim, congrArg updateEnded hbuilt.boot⟩
  rw [updateRestored_ends hu halive hstage]
  exact (sound_drainAll (sound_answer hended)).boot

end

/-- Settles O40: each stage of an update from its conditions; TAKEN from the frame of mailboxes, and the end from the frame of the boot state. -/
theorem firmwareRequests : Obligations.FirmwareRequests := by
  intro s fn m bs x
  refine ⟨fun h => congrArg Host.Outcome.next (serve_replies h rfl), fun i h hfree hshape hissue hsigned hfits => ?begins,
    fun u hu halive => ⟨fun hstage hothers => congrArg Host.Outcome.next (updateQuiesced_saves hu halive hstage hothers), fun hstage => ?switches,
      fun hstage => ?ends⟩⟩
  case begins =>
    have hexec := serve_continues h (runFwUpdate_begins (a := asking s fn m bs) hfree hshape hissue hsigned hfits)
    have hboot := boot_beginUpdate x (asking s fn m bs) i (1 - x.boot.bank)
    refine ⟨_, congrArg Host.Outcome.next hexec, congrArg Boot.handoff hboot, ?_, congrArg Boot.update hboot⟩
    exact (congrArg Mailbox.state (mbxOf_beginUpdate ..)).trans (mbxOf_taken_state h)
  case switches => exact ⟨_, congrArg Host.Outcome.next (updateSwitch_switches hu halive hstage), rfl, rfl, rfl, rfl⟩
  case ends =>
    have hboot := boot_updateRestored hu halive hstage
    exact ⟨_, rfl, congrArg Boot.handoff hboot, congrArg Boot.update hboot, congrArg Boot.updates hboot⟩

end Sys2Proof.Machine
end
